-- ==== Sys2Proof/Word.lean ====
section
/-! DEFINITION. The word types and their plainest arithmetic. -/

namespace Sys2Proof

/-- A 32-bit word: the width of a register access (R320), of a Phiad register (R79) and of an angle (R2). -/
abbrev Word := BitVec 32

/-- A byte of a memory of the unified map. -/
abbrev Byte := BitVec 8

/-- The low `w` bits of a number. -/
def maskN (w v : Nat) : Nat := v % 2 ^ w

/-- Bits `hi` to `lo` of a number. -/
def bitsN (v hi lo : Nat) : Nat := v / 2 ^ lo % 2 ^ (hi + 1 - lo)

/-- Bit `k` of a number, as a truth value. -/
def bitN (v k : Nat) : Bool := v / 2 ^ k % 2 == 1

/-- A truth value as a one-bit number. -/
def b2n (b : Bool) : Nat := if b then 1 else 0

/-- The number `v`, read as a `w`-bit two's complement integer. -/
def sextN (w v : Nat) : Int := if v % 2 ^ w < 2 ^ (w - 1) then (v % 2 ^ w : Nat) else (v % 2 ^ w : Nat) - (2 ^ w : Nat)

/-- An integer in `w`-bit two's complement, as a number below `2 ^ w`. -/
def wrapI (w : Nat) (v : Int) : Nat := (v % (2 ^ w : Nat)).toNat

/-- An integer limited to the range from `lo` to `hi`. -/
def satI (lo hi v : Int) : Int := if v < lo then lo else if hi < v then hi else v

/-- A number limited to the range from `lo` to `hi`. -/
def clampN (lo hi v : Nat) : Nat := if v < lo then lo else if hi < v then hi else v

/-- A quotient rounded to the nearest number, a half upwards. -/
def roundDiv (a b : Nat) : Nat := (2 * a + b) / (2 * b)

/-- The numbers from 0 to `n - 1`. -/
abbrev upto (n : Nat) : List Nat := List.range n

end Sys2Proof
end

