-- ==== Sys2Proof/Syntax.lean ====
section
/-! DEFINITION. The commands the block takes: one constructor per row of spec/opcode_table.json, in its order. -/

namespace Sys2Proof

/-- Where a register or memory access comes from: a PCIe function, the monitor SPI port or a DMA channel (R329). -/
inductive Src where
  | f (k : Fin 4)
  | mspi
  | dma (c : Fin 16)
  deriving DecidableEq, Repr

/-- Which address space of a function an access names: the window of BAR 0 onto the unified map, the interrupt window of
BAR 1, or the configuration space (R299, R347 to R350). The other sources reach the unified map only. -/
inductive Space where
  | bar0 | bar1 | config
  deriving DecidableEq, Repr

/-- What the ECC of the words that a map-memory transaction reads finds (R91). -/
inductive Ecc where
  | clean
  /-- Single-bit errors corrected in `words` of the 64-bit words. -/
  | corrected (words : Fin 16)
  /-- A double-bit error in the 64-bit word that holds byte `addr`, beside single-bit errors in `words` others. -/
  | double (addr : BitVec 18) (words : Fin 16)
  deriving DecidableEq, Repr

/-- The send condition of R296 that lifts. -/
inductive SendCond where
  | vectorMask (vec : BitVec 6) | functionMask | msixEnable | busMaster | powerState
  deriving DecidableEq, Repr

/-- The causes of a conventional reset (R346). -/
inductive ConvReset where
  | perst | hotReset | linkDown
  deriving DecidableEq, Repr

/-- What a Follow observes when it takes the token (R381): condition 1, or condition 2 with its ground. -/
inductive TakeCond where
  | noDen | noHeartbeat | released | accepted
  deriving DecidableEq, Repr

/-- The clock failures of R403, with the codes of CLK_STAT.LAST_FAIL. -/
inductive FailCode where
  | reference | eventPll | sequencerPll | peripheralPll | window
  deriving DecidableEq, Repr

/-- An error that ECC finds in the word that sequencer `n` fetches: of two bits, or of one (R85). -/
structure ProgError where
  n : Fin 24
  double : Bool
  deriving DecidableEq, Repr

/-- The data of a write: its first word, the byte enables and the data of the words after it, and whether the data are
poisoned (R325, R352). -/
structure WriteData where
  word : Word
  rest : List (BitVec 4 × Word) := []
  poisoned : Bool := false
  deriving DecidableEq, Repr

/-- A command: one row of the table of operations and events (DESIGN CHOICE, log entry 57). -/
inductive Instr where
  /-- WFE_CROSSING, R20. -/
  | wfeCrossing (w : Fin 8) (stamp : Nat) (rising : Bool)
  /-- PEAK_DECAY, R21. -/
  | peakDecay (w : Fin 8)
  /-- EDGE_ACCEPT, R25. -/
  | edgeAccept (d : Fin 4) (phase : Bool)
  /-- PRIMARY_EDGE, R33. -/
  | primaryEdge (d : Fin 4)
  /-- PHASE_EDGE, R37. -/
  | phaseEdge (d : Fin 4)
  /-- STALL, R43. -/
  | stall (d : Fin 4)
  /-- DESYNC, R43. -/
  | desync (src : Src) (d : Fin 4)
  /-- RESEED, R40. -/
  | reseed (src : Src) (d : Fin 4)
  /-- ANGLE_CLAMP, R60. -/
  | angleClamp (d : Fin 4)
  /-- CYCLE_BOUNDARY, R3. -/
  | cycleBoundary (d : Fin 4)
  /-- TCL_SWAP, R74. -/
  | tclSwap (src : Src) (d : Fin 4)
  /-- TCL_RESTART, R71. -/
  | tclRestart (src : Src) (d : Fin 4)
  /-- CORRECTION_BANK_WRITE, R75. -/
  | correctionBankWrite (src : Src) (d : Fin 4) (b : Fin 2) (k : Fin 1024) (v : Word)
  /-- MAP_WRITE, R30. -/
  | mapWrite (src : Src) (off : Nat) (v : Word)
  /-- SEQ_START, R82. -/
  | seqStart (src : Src) (n : Fin 24)
  /-- SEQ_RESET, R107. -/
  | seqReset (src : Src) (n : Fin 24)
  /-- SEQ_SWAP_REQ, R139. -/
  | seqSwapReq (src : Src) (n : Fin 24)
  /-- SEQ_FLAGS_CLEAR, R127. -/
  | seqFlagsClear (src : Src) (n : Fin 24) (mask : BitVec 16)
  /-- SEQ_FLAGS_SET, R127. -/
  | seqFlagsSet (src : Src) (n : Fin 24) (mask : BitVec 16)
  /-- PROGRAM_BANK_WRITE, R84. -/
  | programBankWrite (src : Src) (n : Fin 24) (b : Fin 2) (i : Fin 2048) (v : Word)
  /-- DATA_MEMORY_WRITE, R16. -/
  | dataMemoryWrite (src : Src) (n : Fin 24) (i : Fin 1024) (v : Word)
  /-- MAPM_WRITE, R89. -/
  | mapmWrite (src : Src) (a : Fin 65536) (be : BitVec 4) (v : Word)
  /-- PROG_ECC, R85. -/
  | progEcc (e : ProgError)
  /-- ILLEGAL, R93. -/
  | illegal (n : Fin 24)
  /-- ADD, R96. -/
  | add (n : Fin 24)
  /-- SUB, R96. -/
  | sub (n : Fin 24)
  /-- AND, R96. -/
  | and (n : Fin 24)
  /-- OR, R96. -/
  | or (n : Fin 24)
  /-- XOR, R96. -/
  | xor (n : Fin 24)
  /-- SLL, R96. -/
  | sll (n : Fin 24)
  /-- SRL, R96. -/
  | srl (n : Fin 24)
  /-- SRA, R96. -/
  | sra (n : Fin 24)
  /-- SLT, R96. -/
  | slt (n : Fin 24)
  /-- SLTU, R96. -/
  | sltu (n : Fin 24)
  /-- MIN, R96. -/
  | min (n : Fin 24)
  /-- MAX, R96. -/
  | max (n : Fin 24)
  /-- MINU, R96. -/
  | minu (n : Fin 24)
  /-- MAXU, R96. -/
  | maxu (n : Fin 24)
  /-- CLAMP, R96. -/
  | clamp (n : Fin 24)
  /-- CLAMPU, R96. -/
  | clampu (n : Fin 24)
  /-- PACK, R96. -/
  | pack (n : Fin 24)
  /-- ADDI, R97. -/
  | addi (n : Fin 24)
  /-- ANDI, R97. -/
  | andi (n : Fin 24)
  /-- ORI, R97. -/
  | ori (n : Fin 24)
  /-- XORI, R97. -/
  | xori (n : Fin 24)
  /-- SLLI, R97. -/
  | slli (n : Fin 24)
  /-- SRLI, R97. -/
  | srli (n : Fin 24)
  /-- SRAI, R97. -/
  | srai (n : Fin 24)
  /-- RORI, R97. -/
  | rori (n : Fin 24)
  /-- LUI, R97. -/
  | lui (n : Fin 24)
  /-- MULU, R98. -/
  | mulu (n : Fin 24)
  /-- MULS, R98. -/
  | muls (n : Fin 24)
  /-- MUL, R98. -/
  | mul (n : Fin 24)
  /-- MULQ, R98. -/
  | mulq (n : Fin 24)
  /-- DIVU, R98. -/
  | divu (n : Fin 24)
  /-- DIVS, R98. -/
  | divs (n : Fin 24)
  /-- REMU, R98. -/
  | remu (n : Fin 24)
  /-- REMS, R98. -/
  | rems (n : Fin 24)
  /-- LW, R99. -/
  | lw (n : Fin 24)
  /-- SW, R99. -/
  | sw (n : Fin 24)
  /-- LMU, R99. -/
  | lmu (n : Fin 24)
  /-- LMS, R99. -/
  | lms (n : Fin 24)
  /-- LMW, R99. -/
  | lmw (n : Fin 24)
  /-- MAP2, R102. -/
  | map2 (n : Fin 24)
  /-- MAPM_TRANSACTION, R90. -/
  | mapmTransaction (n : Fin 24) (ecc : Ecc)
  /-- A2T, R103. -/
  | a2t (n : Fin 24)
  /-- T2A, R103. -/
  | t2a (n : Fin 24)
  /-- RDS, R81. -/
  | rds (n : Fin 24)
  /-- BEQ, R100. -/
  | beq (n : Fin 24)
  /-- BNE, R100. -/
  | bne (n : Fin 24)
  /-- BLT, R100. -/
  | blt (n : Fin 24)
  /-- BGE, R100. -/
  | bge (n : Fin 24)
  /-- BLTU, R100. -/
  | bltu (n : Fin 24)
  /-- BGEU, R100. -/
  | bgeu (n : Fin 24)
  /-- BMLT, R100. -/
  | bmlt (n : Fin 24)
  /-- BMGE, R100. -/
  | bmge (n : Fin 24)
  /-- JAL, R100. -/
  | jal (n : Fin 24)
  /-- JALR, R100. -/
  | jalr (n : Fin 24)
  /-- ARM, R113. -/
  | arm (n : Fin 24)
  /-- ARMT, R113. -/
  | armt (n : Fin 24)
  /-- PULSE, R115. -/
  | pulse (n : Fin 24)
  /-- CANCEL_HANDLE, R119. -/
  | cancelHandle (n : Fin 24)
  /-- CANCEL_CHANNEL, R119. -/
  | cancelChannel (n : Fin 24)
  /-- CANCEL_ALL, R119. -/
  | cancelAll (n : Fin 24)
  /-- WAITA, R124. -/
  | waita (n : Fin 24)
  /-- WAITT, R124. -/
  | waitt (n : Fin 24)
  /-- WAITE_TOOTH, R125. -/
  | waiteTooth (n : Fin 24)
  /-- WAITE_ICU, R126. -/
  | waiteIcu (n : Fin 24)
  /-- WAITE_FENCE, R127. -/
  | waiteFence (n : Fin 24)
  /-- WAITE_EPOCH, R127. -/
  | waiteEpoch (n : Fin 24)
  /-- WAITE_FLAG, R127. -/
  | waiteFlag (n : Fin 24)
  /-- TASK_START, R128. -/
  | taskStart (n : Fin 24)
  /-- WAITE_WAKE, R123. -/
  | waiteWake (n : Fin 24)
  /-- SAFEPT, R135. -/
  | safept (n : Fin 24)
  /-- FENCE, R136. -/
  | fence (n : Fin 24)
  /-- BUDGET, R129. -/
  | budget (n : Fin 24)
  /-- YIELD, R132. -/
  | yield (n : Fin 24)
  /-- HALT, R137. -/
  | halt (n : Fin 24)
  /-- HANDOVER, R138. -/
  | handover (n : Fin 24)
  /-- HANDOVER_TRANSFER, R138. -/
  | handoverTransfer (n : Fin 24)
  /-- SLOT_STALL_RESUME, R133. -/
  | slotStallResume (n : Fin 24)
  /-- BUDGET_EXPIRY, R129. -/
  | budgetExpiry (n : Fin 24)
  /-- SLOT_FIRE, R146. -/
  | slotFire (n : Fin 24) (k : Fin 64)
  /-- SVC_FIRE, R156. -/
  | svcFire (k : Fin 64)
  /-- SVC_CFG_WRITE, R156. -/
  | svcCfgWrite (src : Src) (k : Fin 64) (v : Word)
  /-- SVC_TARGET_WRITE, R156. -/
  | svcTargetWrite (src : Src) (k : Fin 64) (v : Word)
  /-- OUT_OWNER_WRITE, R154. -/
  | outOwnerWrite (src : Src) (ch : Fin 96) (v : Word)
  /-- COMPLETE_CAP_EXPIRY, R158. -/
  | completeCapExpiry (ch : Fin 96)
  /-- MODE_REQ_DORMANT, R407. -/
  | modeReqDormant (src : Src)
  /-- MODE_REQ_STANDBY, R177. -/
  | modeReqStandby (src : Src)
  /-- MODE_REQ_SEEK, R177. -/
  | modeReqSeek (src : Src)
  /-- MODE_REQ_RUN, R182. -/
  | modeReqRun (src : Src) (imm : Bool) (d : Fin 4)
  /-- MODE_REQ_CLEARING, R178. -/
  | modeReqClearing (src : Src)
  /-- AUTO_RUN, R177. -/
  | autoRun
  /-- AUTO_LIMP, R190. -/
  | autoLimp
  /-- AUTO_LIMP_TO_RUN, R191. -/
  | autoLimpToRun
  /-- MODE_EPOCH, R183. -/
  | modeEpoch
  /-- MODE_TIMEOUT, R187. -/
  | modeTimeout
  /-- ADC_CONVERSION, R199. -/
  | adcConversion (k : Fin 24) (code : BitVec 16) (instant : Nat)
  /-- ADC_CFG_WRITE, R202. -/
  | adcCfgWrite (src : Src) (k : Fin 24) (v : Word)
  /-- ADC_COMMIT, R201. -/
  | adcCommit (src : Src) (k : Fin 24)
  /-- ADC_CAL, R203. -/
  | adcCal (src : Src) (k : Fin 24)
  /-- ADC_FLT_RESET, R206. -/
  | adcFltReset (src : Src) (k : Fin 24)
  /-- ADC_CAL_DONE, R204. -/
  | adcCalDone (p : Fin 12) (skew : Option (BitVec 16))
  /-- AIN_CFG_WRITE, R197. -/
  | ainCfgWrite (src : Src) (a : Fin 48) (v : Word)
  /-- BAS_CFG_WRITE, R208. -/
  | basCfgWrite (src : Src) (k : Fin 512) (v : Word)
  /-- BAS_OPEN, R211. -/
  | basOpen (src : Src) (k : Fin 512)
  /-- BAS_CLOSE, R211. -/
  | basClose (src : Src) (k : Fin 512)
  /-- BAS_CLOSE_OPEN, R211. -/
  | basCloseOpen (src : Src) (k : Fin 512)
  /-- BASIN_LATCH, R212. -/
  | basinLatch (k : Fin 512)
  /-- BAS_VALUE_READ, R216. -/
  | basValueRead (src : Src) (k : Fin 512)
  /-- BAS_TAG_READ, R216. -/
  | basTagRead (src : Src) (k : Fin 512)
  /-- READ_IN_PROGRESS_TIMEOUT, R216. -/
  | readInProgressTimeout (src : Src) (k : Fin 512)
  /-- TRK_MAX_READ, R222. -/
  | trkMaxRead (src : Src) (k : Fin 128)
  /-- FEED_DATA_READ, R224. -/
  | feedDataRead (src : Src) (f : Fin 4) (high : Bool)
  /-- WT_SWAP, R220. -/
  | wtSwap (src : Src) (d : Fin 4)
  /-- WEIGHT_WRITE, R220. -/
  | weightWrite (src : Src) (d : Fin 4) (b : Fin 2) (i : Fin 4096) (v : Word)
  /-- SETTLING_END, R220. -/
  | settlingEnd (d : Fin 4)
  /-- CMP_CROSSING, R231. -/
  | cmpCrossing (k : Fin 32) (raw : Bool)
  /-- CMP_FILTER_PASS, R232. -/
  | cmpFilterPass (k : Fin 32)
  /-- CMP_DAC_WRITE, R234. -/
  | cmpDacWrite (src : Src) (k : Fin 32) (v : Word)
  /-- CMP_HOLD_END, R234. -/
  | cmpHoldEnd (k : Fin 32)
  /-- PWM_CTRL_WRITE, R244. -/
  | pwmCtrlWrite (src : Src) (g : Fin 16) (v : Word)
  /-- PWM_BOUNDARY, R248. -/
  | pwmBoundary (g : Fin 16)
  /-- PWM_MID_LOAD, R248. -/
  | pwmMidLoad (g : Fin 16)
  /-- PWM_COMPARE, R246. -/
  | pwmCompare (g : Fin 16)
  /-- DEADTIME_EXPIRY, R247. -/
  | deadtimeExpiry (g : Fin 16) (b : Bool)
  /-- PWM_MARKER, R254. -/
  | pwmMarker (g : Fin 16) (second : Bool)
  /-- TRIP_FILTER_PASS, R250. -/
  | tripFilterPass (t : Fin 8)
  /-- TRIP_SW, R251. -/
  | tripSw (src : Src) (g : Fin 16)
  /-- TRIP_CLR, R252. -/
  | tripClr (src : Src) (g : Fin 16)
  /-- PWM_FORCE_WRITE, R249. -/
  | pwmForceWrite (src : Src) (g : Fin 16) (v : Word)
  /-- PWM_OUTCFG_WRITE, R255. -/
  | pwmOutcfgWrite (src : Src) (g : Fin 16) (v : Word)
  /-- AUX_OVERCURRENT, R255. -/
  | auxOvercurrent (a : Fin 32)
  /-- PWM_SYNC_RESTART, R259. -/
  | pwmSyncRestart (src : Src) (mask : BitVec 16)
  /-- IOE_CTRL_WRITE, R267. -/
  | ioeCtrlWrite (src : Src) (e : Fin 16) (v : Word)
  /-- IOE_RESET, R267. -/
  | ioeReset (src : Src) (e : Fin 16)
  /-- IOE_INJECT, R280. -/
  | ioeInject (src : Src) (e : Fin 16) (v : Word)
  /-- IOE_GROUP_START, R279. -/
  | ioeGroupStart (src : Src) (grp : Fin 8)
  /-- IOE_GROUP_REPHASE, R279. -/
  | ioeGroupRephase (src : Src) (grp : Fin 8)
  /-- IOE_QOUT_READ, R283. -/
  | ioeQoutRead (src : Src) (e : Fin 16)
  /-- IOE_QIN_WRITE, R283. -/
  | ioeQinWrite (src : Src) (e : Fin 16) (v : Word)
  /-- IOE_FLAGS_CLEAR, R285. -/
  | ioeFlagsClear (src : Src) (e : Fin 16) (mask : BitVec 8)
  /-- IOE_FLAGS_SET, R285. -/
  | ioeFlagsSet (src : Src) (e : Fin 16) (mask : BitVec 8)
  /-- GIO_CFG_WRITE, R268. -/
  | gioCfgWrite (src : Src) (p : Fin 32) (v : Word)
  /-- IMEM_WRITE, R281. -/
  | imemWrite (src : Src) (e : Fin 16) (i : Fin 64) (v : Word)
  /-- GIO_EDGE, R269. -/
  | gioEdge (p : Fin 32) (level : Bool) (stamp : Nat)
  /-- IOE_STEP_WAKE, R274. -/
  | ioeStepWake (e : Fin 16)
  /-- IOE_TIMED_ACTION, R277. -/
  | ioeTimedAction (e : Fin 16)
  /-- IOE_JMP, R272. -/
  | ioeJmp (e : Fin 16)
  /-- IOE_WAITP, R274. -/
  | ioeWaitp (e : Fin 16)
  /-- IOE_WAITF, R271. -/
  | ioeWaitf (e : Fin 16)
  /-- IOE_WAITI, R285. -/
  | ioeWaiti (e : Fin 16)
  /-- IOE_WAITT, R277. -/
  | ioeWaitt (e : Fin 16)
  /-- IOE_PIN, R271. -/
  | ioePin (e : Fin 16)
  /-- IOE_SHIN, R271. -/
  | ioeShin (e : Fin 16)
  /-- IOE_SHOUT, R271. -/
  | ioeShout (e : Fin 16)
  /-- IOE_MOV, R273. -/
  | ioeMov (e : Fin 16)
  /-- IOE_ADD, R273. -/
  | ioeAdd (e : Fin 16)
  /-- IOE_SUB, R273. -/
  | ioeSub (e : Fin 16)
  /-- MEAS, R276. -/
  | meas (e : Fin 16)
  /-- SETU, R276. -/
  | setu (e : Fin 16)
  /-- CRC, R278. -/
  | crc (e : Fin 16)
  /-- PUSH, R282. -/
  | push (e : Fin 16)
  /-- PULL, R282. -/
  | pull (e : Fin 16)
  /-- POST, R284. -/
  | post (e : Fin 16)
  /-- SETF, R271. -/
  | setf (e : Fin 16)
  /-- IOE_IRQ, R271. -/
  | ioeIrq (e : Fin 16)
  /-- IOE_HALT, R267. -/
  | ioeHalt (e : Fin 16)
  /-- IOE_ILLEGAL, R270. -/
  | ioeIllegal (e : Fin 16)
  /-- ICU_TGT_WRITE, R292. -/
  | icuTgtWrite (src : Src) (k : Fin 384) (v : Word)
  /-- ICU_EOI, R295. -/
  | icuEoi (f : Fin 4) (vec : BitVec 6)
  /-- MSIX_UNMASK, R296. -/
  | msixUnmask (f : Fin 4) (cond : SendCond)
  /-- ICU_SWI_SET, R290. -/
  | icuSwiSet (src : Src) (j : Fin 2) (mask : Word)
  /-- RMGR_SOURCE, R372. -/
  | rmgrSource (k : Fin 384)
  /-- DMA_TAIL, R306. -/
  | dmaTail (src : Src) (c : Fin 16) (v : Word)
  /-- DMA_CFG_WRITE, R315. -/
  | dmaCfgWrite (src : Src) (c : Fin 16) (v : Word)
  /-- DMA_ABORT, R313. -/
  | dmaAbort (src : Src) (c : Fin 16)
  /-- DMA_SKIP, R311. -/
  | dmaSkip (src : Src) (c : Fin 16)
  /-- DMA_RD_WRITE, R315. -/
  | dmaRdWrite (src : Src) (c : Fin 16) (v : Word)
  /-- DMA_READ_COMPLETION, R304: with its data, or without where the read failed. -/
  | dmaReadCompletion (c : Fin 16) (tag : Fin 32) (data : Option (List Byte))
  /-- DMA_FEED_TRANSFER, R314. -/
  | dmaFeedTransfer (c : Fin 16)
  /-- COMPLETION_TIMEOUT, R353. -/
  | completionTimeout (c : Fin 16)
  /-- REGISTER_WRITE, R5: `be` enables bytes of the first word. -/
  | registerWrite (src : Src) (space : Space) (off : BitVec 24) (be : BitVec 4) (d : WriteData)
  /-- RC_READ, R5: `be` holds the byte enables of the words read, in ascending order. -/
  | rcRead (src : Src) (space : Space) (off : BitVec 24) (be : List (BitVec 4))
  /-- PAIR_LOW_READ, R326: `be` as for RC_READ. -/
  | pairLowRead (src : Src) (space : Space) (off : BitVec 24) (be : List (BitVec 4))
  /-- FENCE_WRITE, R332. -/
  | fenceWrite (src : Src) (token : BitVec 16)
  /-- ELOG_RD_WRITE, R425. -/
  | elogRdWrite (src : Src) (v : Word)
  /-- LOST_ENTRY, R424. -/
  | lostEntry
  /-- MSPI_NOP, R336. -/
  | mspiNop
  /-- MSPI_READ, R337. -/
  | mspiRead (addr : BitVec 24)
  /-- MSPI_WRITE, R337. -/
  | mspiWrite (addr : BitVec 24) (v : Word)
  /-- MSPI_CLEAR, R340. -/
  | mspiClear
  /-- MSPI_CMD_ERROR, R336. -/
  | mspiCmdError (cmd : BitVec 8) (addr : BitVec 24) (v : Word)
  /-- MSPI_FRAME_DISCARD, R338. -/
  | mspiFrameDiscard (bits : Nat) (frame : BitVec 72) (early : Bool)
  /-- CONVENTIONAL_RESET, R346. -/
  | conventionalReset (cause : ConvReset)
  /-- LINK_UP, R359. -/
  | linkUp (speed : Fin 3) (width : Fin 2)
  /-- FLR, R354. -/
  | flr (f : Fin 4)
  /-- F1_BLOCK_RESET, R356. -/
  | f1BlockReset
  /-- FLR_HANDOVER_FALLBACK, R357. -/
  | flrHandoverFallback
  /-- PCIE_FOREIGN_ACCESS, R352. -/
  | pcieForeignAccess (f : Fin 4) (off : BitVec 24) (wr : Bool)
  /-- POWER_STATE_CHANGE, R349. -/
  | powerStateChange (f : Fin 4) (d3 : Bool)
  /-- PAIR_START_DECIDE, R368. -/
  | pairStartDecide (peerLead : Bool) (peerDen : Bool)
  /-- LEAD_CONFLICT, R369. -/
  | leadConflict
  /-- RMGR_REFRESH, R370. -/
  | rmgrRefresh
  /-- DEN_STOP, R370. -/
  | denStop
  /-- DEN_SILENCE, R161. -/
  | denSilence
  /-- LEAD_FORCE_OFF, R373. -/
  | leadForceOff
  /-- HEARTBEAT_SEND, R377. -/
  | heartbeatSend
  /-- HEARTBEAT, R377. -/
  | heartbeat (flags : BitVec 8) (ack : BitVec 16) (state : BitVec 16)
  /-- DIGEST, R380. -/
  | digest (bytes : List Byte)
  /-- MODE_FRAME, R193. -/
  | modeFrame (seq : BitVec 16) (target : Fin 6) (cause : BitVec 8) (dom : Fin 4) (imm : Bool) (angle : Word)
  /-- TOKEN_OFFER, R386. -/
  | tokenOffer (seq : BitVec 16)
  /-- TOKEN_ACCEPT, R386. -/
  | tokenAccept (seq : BitVec 16)
  /-- TOKEN_REFUSE, R386. -/
  | tokenRefuse (seq : BitVec 16)
  /-- TOKEN_ABORT, R386. -/
  | tokenAbort (seq : BitVec 16)
  /-- TOKEN_RELEASED, R386. -/
  | tokenReleased (seq : BitVec 16)
  /-- JOIN_REQ, R388. -/
  | joinReq (seq : BitVec 16)
  /-- JOIN_START, R388. -/
  | joinStart (seq : BitVec 16)
  /-- JOIN_END, R389. -/
  | joinEnd (seq : BitVec 16) (len : Nat) (crc : BitVec 32)
  /-- JOIN_ABORT_FRAME, R389. -/
  | joinAbortFrame (seq : BitVec 16)
  /-- BULK, R388. -/
  | bulk (seq : BitVec 16) (off : BitVec 24) (data : List Byte)
  /-- WRITE_FRAME, R367. -/
  | writeFrame (seq : BitVec 16) (source : BitVec 8) (be : BitVec 4) (off : BitVec 24) (v : Word)
  /-- LINK_FRAME_DISCARD, R375. -/
  | linkFrameDiscard
  /-- LINK_DOWN, R378. -/
  | linkDown
  /-- LINK_RETRY, R378. -/
  | linkRetry
  /-- TAKEOVER, R381. -/
  | takeover (cond : TakeCond)
  /-- PAIR_HANDOVER, R385. -/
  | pairHandover (src : Src)
  /-- PAIR_JOIN_ABORT, R389. -/
  | pairJoinAbort (src : Src)
  /-- IDLE_INSTANT, R386. -/
  | idleInstant
  /-- IDLE_WAIT_EXPIRY, R386. -/
  | idleWaitExpiry
  /-- PRESENT_MAKE, R442. -/
  | presentMake
  /-- PRESENT_BREAK, R387. -/
  | presentBreak
  /-- DEBUG_HALT, R161. -/
  | debugHalt
  /-- TEST_LOGIC_RESET, R411. -/
  | testLogicReset
  /-- POWER_ON_RESET, R393. -/
  | powerOnReset (straps : Fin 8)
  /-- POWER_ON_RESET_ASSERT, R393. -/
  | powerOnResetAssert
  /-- SUP_OVERLOAD, R397. -/
  | supOverload (n : Fin 4)
  /-- SUP_OFF, R397. -/
  | supOff (n : Fin 4)
  /-- SUP_RETRY, R397. -/
  | supRetry (n : Fin 4)
  /-- CLOCK_FAIL, R403. -/
  | clockFail (code : FailCode)
  /-- CLOCK_RECOVERY, R404. -/
  | clockRecovery
  /-- WAKE_WHEEL, R408. -/
  | wakeWheel (w : Fin 8)
  /-- WAKE_PIN, R408. -/
  | wakePin
  /-- WAKE_TIMER, R408. -/
  | wakeTimer
  /-- WAKE_RELEASE, R409. -/
  | wakeRelease
  /-- FIRST_EDGE_CATCH, R410. -/
  | firstEdgeCatch (w : Fin 8) (stamp : Nat) (rising : Bool)
  /-- DETECTOR_ARM, R20. -/
  | detectorArm (w : Fin 8) (peak : BitVec 16)
  /-- TRIP_PIN_CHANGE, R250. -/
  | tripPinChange (t : Fin 8) (level : Bool)
  /-- OVERLOAD_END, R397. -/
  | overloadEnd (n : Fin 4)
  /-- OSCILLATOR_WINDOW_LEAVE, R399. -/
  | oscillatorWindowLeave
  /-- HEARTBEAT_MISS, R391. -/
  | heartbeatMiss
  /-- DORMANT_ENTRY_DONE, R407. -/
  | dormantEntryDone
  /-- PERST_DEASSERT, R359. -/
  | perstDeassert
  /-- CONFIG_RETRY_END, R359. -/
  | configRetryEnd
  /-- BUS_MASTER_ENABLE_SET, R305. -/
  | busMasterEnableSet
  deriving DecidableEq, Repr

end Sys2Proof
end

