-- ==== Sys2Proof/Machine/Store.lean ====
section
/-! DEFINITION. Finite tables in one canonical form: the shape of every array of the state. -/

namespace Sys2Proof.Machine

/-- A finite table from numbers to values: its entries, keys strictly rising. -/
abbrev Tab (α : Type) := List (Nat × α)

/-- The entry at a key, if the table lists one. -/
def Tab.find {α : Type} (t : Tab α) (k : Nat) : Option α :=
  match t with
  | [] => none
  | (j, v) :: r => if k = j then some v else if k < j then none else Tab.find r k

/-- The table with the entry at a key placed, replaced or removed. -/
def Tab.put {α : Type} (t : Tab α) (k : Nat) (o : Option α) : Tab α :=
  match t with
  | [] => match o with
    | some v => [(k, v)]
    | none => []
  | (j, w) :: r =>
    if k = j then (match o with | some v => (k, v) :: r | none => r)
    else if k < j then (match o with | some v => (k, v) :: (j, w) :: r | none => (j, w) :: r)
    else (j, w) :: Tab.put r k o

/-- The value at a key, where an unlisted key holds `d`. -/
def Tab.get {α : Type} (d : α) (t : Tab α) (k : Nat) : α := (Tab.find t k).getD d

/-- The table with a value stored, where an unlisted key holds `d`: storing `d` removes the entry. -/
def Tab.set {α : Type} [DecidableEq α] (d : α) (t : Tab α) (k : Nat) (v : α) : Tab α :=
  Tab.put t k (if v = d then none else some v)

/-- Keys strictly rise. -/
def Tab.rising {α : Type} : Tab α → Bool
  | [] => true
  | [_] => true
  | (j, _) :: (k, w) :: r => decide (j < k) && Tab.rising ((k, w) :: r)

/-- Every listed value satisfies a test. -/
def Tab.every {α : Type} (p : Nat → α → Bool) (t : Tab α) : Bool := t.all fun e => p e.1 e.2

end Sys2Proof.Machine
end

