-- ==== Sys2Proof/Machine/Fields.lean ====
section
/-! DEFINITION. The register fields of the manual, one name per field of the tables of the rules, with the
register each lies in, its bits, its access code (R5) and its reset values (R8); and the registers, with
their offsets in the unified map (R430, R431) and the function that owns them (R9). -/

namespace Sys2Proof.Machine

/-- The access codes of R5. -/
inductive Acc where
  | ro | rw | wo | w1c | w1s | rc | rwl
  deriving DecidableEq, Repr

/-- The registers of the unified map, by block. -/
inductive Reg where
  /-- R49. -/
  | WFE_CFG
  /-- R49. -/
  | WFE_STAT
  /-- R49. -/
  | WFE_STAMP
  /-- R49. -/
  | WFE_CROSS
  /-- R50. -/
  | AD_INPUTS
  /-- R50. -/
  | AD_CFG
  /-- R50. -/
  | AD_EDGEF
  /-- R50. -/
  | AD_BLANK
  /-- R50. -/
  | AD_MAPCFG
  /-- R50. -/
  | AD_TMAP_OFFSET
  /-- R50. -/
  | AD_SYNC_CFG
  /-- R50. -/
  | AD_STALL
  /-- R50. -/
  | AD_SYNC_STAT
  /-- R50. -/
  | AD_CMD
  /-- R50. -/
  | AD_FAULT
  /-- R50. -/
  | AD_CNT_FILT
  /-- R50. -/
  | AD_CNT_BLANK
  /-- R50. -/
  | AD_CNT_LOSS
  /-- R50. -/
  | AD_CNT_PHMIS
  /-- R50. -/
  | AD_LAST_PERIOD
  /-- R50. -/
  | AD_LAST_RATIO
  /-- R50. -/
  | AD_CNT_RESTART
  /-- R76. -/
  | AD_EST_CFG
  /-- R76. -/
  | AD_EST_COEF
  /-- R76. -/
  | AD_ANGLE
  /-- R76. -/
  | AD_ANGLE_FRAC
  /-- R76. -/
  | AD_RATE
  /-- R76. -/
  | AD_ACC
  /-- R76. -/
  | AD_RPM
  /-- R76. -/
  | AD_PRED
  /-- R76. -/
  | AD_LAST_ERR
  /-- R76. -/
  | AD_LAST_JUMP
  /-- R76. -/
  | AD_CYC
  /-- R76. -/
  | AD_EST_STAT
  /-- R76. -/
  | AD_EST_FAULT
  /-- R76. -/
  | AD_CNT_CLAMP
  /-- R76. -/
  | AD_CNT_JUMP
  /-- R76. -/
  | AD_CNT_JUMP_WARN
  /-- R77. -/
  | AD_TCL_CFG
  /-- R77. -/
  | AD_TCL_BOUND
  /-- R77. -/
  | AD_TCL_CMD
  /-- R77. -/
  | AD_TCL_STAT
  /-- R77. -/
  | AD_TCL_FAULT
  /-- R77. -/
  | AD_TCL_CNT_SWAP
  /-- R77. -/
  | AD_TCL_CNT_REJREV
  /-- R108. -/
  | SEQ_CTRL
  /-- R108. -/
  | SEQ_CMD
  /-- R108. -/
  | SEQ_STAT
  /-- R108. -/
  | SEQ_ENTRY
  /-- R108. -/
  | SEQ_FAULT
  /-- R108. -/
  | SEQ_FAULT_PC
  /-- R108. -/
  | SEQ_CNT_CYC
  /-- R108. -/
  | SEQ_CNT_STALL
  /-- R108. -/
  | SEQ_CNT_ECC
  /-- R108. -/
  | SEQ_XREG
  /-- R142. -/
  | SEQ_TASK_CFG
  /-- R142. -/
  | SEQ_TASK_STAT
  /-- R142. -/
  | SEQ_BUDGET
  /-- R142. -/
  | SEQ_TASK_MAX
  /-- R142. -/
  | SEQ_TASK_FLT
  /-- R142. -/
  | SEQ_CNT_OVERRUN
  /-- R142. -/
  | SEQ_CNT_BUDGET
  /-- R142. -/
  | SEQ_CNT_EXHAUST
  /-- R142. -/
  | SEQ_CNT_COALESCED
  /-- R142. -/
  | SEQ_SLOTS
  /-- R142. -/
  | SEQ_FLAGS
  /-- R142. -/
  | SEQ_FLAGS_SET
  /-- R142. -/
  | SEQ_SWAP
  /-- R142. -/
  | SEQ_SWAP_STAT
  /-- R196. -/
  | SEQ_MODECFG
  /-- R196. -/
  | SEQ_MODE_STAT
  /-- R171. -/
  | SEQ_SLOT_TARGET
  /-- R171. -/
  | SEQ_SLOT_STATE
  /-- R108. -/
  | MAPM_ECC_CNT
  /-- R108. -/
  | MAPM_ECC_ADDR
  /-- R170. -/
  | OUT_OWNER
  /-- R170. -/
  | OUT_POLICY
  /-- R170. -/
  | OUT_CAP
  /-- R170. -/
  | OUT_STAT
  /-- R170. -/
  | OUT_CNT_EDGES
  /-- R170. -/
  | OUT_CNT_STRETCH
  /-- R170. -/
  | OUT_CNT_INHIBIT
  /-- R170. -/
  | OUT_LAST_EDGE
  /-- R172. -/
  | SVC_CFG
  /-- R172. -/
  | SVC_TARGET
  /-- R172. -/
  | SVC_STAMP
  /-- R172. -/
  | SPILL_STAT
  /-- R172. -/
  | SPILL_CNT
  /-- R172. -/
  | SPILL_LAST
  /-- R172. -/
  | OUT_DELAY
  /-- R195. -/
  | MODE_REQ
  /-- R195. -/
  | MODE_EPOCH
  /-- R195. -/
  | MODE_STAT
  /-- R195. -/
  | MODE_APPLIED
  /-- R195. -/
  | MODE_LAG
  /-- R195. -/
  | MODE_CFG
  /-- R195. -/
  | MODE_TMO
  /-- R195. -/
  | MODE_FAULT
  /-- R195. -/
  | MODE_CNT
  /-- R227. -/
  | ADC_CFG
  /-- R227. -/
  | ADC_CMD
  /-- R227. -/
  | ADC_STAT
  /-- R227. -/
  | ADC_ILV_SKEW
  /-- R227. -/
  | ADC_SEQ
  /-- R227. -/
  | ADC_FLT_CFG
  /-- R227. -/
  | ADC_COEF
  /-- R227. -/
  | AIN_CFG
  /-- R228. -/
  | BAS_CFG
  /-- R228. -/
  | BAS_WOFFSET
  /-- R228. -/
  | BAS_THR
  /-- R228. -/
  | BAS_CMD
  /-- R228. -/
  | BAS_STAT
  /-- R228. -/
  | BAS_CNT_LATE
  /-- R228. -/
  | BAS_CNT_ABORT
  /-- R228. -/
  | BAS_VALUE
  /-- R228. -/
  | BAS_SAMPLES
  /-- R228. -/
  | BAS_TAG
  /-- R228. -/
  | TRK_CFG
  /-- R228. -/
  | TRK_MAX
  /-- R228. -/
  | TRK_MAX_ANG
  /-- R228. -/
  | TRK_MIN
  /-- R228. -/
  | TRK_MIN_ANG
  /-- R228. -/
  | TRK_TAG
  /-- R228. -/
  | BAS_FEED_DATA
  /-- R228. -/
  | BAS_FEED_STAT
  /-- R228. -/
  | BAS_FEED_CNT_DROP
  /-- R228. -/
  | BAS_CLOSED
  /-- R228. -/
  | WT_CMD
  /-- R228. -/
  | WT_STAT
  /-- R243. -/
  | CMP_CFG
  /-- R243. -/
  | CMP_DAC
  /-- R243. -/
  | CMP_ROUTE
  /-- R243. -/
  | CMP_STAT
  /-- R243. -/
  | CMP_CNT_EDGES
  /-- R263. -/
  | PWM_CTRL
  /-- R263. -/
  | PWM_PERIOD
  /-- R263. -/
  | PWM_CMPA
  /-- R263. -/
  | PWM_CMPB
  /-- R263. -/
  | PWM_MARK1
  /-- R263. -/
  | PWM_MARK2
  /-- R263. -/
  | PWM_DEADTIME
  /-- R263. -/
  | PWM_FORCE
  /-- R263. -/
  | PWM_OUTCFG
  /-- R263. -/
  | PWM_CMD
  /-- R263. -/
  | PWM_STAT
  /-- R263. -/
  | PWM_COUNT
  /-- R263. -/
  | PWM_CNT_TRIP
  /-- R264. -/
  | PWM_SYNC
  /-- R264. -/
  | TRIP_CFG
  /-- R264. -/
  | TRIP_STAT
  /-- R288. -/
  | IOE_CTRL
  /-- R288. -/
  | IOE_CMD
  /-- R288. -/
  | IOE_STAT
  /-- R288. -/
  | IOE_EVT
  /-- R288. -/
  | IOE_CLKDIV
  /-- R288. -/
  | IOE_INJECT
  /-- R288. -/
  | IOE_FLAGS
  /-- R288. -/
  | IOE_FLAGS_SET
  /-- R288. -/
  | IOE_CONST
  /-- R288. -/
  | IOE_CRC_CFG
  /-- R288. -/
  | IOE_POST_MASK
  /-- R288. -/
  | IOE_POST_WORD
  /-- R288. -/
  | IOE_QOUT
  /-- R288. -/
  | IOE_QIN
  /-- R288. -/
  | IOE_QSTAT
  /-- R288. -/
  | IOE_CA
  /-- R288. -/
  | IOE_CB
  /-- R288. -/
  | IOE_SH
  /-- R288. -/
  | IOE_TT
  /-- R288. -/
  | IOE_UNIT
  /-- R288. -/
  | GIO_CFG
  /-- R288. -/
  | GIO_IN
  /-- R288. -/
  | IOE_GROUP_CMD
  /-- R300. -/
  | ICU_TGT
  /-- R300. -/
  | ICU_RAW
  /-- R300. -/
  | ICU_INT_CFG
  /-- R300. -/
  | ICU_INT_TOP
  /-- R300. -/
  | ICU_PLAT_EVT
  /-- R300. -/
  | ICU_MARK
  /-- R300. -/
  | ICU_SWI
  /-- R300. -/
  | ICU_SWI_SET
  /-- R300. -/
  | ICU_FAULT
  /-- R300. -/
  | ICU_CNT_MSG
  /-- R319. -/
  | DMA_CH_CFG
  /-- R319. -/
  | DMA_CH_CMD
  /-- R319. -/
  | DMA_CH_RING
  /-- R319. -/
  | DMA_CH_SIZE
  /-- R319. -/
  | DMA_CH_HEAD
  /-- R319. -/
  | DMA_CH_TAIL
  /-- R319. -/
  | DMA_CH_STAT
  /-- R319. -/
  | DMA_CH_EVT
  /-- R319. -/
  | DMA_CH_RBASE
  /-- R319. -/
  | DMA_CH_RSIZE
  /-- R319. -/
  | DMA_CH_WR
  /-- R319. -/
  | DMA_CH_RD
  /-- R319. -/
  | DMA_CH_WRPTR_ADDR
  /-- R319. -/
  | DMA_CH_CNT_BYTES
  /-- R319. -/
  | DMA_CH_CNT_DESC
  /-- R319. -/
  | DMA_ENG_STAT
  /-- R319. -/
  | DMA_ENG_EVT
  /-- R342. -/
  | ACCESS_ERR
  /-- R342. -/
  | ACCESS_ERR_ADDR
  /-- R342. -/
  | ACCESS_ERR_CNT
  /-- R342. -/
  | MSPI_STAT
  /-- R342. -/
  | MSPI_CNT_FRAME
  /-- R342. -/
  | MSPI_CNT_CMD
  /-- R342. -/
  | FENCE
  /-- R342. -/
  | FENCE_DONE
  /-- R362. -/
  | PCIE_STAT
  /-- R362. -/
  | PCIE_EVT
  /-- R362. -/
  | PCIE_CLK_CFG
  /-- R362. -/
  | PCIE_FLR_CFG
  /-- R362. -/
  | PCIE_FOREIGN
  /-- R362. -/
  | PCIE_FOREIGN_ADDR
  /-- R391. -/
  | PAIR_STAT
  /-- R391. -/
  | PAIR_CFG
  /-- R391. -/
  | PAIR_GUARD
  /-- R391. -/
  | PAIR_RESUME
  /-- R391. -/
  | PAIR_NORESUME
  /-- R391. -/
  | PAIR_CMD
  /-- R391. -/
  | PAIR_EVT
  /-- R391. -/
  | PAIR_TAKE
  /-- R391. -/
  | PAIR_TAKE_TIME
  /-- R391. -/
  | PAIR_DIG
  /-- R391. -/
  | PAIR_CNT_DIG_MATCH
  /-- R391. -/
  | PAIR_CNT_DIG_MISMATCH
  /-- R391. -/
  | PAIR_CNT_DIG_SUSP
  /-- R391. -/
  | PAIR_CNT_DIG_MISSING
  /-- R391. -/
  | PAIR_CNT_HB_MISS
  /-- R391. -/
  | PAIR_CNT_LINK_CRC
  /-- R391. -/
  | PAIR_CNT_RETRY
  /-- R391. -/
  | PAIR_CNT_RESUMED
  /-- R391. -/
  | PAIR_CNT_RESUME_CUT
  /-- R391. -/
  | PAIR_JOIN
  /-- R391. -/
  | RMGR_STAT
  /-- R391. -/
  | RMGR_CNT_REFRESH
  /-- R413. -/
  | PWR_STAT
  /-- R413. -/
  | PWR_SUP_CFG
  /-- R413. -/
  | PWR_EVT
  /-- R413. -/
  | PWR_WAKE_CFG
  /-- R413. -/
  | PWR_WAKE_TIMER
  /-- R413. -/
  | PWR_WAKE_STAT
  /-- R413. -/
  | PWR_VIN
  /-- R413. -/
  | CLK_STAT
  /-- R413. -/
  | TNOW
  /-- R429. -/
  | ELOG_WR
  /-- R429. -/
  | ELOG_RD
  /-- R429. -/
  | ELOG_OVF
  /-- R429. -/
  | ELOG_TIME
  /-- R429. -/
  | ELOG_HEAD
  /-- R429. -/
  | ELOG_DETAIL
  /-- R433. -/
  | ID_DEVICE
  /-- R433. -/
  | ID_REV
  /-- R433. -/
  | ID_SERIAL
  /-- R433. -/
  | ID_CAPS
  /-- R433. -/
  | ID_TAP
  /-- R433. -/
  | SCRATCH
  /-- R433. -/
  | DBG_STAT
  deriving DecidableEq, Repr

/-- The fields of the registers: `<register>_<field>`, in the manual's names. -/
inductive Fld where
  /-- R49, bits 15:8. -/
  | WFE_CFG_THR_FLOOR
  /-- R49, bits 6:4. -/
  | WFE_CFG_THR_FRAC
  /-- R49, bits 2. -/
  | WFE_CFG_PULLUP
  /-- R49, bits 1. -/
  | WFE_CFG_INVERT
  /-- R49, bits 0. -/
  | WFE_CFG_MODE
  /-- R49, bits 17. -/
  | WFE_STAT_CLAMP
  /-- R49, bits 16. -/
  | WFE_STAT_ARMED
  /-- R49, bits 15:0. -/
  | WFE_STAT_PEAK
  /-- R49, bits 63:0. -/
  | WFE_STAMP
  /-- R49, bits 31:0. -/
  | WFE_CROSS
  /-- R50, bits 15. -/
  | AD_INPUTS_PH_EN
  /-- R50, bits 13:12. -/
  | AD_INPUTS_PH_EDGE
  /-- R50, bits 10:8. -/
  | AD_INPUTS_PH_WIN
  /-- R50, bits 5:4. -/
  | AD_INPUTS_PRI_EDGE
  /-- R50, bits 2:0. -/
  | AD_INPUTS_PRI_WIN
  /-- R50, bits 3. -/
  | AD_CFG_PHASE_ONLY_EN
  /-- R50, bits 2. -/
  | AD_CFG_WHEEL_ON_CAM
  /-- R50, bits 1. -/
  | AD_CFG_CRITICAL
  /-- R50, bits 0. -/
  | AD_CFG_CYCLE_720
  /-- R50, bits 27:16. -/
  | AD_EDGEF_PH_FILT
  /-- R50, bits 11:0. -/
  | AD_EDGEF_PRI_FILT
  /-- R50, bits 15:8. -/
  | AD_BLANK_PH_BLANK
  /-- R50, bits 7:0. -/
  | AD_BLANK_PRI_BLANK
  /-- R50, bits 31:24. -/
  | AD_MAPCFG_PH_RATIO_TOL
  /-- R50, bits 21:16. -/
  | AD_MAPCFG_PLEN
  /-- R50, bits 9:0. -/
  | AD_MAPCFG_TLEN
  /-- R50, bits 31:0. -/
  | AD_TMAP_OFFSET
  /-- R50, bits 19:16. -/
  | AD_SYNC_CFG_PH_CONFIRM
  /-- R50, bits 11:8. -/
  | AD_SYNC_CFG_PH_FLIP_REVS
  /-- R50, bits 7:0. -/
  | AD_SYNC_CFG_ACQ_CONFIRM
  /-- R50, bits 13:0. -/
  | AD_STALL_STALL_MS
  /-- R50, bits 31:26. -/
  | AD_SYNC_STAT_PH_POS
  /-- R50, bits 25:16. -/
  | AD_SYNC_STAT_POS
  /-- R50, bits 10:8. -/
  | AD_SYNC_STAT_LOSS_CAUSE
  /-- R50, bits 5. -/
  | AD_SYNC_STAT_ANGLE_VALID
  /-- R50, bits 4. -/
  | AD_SYNC_STAT_REV
  /-- R50, bits 3. -/
  | AD_SYNC_STAT_PH_LOCK
  /-- R50, bits 2. -/
  | AD_SYNC_STAT_CRANK_LOCK
  /-- R50, bits 1:0. -/
  | AD_SYNC_STAT_STATE
  /-- R50, bits 1. -/
  | AD_CMD_RESEED
  /-- R50, bits 0. -/
  | AD_CMD_DESYNC
  /-- R50, bits 8. -/
  | AD_FAULT_COARSE
  /-- R50, bits 7. -/
  | AD_FAULT_PH_LOST
  /-- R50, bits 6. -/
  | AD_FAULT_ACQ_RESTART
  /-- R50, bits 5. -/
  | AD_FAULT_MAP_INVALID
  /-- R50, bits 4. -/
  | AD_FAULT_PHASE_MISMATCH
  /-- R50, bits 3. -/
  | AD_FAULT_PHASE_FLIP
  /-- R50, bits 2. -/
  | AD_FAULT_STALL
  /-- R50, bits 1. -/
  | AD_FAULT_MISSING_GAP
  /-- R50, bits 0. -/
  | AD_FAULT_UNEXP_GAP
  /-- R50, bits 31:0. -/
  | AD_CNT_FILT
  /-- R50, bits 31:0. -/
  | AD_CNT_BLANK
  /-- R50, bits 31:0. -/
  | AD_CNT_LOSS
  /-- R50, bits 31:0. -/
  | AD_CNT_PHMIS
  /-- R50, bits 31:0. -/
  | AD_LAST_PERIOD
  /-- R50, bits 15:0. -/
  | AD_LAST_RATIO
  /-- R50, bits 31:0. -/
  | AD_CNT_RESTART
  /-- R76, bits 23:16. -/
  | AD_EST_CFG_JUMP_WARN
  /-- R76, bits 3:0. -/
  | AD_EST_CFG_DEPTH
  /-- R76, bits 31:16. -/
  | AD_EST_COEF_BETA
  /-- R76, bits 15:0. -/
  | AD_EST_COEF_ALPHA
  /-- R76, bits 31:0. -/
  | AD_ANGLE
  /-- R76, bits 15:0. -/
  | AD_ANGLE_FRAC
  /-- R76, bits 31:0. -/
  | AD_RATE
  /-- R76, bits 31:0. -/
  | AD_ACC
  /-- R76, bits 19:0. -/
  | AD_RPM
  /-- R76, bits 31:0. -/
  | AD_PRED
  /-- R76, bits 31:0. -/
  | AD_LAST_ERR
  /-- R76, bits 31:0. -/
  | AD_LAST_JUMP
  /-- R76, bits 31:0. -/
  | AD_CYC
  /-- R76, bits 7:4. -/
  | AD_EST_STAT_HIST
  /-- R76, bits 3. -/
  | AD_EST_STAT_PRED_VALID
  /-- R76, bits 2. -/
  | AD_EST_STAT_PH_SOURCE
  /-- R76, bits 1. -/
  | AD_EST_STAT_EXTRAP
  /-- R76, bits 0. -/
  | AD_EST_STAT_CLAMPED
  /-- R76, bits 2. -/
  | AD_EST_FAULT_WRAPPED
  /-- R76, bits 1. -/
  | AD_EST_FAULT_PRED_LIMIT
  /-- R76, bits 0. -/
  | AD_EST_FAULT_JUMP_WARN
  /-- R76, bits 31:0. -/
  | AD_CNT_CLAMP
  /-- R76, bits 31:0. -/
  | AD_CNT_JUMP
  /-- R76, bits 31:0. -/
  | AD_CNT_JUMP_WARN
  /-- R77, bits 31:16. -/
  | AD_TCL_CFG_ACC_BAND
  /-- R77, bits 11:8. -/
  | AD_TCL_CFG_LEARN_REVS
  /-- R77, bits 4. -/
  | AD_TCL_CFG_GATE_EN
  /-- R77, bits 3. -/
  | AD_TCL_CFG_GATE
  /-- R77, bits 2. -/
  | AD_TCL_CFG_AUTO_SWAP
  /-- R77, bits 1. -/
  | AD_TCL_CFG_APPLY_EN
  /-- R77, bits 0. -/
  | AD_TCL_CFG_LEARN_EN
  /-- R77, bits 15:0. -/
  | AD_TCL_BOUND
  /-- R77, bits 1. -/
  | AD_TCL_CMD_RESTART
  /-- R77, bits 0. -/
  | AD_TCL_CMD_SWAP
  /-- R77, bits 26:16. -/
  | AD_TCL_STAT_REVS_DONE
  /-- R77, bits 3. -/
  | AD_TCL_STAT_WRITING
  /-- R77, bits 2. -/
  | AD_TCL_STAT_BACK_COMPLETE
  /-- R77, bits 1. -/
  | AD_TCL_STAT_SWAP_PENDING
  /-- R77, bits 0. -/
  | AD_TCL_STAT_FRONT
  /-- R77, bits 2. -/
  | AD_TCL_FAULT_SWAP_REFUSED
  /-- R77, bits 1. -/
  | AD_TCL_FAULT_HOST_REJECT
  /-- R77, bits 0. -/
  | AD_TCL_FAULT_OUT_OF_BOUND
  /-- R77, bits 31:0. -/
  | AD_TCL_CNT_SWAP
  /-- R77, bits 31:0. -/
  | AD_TCL_CNT_REJREV
  /-- R108, bits 4. -/
  | SEQ_CTRL_FAULT_HALT
  /-- R108, bits 1:0. -/
  | SEQ_CTRL_DOMAIN
  /-- R108, bits 1. -/
  | SEQ_CMD_RESET
  /-- R108, bits 0. -/
  | SEQ_CMD_START
  /-- R108, bits 15:13. -/
  | SEQ_STAT_STATE
  /-- R108, bits 12. -/
  | SEQ_STAT_BANK
  /-- R108, bits 10:0. -/
  | SEQ_STAT_PC
  /-- R108, bits 26:16. -/
  | SEQ_ENTRY_ENTRY1
  /-- R108, bits 10:0. -/
  | SEQ_ENTRY_ENTRY0
  /-- R108, bits 6. -/
  | SEQ_FAULT_NORATE
  /-- R108, bits 5. -/
  | SEQ_FAULT_DIV0
  /-- R108, bits 4. -/
  | SEQ_FAULT_MAP_ECC
  /-- R108, bits 3. -/
  | SEQ_FAULT_MAP_FMT
  /-- R108, bits 2. -/
  | SEQ_FAULT_ADDR
  /-- R108, bits 1. -/
  | SEQ_FAULT_PROG_ECC
  /-- R108, bits 0. -/
  | SEQ_FAULT_ILLEGAL
  /-- R108, bits 19:16. -/
  | SEQ_FAULT_PC_CAUSE
  /-- R108, bits 12. -/
  | SEQ_FAULT_PC_BANK
  /-- R108, bits 10:0. -/
  | SEQ_FAULT_PC
  /-- R108, bits 31:0. -/
  | SEQ_CNT_CYC
  /-- R108, bits 31:0. -/
  | SEQ_CNT_STALL
  /-- R108, bits 31:0. -/
  | SEQ_CNT_ECC
  /-- R108, bits 31:0. -/
  | SEQ_XREG
  /-- R142, bits 0. -/
  | SEQ_TASK_CFG_OVERRUN_CLEAR
  /-- R142, bits 15:8. -/
  | SEQ_TASK_STAT_COALESCE
  /-- R142, bits 2. -/
  | SEQ_TASK_STAT_TOOTH_PENDING
  /-- R142, bits 1. -/
  | SEQ_TASK_STAT_YIELDED
  /-- R142, bits 0. -/
  | SEQ_TASK_STAT_IN_TASK
  /-- R142, bits 31:0. -/
  | SEQ_BUDGET_ALLOW
  /-- R142, bits 31:0. -/
  | SEQ_TASK_MAX
  /-- R142, bits 6. -/
  | SEQ_TASK_FLT_BAD_WAIT
  /-- R142, bits 5. -/
  | SEQ_TASK_FLT_HANDOVER_FAIL
  /-- R142, bits 4. -/
  | SEQ_TASK_FLT_BAD_CHANNEL
  /-- R142, bits 3. -/
  | SEQ_TASK_FLT_BAD_LIMIT
  /-- R142, bits 2. -/
  | SEQ_TASK_FLT_SLOT_EXHAUST
  /-- R142, bits 1. -/
  | SEQ_TASK_FLT_BUDGET_OVER
  /-- R142, bits 0. -/
  | SEQ_TASK_FLT_OVERRUN
  /-- R142, bits 31:0. -/
  | SEQ_CNT_OVERRUN
  /-- R142, bits 31:0. -/
  | SEQ_CNT_BUDGET
  /-- R142, bits 31:0. -/
  | SEQ_CNT_EXHAUST
  /-- R142, bits 31:0. -/
  | SEQ_CNT_COALESCED
  /-- R142, bits 22:16. -/
  | SEQ_SLOTS_PEAK
  /-- R142, bits 6:0. -/
  | SEQ_SLOTS_IN_USE
  /-- R142, bits 15:0. -/
  | SEQ_FLAGS
  /-- R142, bits 15:0. -/
  | SEQ_FLAGS_SET_FLAGS
  /-- R142, bits 0. -/
  | SEQ_SWAP_REQ
  /-- R142, bits 15:8. -/
  | SEQ_SWAP_STAT_MISSED
  /-- R142, bits 0. -/
  | SEQ_SWAP_STAT_PENDING
  /-- R196, bits 0. -/
  | SEQ_MODECFG_LIMP_CAPABLE
  /-- R196, bits 15:8. -/
  | SEQ_MODE_STAT_APPLY_CNT
  /-- R196, bits 2:0. -/
  | SEQ_MODE_STAT_APPLIED
  /-- R171, bits 31:0. -/
  | SEQ_SLOT_TARGET
  /-- R171, bits 31. -/
  | SEQ_SLOT_STATE_ARMED
  /-- R171, bits 30:27. -/
  | SEQ_SLOT_STATE_KIND
  /-- R171, bits 26:18. -/
  | SEQ_SLOT_STATE_ARG
  /-- R171, bits 17:15. -/
  | SEQ_SLOT_STATE_FRAC
  /-- R171, bits 14:7. -/
  | SEQ_SLOT_STATE_GEN
  /-- R171, bits 5:0. -/
  | SEQ_SLOT_STATE_PARTNER
  /-- R108, bits 31:0. -/
  | MAPM_ECC_CNT_CORR
  /-- R108, bits 17:0. -/
  | MAPM_ECC_ADDR
  /-- R170, bits 7. -/
  | OUT_OWNER_OWNED
  /-- R170, bits 4:0. -/
  | OUT_OWNER_SEQ
  /-- R170, bits 4. -/
  | OUT_POLICY_EMIT_MIN
  /-- R170, bits 0. -/
  | OUT_POLICY_END
  /-- R170, bits 23:0. -/
  | OUT_CAP_COMPLETE_CAP
  /-- R170, bits 31:16. -/
  | OUT_STAT_LATE_SKIP
  /-- R170, bits 5. -/
  | OUT_STAT_OWN_CANCEL
  /-- R170, bits 4. -/
  | OUT_STAT_COMPLETING
  /-- R170, bits 3. -/
  | OUT_STAT_HELD
  /-- R170, bits 2. -/
  | OUT_STAT_DRIVING
  /-- R170, bits 1. -/
  | OUT_STAT_INHIBIT
  /-- R170, bits 0. -/
  | OUT_STAT_LEVEL
  /-- R170, bits 31:0. -/
  | OUT_CNT_EDGES
  /-- R170, bits 31:0. -/
  | OUT_CNT_STRETCH
  /-- R170, bits 31:0. -/
  | OUT_CNT_INHIBIT
  /-- R170, bits 63:1. -/
  | OUT_LAST_EDGE_STAMP
  /-- R170, bits 0. -/
  | OUT_LAST_EDGE_RISING
  /-- R172, bits 31. -/
  | SVC_CFG_EN
  /-- R172, bits 30. -/
  | SVC_CFG_REPEAT
  /-- R172, bits 29:28. -/
  | SVC_CFG_ACT
  /-- R172, bits 27:26. -/
  | SVC_CFG_DOMAIN
  /-- R172, bits 8:0. -/
  | SVC_CFG_BASIN
  /-- R172, bits 31:0. -/
  | SVC_TARGET
  /-- R172, bits 31:0. -/
  | SVC_STAMP
  /-- R172, bits 25. -/
  | SPILL_STAT_DEN_OK
  /-- R172, bits 24. -/
  | SPILL_STAT_DEVICE_HOLD
  /-- R172, bits 19:16. -/
  | SPILL_STAT_DOMAIN_HOLD
  /-- R172, bits 3:0. -/
  | SPILL_STAT_LAST_PATH
  /-- R172, bits 31:0. -/
  | SPILL_CNT
  /-- R172, bits 63:0. -/
  | SPILL_LAST_TNOW
  /-- R172, bits 15:0. -/
  | OUT_DELAY
  /-- R195, bits 12. -/
  | MODE_REQ_IMMEDIATE
  /-- R195, bits 9:8. -/
  | MODE_REQ_DOMAIN
  /-- R195, bits 2:0. -/
  | MODE_REQ_TARGET
  /-- R195, bits 31:0. -/
  | MODE_EPOCH_ANGLE
  /-- R195, bits 19:16. -/
  | MODE_STAT_CLEAR_CAUSE
  /-- R195, bits 10:8. -/
  | MODE_STAT_TARGET
  /-- R195, bits 5. -/
  | MODE_STAT_EPOCH_PENDING
  /-- R195, bits 4. -/
  | MODE_STAT_TRANSITION
  /-- R195, bits 2:0. -/
  | MODE_STAT_MODE
  /-- R195, bits 23:0. -/
  | MODE_APPLIED
  /-- R195, bits 23:0. -/
  | MODE_LAG
  /-- R195, bits 31:24. -/
  | MODE_CFG_RUN_REVS
  /-- R195, bits 23:16. -/
  | MODE_CFG_LIMP_TEETH
  /-- R195, bits 11:8. -/
  | MODE_CFG_TIMEOUT_CYC
  /-- R195, bits 3:2. -/
  | MODE_CFG_EPOCH_DOM
  /-- R195, bits 1. -/
  | MODE_CFG_LIMP_EN
  /-- R195, bits 0. -/
  | MODE_CFG_AUTO_RUN
  /-- R195, bits 13:0. -/
  | MODE_TMO_TIMEOUT_MS
  /-- R195, bits 4. -/
  | MODE_FAULT_SUPERSEDED
  /-- R195, bits 3. -/
  | MODE_FAULT_EPOCH_LOST
  /-- R195, bits 2. -/
  | MODE_FAULT_TIMEOUT
  /-- R195, bits 1. -/
  | MODE_FAULT_EPOCH_INVALID
  /-- R195, bits 0. -/
  | MODE_FAULT_REFUSED
  /-- R195, bits 31:0. -/
  | MODE_CNT_TRANS
  /-- R227, bits 31. -/
  | ADC_CFG_EN
  /-- R227, bits 30. -/
  | ADC_CFG_ILV
  /-- R227, bits 3:0. -/
  | ADC_CFG_LEN_M1
  /-- R227, bits 2. -/
  | ADC_CMD_FLT_RESET
  /-- R227, bits 1. -/
  | ADC_CMD_CAL
  /-- R227, bits 0. -/
  | ADC_CMD_COMMIT
  /-- R227, bits 7. -/
  | ADC_STAT_SETTLE_DROP
  /-- R227, bits 6. -/
  | ADC_STAT_FLT_SAT
  /-- R227, bits 5. -/
  | ADC_STAT_COMMIT_REFUSED
  /-- R227, bits 4. -/
  | ADC_STAT_CAL_FAIL
  /-- R227, bits 3. -/
  | ADC_STAT_ILV_ACTIVE
  /-- R227, bits 2. -/
  | ADC_STAT_CAL_BUSY
  /-- R227, bits 1. -/
  | ADC_STAT_COMMIT_PENDING
  /-- R227, bits 0. -/
  | ADC_STAT_RUNNING
  /-- R227, bits 15:0. -/
  | ADC_ILV_SKEW
  /-- R227, bits 6:0. -/
  | ADC_SEQ_SRC
  /-- R227, bits 1. -/
  | ADC_FLT_CFG_BQ1_EN
  /-- R227, bits 0. -/
  | ADC_FLT_CFG_BQ0_EN
  /-- R227, bits 23:0. -/
  | ADC_COEF
  /-- R227, bits 1. -/
  | AIN_CFG_AAF
  /-- R227, bits 0. -/
  | AIN_CFG_RANGE
  /-- R228, bits 31. -/
  | BAS_CFG_EN
  /-- R228, bits 30:28. -/
  | BAS_CFG_MODE
  /-- R228, bits 27:26. -/
  | BAS_CFG_DOMAIN
  /-- R228, bits 25. -/
  | BAS_CFG_WIN_SRC
  /-- R228, bits 24:21. -/
  | BAS_CFG_PWM_SEL
  /-- R228, bits 20. -/
  | BAS_CFG_IRQ
  /-- R228, bits 19. -/
  | BAS_CFG_FEED_EN
  /-- R228, bits 18:17. -/
  | BAS_CFG_FEED
  /-- R228, bits 15:10. -/
  | BAS_CFG_SHIFT
  /-- R228, bits 9. -/
  | BAS_CFG_TAP
  /-- R228, bits 8:4. -/
  | BAS_CFG_CONV
  /-- R228, bits 3:0. -/
  | BAS_CFG_ENTRY
  /-- R228, bits 31:0. -/
  | BAS_WOFFSET
  /-- R228, bits 17:0. -/
  | BAS_THR
  /-- R228, bits 2. -/
  | BAS_CMD_CLOSE_OPEN
  /-- R228, bits 1. -/
  | BAS_CMD_CLOSE
  /-- R228, bits 0. -/
  | BAS_CMD_OPEN
  /-- R228, bits 15:8. -/
  | BAS_STAT_SEQ
  /-- R228, bits 5. -/
  | BAS_STAT_REFUSED
  /-- R228, bits 4. -/
  | BAS_STAT_DUP
  /-- R228, bits 3. -/
  | BAS_STAT_OVF
  /-- R228, bits 2. -/
  | BAS_STAT_ABORTED
  /-- R228, bits 1. -/
  | BAS_STAT_LATE_READ
  /-- R228, bits 0. -/
  | BAS_STAT_OPEN
  /-- R228, bits 31:0. -/
  | BAS_CNT_LATE
  /-- R228, bits 31:0. -/
  | BAS_CNT_ABORT
  /-- R228, bits 63:0. -/
  | BAS_VALUE
  /-- R228, bits 31:0. -/
  | BAS_SAMPLES
  /-- R228, bits 31:24. -/
  | BAS_TAG_CYC
  /-- R228, bits 23:16. -/
  | BAS_TAG_SEQ
  /-- R228, bits 10. -/
  | BAS_TAG_LATE
  /-- R228, bits 9. -/
  | BAS_TAG_OVF
  /-- R228, bits 8:0. -/
  | BAS_TAG_BASIN
  /-- R228, bits 31. -/
  | TRK_CFG_EN
  /-- R228, bits 30:29. -/
  | TRK_CFG_MODE
  /-- R228, bits 27:26. -/
  | TRK_CFG_DOMAIN
  /-- R228, bits 24:16. -/
  | TRK_CFG_BASIN
  /-- R228, bits 9. -/
  | TRK_CFG_TAP
  /-- R228, bits 8:4. -/
  | TRK_CFG_CONV
  /-- R228, bits 3:0. -/
  | TRK_CFG_ENTRY
  /-- R228, bits 31:0. -/
  | TRK_MAX
  /-- R228, bits 31:0. -/
  | TRK_MAX_ANG
  /-- R228, bits 31:0. -/
  | TRK_MIN
  /-- R228, bits 31:0. -/
  | TRK_MIN_ANG
  /-- R228, bits 31:24. -/
  | TRK_TAG_CYC
  /-- R228, bits 23:16. -/
  | TRK_TAG_SEQ
  /-- R228, bits 1. -/
  | TRK_TAG_ANG_INVALID
  /-- R228, bits 0. -/
  | TRK_TAG_EMPTY
  /-- R228, bits 63:0. -/
  | BAS_FEED_DATA
  /-- R228, bits 9. -/
  | BAS_FEED_STAT_UNDERRUN
  /-- R228, bits 8. -/
  | BAS_FEED_STAT_OVF
  /-- R228, bits 6:0. -/
  | BAS_FEED_STAT_LEVEL
  /-- R228, bits 31:0. -/
  | BAS_FEED_CNT_DROP
  /-- R228, bits 31:0. -/
  | BAS_CLOSED
  /-- R228, bits 0. -/
  | WT_CMD_SWAP
  /-- R228, bits 8. -/
  | WT_STAT_REJECT
  /-- R228, bits 2. -/
  | WT_STAT_SETTLING
  /-- R228, bits 1. -/
  | WT_STAT_SWAP_PENDING
  /-- R228, bits 0. -/
  | WT_STAT_FRONT
  /-- R243, bits 23:16. -/
  | CMP_CFG_FILT
  /-- R243, bits 12. -/
  | CMP_CFG_WIN_EN
  /-- R243, bits 9:8. -/
  | CMP_CFG_HYST
  /-- R243, bits 7. -/
  | CMP_CFG_INVERT
  /-- R243, bits 6:0. -/
  | CMP_CFG_SEL
  /-- R243, bits 10. -/
  | CMP_DAC_RANGE
  /-- R243, bits 9:0. -/
  | CMP_DAC_CODE
  /-- R243, bits 11. -/
  | CMP_ROUTE_TRIP_EN
  /-- R243, bits 10:8. -/
  | CMP_ROUTE_TRIP
  /-- R243, bits 4. -/
  | CMP_ROUTE_SRC_WIN
  /-- R243, bits 1. -/
  | CMP_ROUTE_IRQ_FALL
  /-- R243, bits 0. -/
  | CMP_ROUTE_IRQ_RISE
  /-- R243, bits 6. -/
  | CMP_STAT_WIN_BAD
  /-- R243, bits 5. -/
  | CMP_STAT_FALL
  /-- R243, bits 4. -/
  | CMP_STAT_RISE
  /-- R243, bits 3. -/
  | CMP_STAT_HOLD
  /-- R243, bits 2. -/
  | CMP_STAT_OUTSIDE
  /-- R243, bits 1. -/
  | CMP_STAT_VALID
  /-- R243, bits 0. -/
  | CMP_STAT_OUT
  /-- R243, bits 31:0. -/
  | CMP_CNT_EDGES
  /-- R263, bits 31. -/
  | PWM_CTRL_EN
  /-- R263, bits 30. -/
  | PWM_CTRL_LOCK
  /-- R263, bits 29. -/
  | PWM_CTRL_LOAD_MID
  /-- R263, bits 28. -/
  | PWM_CTRL_UPDOWN
  /-- R263, bits 27. -/
  | PWM_CTRL_COMPL
  /-- R263, bits 26. -/
  | PWM_CTRL_CLEAR_TRIP
  /-- R263, bits 7:0. -/
  | PWM_CTRL_TRIP_MASK
  /-- R263, bits 19:0. -/
  | PWM_PERIOD
  /-- R263, bits 19:0. -/
  | PWM_CMPA
  /-- R263, bits 19:0. -/
  | PWM_CMPB
  /-- R263, bits 19:0. -/
  | PWM_MARK1
  /-- R263, bits 19:0. -/
  | PWM_MARK2
  /-- R263, bits 9:0. -/
  | PWM_DEADTIME
  /-- R263, bits 3:2. -/
  | PWM_FORCE_FB
  /-- R263, bits 1:0. -/
  | PWM_FORCE_FA
  /-- R263, bits 11. -/
  | PWM_OUTCFG_OE_B
  /-- R263, bits 10. -/
  | PWM_OUTCFG_POL_B
  /-- R263, bits 9. -/
  | PWM_OUTCFG_LEVEL_B
  /-- R263, bits 8. -/
  | PWM_OUTCFG_OD_B
  /-- R263, bits 3. -/
  | PWM_OUTCFG_OE_A
  /-- R263, bits 2. -/
  | PWM_OUTCFG_POL_A
  /-- R263, bits 1. -/
  | PWM_OUTCFG_LEVEL_A
  /-- R263, bits 0. -/
  | PWM_OUTCFG_OD_A
  /-- R263, bits 1. -/
  | PWM_CMD_TRIP_SW
  /-- R263, bits 0. -/
  | PWM_CMD_TRIP_CLR
  /-- R263, bits 31:24. -/
  | PWM_STAT_TRIP_CH
  /-- R263, bits 11. -/
  | PWM_STAT_BY_CLEARING
  /-- R263, bits 10. -/
  | PWM_STAT_BY_SW
  /-- R263, bits 8. -/
  | PWM_STAT_SHORT_B
  /-- R263, bits 7. -/
  | PWM_STAT_SHORT_A
  /-- R263, bits 6. -/
  | PWM_STAT_FORCE_BAD
  /-- R263, bits 5. -/
  | PWM_STAT_CLR_REFUSED
  /-- R263, bits 4. -/
  | PWM_STAT_RUNNING
  /-- R263, bits 0. -/
  | PWM_STAT_TRIPPED
  /-- R263, bits 20. -/
  | PWM_COUNT_DOWN
  /-- R263, bits 19:0. -/
  | PWM_COUNT
  /-- R263, bits 31:0. -/
  | PWM_CNT_TRIP
  /-- R264, bits 15:0. -/
  | PWM_SYNC_RESTART
  /-- R264, bits 17. -/
  | TRIP_CFG_PIN_EN
  /-- R264, bits 16. -/
  | TRIP_CFG_PIN_INV
  /-- R264, bits 9:0. -/
  | TRIP_CFG_FILT
  /-- R264, bits 23:16. -/
  | TRIP_STAT_PIN
  /-- R264, bits 15:8. -/
  | TRIP_STAT_RAW
  /-- R264, bits 7:0. -/
  | TRIP_STAT_FILTERED
  /-- R288, bits 31. -/
  | IOE_CTRL_EN
  /-- R288, bits 19:16. -/
  | IOE_CTRL_OUT_DEPTH
  /-- R288, bits 14:12. -/
  | IOE_CTRL_GRP
  /-- R288, bits 5:0. -/
  | IOE_CTRL_ENTRY
  /-- R288, bits 0. -/
  | IOE_CMD_RESET
  /-- R288, bits 31:24. -/
  | IOE_STAT_POST_CNT
  /-- R288, bits 23:18. -/
  | IOE_STAT_SC
  /-- R288, bits 16. -/
  | IOE_STAT_INJ_PENDING
  /-- R288, bits 15. -/
  | IOE_STAT_TO
  /-- R288, bits 10:8. -/
  | IOE_STAT_STATE
  /-- R288, bits 5:0. -/
  | IOE_STAT_PC
  /-- R288, bits 10. -/
  | IOE_EVT_ILLEGAL
  /-- R288, bits 9. -/
  | IOE_EVT_IRQ
  /-- R288, bits 8. -/
  | IOE_EVT_LATE
  /-- R288, bits 7. -/
  | IOE_EVT_EDGE_OVR
  /-- R288, bits 6. -/
  | IOE_EVT_INJ_REFUSED
  /-- R288, bits 5. -/
  | IOE_EVT_INJ_LOST
  /-- R288, bits 4. -/
  | IOE_EVT_PIN_DENIED
  /-- R288, bits 3. -/
  | IOE_EVT_IN_UNDER
  /-- R288, bits 2. -/
  | IOE_EVT_IN_OVF
  /-- R288, bits 1. -/
  | IOE_EVT_OUT_UNDER
  /-- R288, bits 0. -/
  | IOE_EVT_OUT_OVF
  /-- R288, bits 15:0. -/
  | IOE_CLKDIV_DIV
  /-- R288, bits 31:0. -/
  | IOE_INJECT
  /-- R288, bits 7:0. -/
  | IOE_FLAGS
  /-- R288, bits 7:0. -/
  | IOE_FLAGS_SET_FLAGS
  /-- R288, bits 31:0. -/
  | IOE_CONST_K
  /-- R288, bits 31:24. -/
  | IOE_CRC_CFG_SEED
  /-- R288, bits 23:16. -/
  | IOE_CRC_CFG_VALUE
  /-- R288, bits 15:8. -/
  | IOE_CRC_CFG_POLY
  /-- R288, bits 3:0. -/
  | IOE_CRC_CFG_WIDTH
  /-- R288, bits 23:0. -/
  | IOE_POST_MASK
  /-- R288, bits 9:0. -/
  | IOE_POST_WORD
  /-- R288, bits 31:0. -/
  | IOE_QOUT
  /-- R288, bits 31:0. -/
  | IOE_QIN
  /-- R288, bits 11:8. -/
  | IOE_QSTAT_OUT_LEVEL
  /-- R288, bits 3:0. -/
  | IOE_QSTAT_IN_LEVEL
  /-- R288, bits 31:0. -/
  | IOE_CA
  /-- R288, bits 31:0. -/
  | IOE_CB
  /-- R288, bits 31:0. -/
  | IOE_SH
  /-- R288, bits 31:0. -/
  | IOE_TT
  /-- R288, bits 31:0. -/
  | IOE_UNIT
  /-- R288, bits 31. -/
  | GIO_CFG_OWNED
  /-- R288, bits 27:24. -/
  | GIO_CFG_ENGINE
  /-- R288, bits 17:16. -/
  | GIO_CFG_PULL
  /-- R288, bits 15. -/
  | GIO_CFG_OD
  /-- R288, bits 7:0. -/
  | GIO_CFG_FILT
  /-- R288, bits 31:0. -/
  | GIO_IN_LEVEL
  /-- R288, bits 18:16. -/
  | IOE_GROUP_CMD_GRP
  /-- R288, bits 1. -/
  | IOE_GROUP_CMD_REPHASE
  /-- R288, bits 0. -/
  | IOE_GROUP_CMD_START
  /-- R300, bits 18:16. -/
  | ICU_TGT_TYPE
  /-- R300, bits 13:12. -/
  | ICU_TGT_PRI
  /-- R300, bits 5:0. -/
  | ICU_TGT_IDX
  /-- R300, bits 31:0. -/
  | ICU_RAW_LEVEL
  /-- R300, bits 1:0. -/
  | ICU_INT_CFG_MINPRI
  /-- R300, bits 16. -/
  | ICU_INT_TOP_ASSERTED
  /-- R300, bits 13:12. -/
  | ICU_INT_TOP_PRI
  /-- R300, bits 8:0. -/
  | ICU_INT_TOP_SRC
  /-- R300, bits 1. -/
  | ICU_PLAT_EVT_SPILL
  /-- R300, bits 0. -/
  | ICU_PLAT_EVT_MODE_DONE
  /-- R300, bits 31:0. -/
  | ICU_MARK
  /-- R300, bits 31:0. -/
  | ICU_SWI
  /-- R300, bits 31:0. -/
  | ICU_SWI_SET_SWI
  /-- R300, bits 4. -/
  | ICU_FAULT_TGT_BAD
  /-- R300, bits 3:0. -/
  | ICU_FAULT_SPURIOUS_EOI
  /-- R300, bits 31:0. -/
  | ICU_CNT_MSG_CNT
  /-- R319, bits 31. -/
  | DMA_CH_CFG_EN
  /-- R319, bits 30. -/
  | DMA_CH_CFG_MODE
  /-- R319, bits 29. -/
  | DMA_CH_CFG_NOSNOOP
  /-- R319, bits 28. -/
  | DMA_CH_CFG_PRI
  /-- R319, bits 18:17. -/
  | DMA_CH_CFG_FEED
  /-- R319, bits 14:8. -/
  | DMA_CH_CFG_QUOTA
  /-- R319, bits 1. -/
  | DMA_CH_CMD_SKIP
  /-- R319, bits 0. -/
  | DMA_CH_CMD_ABORT
  /-- R319, bits 63:5. -/
  | DMA_CH_RING
  /-- R319, bits 3:0. -/
  | DMA_CH_SIZE
  /-- R319, bits 11:0. -/
  | DMA_CH_HEAD
  /-- R319, bits 11:0. -/
  | DMA_CH_TAIL
  /-- R319, bits 30:28. -/
  | DMA_CH_STAT_LAST_RESULT
  /-- R319, bits 2:0. -/
  | DMA_CH_STAT_STATE
  /-- R319, bits 2. -/
  | DMA_CH_EVT_BIND_BAD
  /-- R319, bits 1. -/
  | DMA_CH_EVT_ERR
  /-- R319, bits 0. -/
  | DMA_CH_EVT_DONE
  /-- R319, bits 63:4. -/
  | DMA_CH_RBASE
  /-- R319, bits 3:0. -/
  | DMA_CH_RSIZE
  /-- R319, bits 11:0. -/
  | DMA_CH_WR
  /-- R319, bits 11:0. -/
  | DMA_CH_RD
  /-- R319, bits 63:3. -/
  | DMA_CH_WRPTR_ADDR
  /-- R319, bits 0. -/
  | DMA_CH_WRPTR_ADDR_EN
  /-- R319, bits 31:0. -/
  | DMA_CH_CNT_BYTES
  /-- R319, bits 31:0. -/
  | DMA_CH_CNT_DESC
  /-- R319, bits 21:16. -/
  | DMA_ENG_STAT_TAGS
  /-- R319, bits 6:0. -/
  | DMA_ENG_STAT_QUOTA_SUM
  /-- R319, bits 1. -/
  | DMA_ENG_EVT_BME_OFF
  /-- R319, bits 0. -/
  | DMA_ENG_EVT_QUOTA_BAD
  /-- R342, bits 31. -/
  | ACCESS_ERR_VALID
  /-- R342, bits 30. -/
  | ACCESS_ERR_LOST
  /-- R342, bits 23:18. -/
  | ACCESS_ERR_SRC
  /-- R342, bits 15:12. -/
  | ACCESS_ERR_KIND
  /-- R342, bits 11:8. -/
  | ACCESS_ERR_BE
  /-- R342, bits 0. -/
  | ACCESS_ERR_WRITE
  /-- R342, bits 23:0. -/
  | ACCESS_ERR_ADDR_OFFSET
  /-- R342, bits 31:0. -/
  | ACCESS_ERR_CNT
  /-- R342, bits 1:0. -/
  | MSPI_STAT_LAST_CAUSE
  /-- R342, bits 31:0. -/
  | MSPI_CNT_FRAME
  /-- R342, bits 31:0. -/
  | MSPI_CNT_CMD
  /-- R342, bits 15:0. -/
  | FENCE_TOKEN
  /-- R342, bits 15:0. -/
  | FENCE_DONE
  /-- R362, bits 20. -/
  | PCIE_STAT_HO_ACTIVE
  /-- R362, bits 19:16. -/
  | PCIE_STAT_FLR_PENDING
  /-- R362, bits 9. -/
  | PCIE_STAT_CLK_SEP
  /-- R362, bits 8. -/
  | PCIE_STAT_LINK_UP
  /-- R362, bits 5:4. -/
  | PCIE_STAT_WIDTH
  /-- R362, bits 2:0. -/
  | PCIE_STAT_SPEED
  /-- R362, bits 9. -/
  | PCIE_EVT_FOREIGN
  /-- R362, bits 8. -/
  | PCIE_EVT_HO_FALLBACK
  /-- R362, bits 7:4. -/
  | PCIE_EVT_FLR_DONE
  /-- R362, bits 1. -/
  | PCIE_EVT_LINK_UP
  /-- R362, bits 0. -/
  | PCIE_EVT_LINK_DOWN
  /-- R362, bits 1:0. -/
  | PCIE_CLK_CFG_SEL
  /-- R362, bits 31. -/
  | PCIE_FLR_CFG_HO_EN
  /-- R362, bits 6:0. -/
  | PCIE_FLR_CFG_HO_MS
  /-- R362, bits 31:0. -/
  | PCIE_FOREIGN_CNT
  /-- R362, bits 31. -/
  | PCIE_FOREIGN_ADDR_WRITE
  /-- R362, bits 25:24. -/
  | PCIE_FOREIGN_ADDR_FUNC
  /-- R362, bits 23:0. -/
  | PCIE_FOREIGN_ADDR_OFFSET
  /-- R391, bits 26:24. -/
  | PAIR_STAT_PARTNER_STATE
  /-- R391, bits 18:16. -/
  | PAIR_STAT_SLOT
  /-- R391, bits 12. -/
  | PAIR_STAT_PRESENT
  /-- R391, bits 11. -/
  | PAIR_STAT_PEER_DEN_OK
  /-- R391, bits 10. -/
  | PAIR_STAT_PEER_LEAD
  /-- R391, bits 9. -/
  | PAIR_STAT_LINK_UP
  /-- R391, bits 8. -/
  | PAIR_STAT_ROLE
  /-- R391, bits 2:0. -/
  | PAIR_STAT_STATE
  /-- R391, bits 31. -/
  | PAIR_CFG_JOIN_EN
  /-- R391, bits 30. -/
  | PAIR_CFG_FORCE_EN
  /-- R391, bits 29. -/
  | PAIR_CFG_DEN_HOLD
  /-- R391, bits 23:16. -/
  | PAIR_CFG_IDLE_WAIT_MS
  /-- R391, bits 15:12. -/
  | PAIR_CFG_JOIN_CYC
  /-- R391, bits 4:0. -/
  | PAIR_CFG_DIG_SHIFT
  /-- R391, bits 15:0. -/
  | PAIR_GUARD_HO_GUARD
  /-- R391, bits 23:0. -/
  | PAIR_RESUME_RESUME_MIN
  /-- R391, bits 31:0. -/
  | PAIR_NORESUME
  /-- R391, bits 1. -/
  | PAIR_CMD_JOIN_ABORT
  /-- R391, bits 0. -/
  | PAIR_CMD_HANDOVER
  /-- R391, bits 7:0. -/
  | PAIR_EVT
  /-- R391, bits 31. -/
  | PAIR_TAKE_TOOK
  /-- R391, bits 27:24. -/
  | PAIR_TAKE_CAUSE
  /-- R391, bits 63:0. -/
  | PAIR_TAKE_TIME_TNOW
  /-- R391, bits 31:16. -/
  | PAIR_DIG_CYC
  /-- R391, bits 15:6. -/
  | PAIR_DIG_POS
  /-- R391, bits 5. -/
  | PAIR_DIG_MISSING
  /-- R391, bits 4. -/
  | PAIR_DIG_SLOTS
  /-- R391, bits 3. -/
  | PAIR_DIG_LEVELS
  /-- R391, bits 2. -/
  | PAIR_DIG_POSITION
  /-- R391, bits 1:0. -/
  | PAIR_DIG_DOMAIN
  /-- R391, bits 31:0. -/
  | PAIR_CNT_DIG_MATCH
  /-- R391, bits 31:0. -/
  | PAIR_CNT_DIG_MISMATCH
  /-- R391, bits 31:0. -/
  | PAIR_CNT_DIG_SUSP
  /-- R391, bits 31:0. -/
  | PAIR_CNT_DIG_MISSING
  /-- R391, bits 31:0. -/
  | PAIR_CNT_HB_MISS
  /-- R391, bits 31:0. -/
  | PAIR_CNT_LINK_CRC
  /-- R391, bits 31:0. -/
  | PAIR_CNT_RETRY
  /-- R391, bits 31:0. -/
  | PAIR_CNT_RESUMED
  /-- R391, bits 31:0. -/
  | PAIR_CNT_RESUME_CUT
  /-- R391, bits 10:0. -/
  | PAIR_JOIN_KIB
  /-- R391, bits 16:8. -/
  | RMGR_STAT_SRC
  /-- R391, bits 2:0. -/
  | RMGR_STAT_HEALTH
  /-- R391, bits 31:0. -/
  | RMGR_CNT_REFRESH_CNT
  /-- R413, bits 11:8. -/
  | PWR_STAT_SUP_LIMIT
  /-- R413, bits 7:4. -/
  | PWR_STAT_SUP_OFF
  /-- R413, bits 3:0. -/
  | PWR_STAT_SUP_ON
  /-- R413, bits 7:4. -/
  | PWR_SUP_CFG_DORMANT_ON
  /-- R413, bits 3:0. -/
  | PWR_SUP_CFG_EN
  /-- R413, bits 5. -/
  | PWR_EVT_WOKE
  /-- R413, bits 4. -/
  | PWR_EVT_CLK_FAIL
  /-- R413, bits 3:0. -/
  | PWR_EVT_SUP_FAULT
  /-- R413, bits 31. -/
  | PWR_WAKE_CFG_TIMER_EN
  /-- R413, bits 30. -/
  | PWR_WAKE_CFG_PIN_EN
  /-- R413, bits 19:16. -/
  | PWR_WAKE_CFG_THR
  /-- R413, bits 7:0. -/
  | PWR_WAKE_CFG_WIN_MASK
  /-- R413, bits 15:0. -/
  | PWR_WAKE_TIMER_SECONDS
  /-- R413, bits 11. -/
  | PWR_WAKE_STAT_DURING_ENTRY
  /-- R413, bits 10:8. -/
  | PWR_WAKE_STAT_CAUSE
  /-- R413, bits 2:0. -/
  | PWR_WAKE_STAT_WIN
  /-- R413, bits 15:0. -/
  | PWR_VIN
  /-- R413, bits 10:8. -/
  | CLK_STAT_LAST_FAIL
  /-- R413, bits 4. -/
  | CLK_STAT_MON_OK
  /-- R413, bits 3. -/
  | CLK_STAT_PER_LOCK
  /-- R413, bits 2. -/
  | CLK_STAT_SEQ_LOCK
  /-- R413, bits 1. -/
  | CLK_STAT_EV_LOCK
  /-- R413, bits 0. -/
  | CLK_STAT_REF_OK
  /-- R413, bits 63:0. -/
  | TNOW
  /-- R429, bits 15:0. -/
  | ELOG_WR
  /-- R429, bits 15:0. -/
  | ELOG_RD
  /-- R429, bits 15:0. -/
  | ELOG_OVF
  /-- R429, bits 63:0. -/
  | ELOG_TIME
  /-- R429, bits 31:24. -/
  | ELOG_HEAD_CODE
  /-- R429, bits 23:16. -/
  | ELOG_HEAD_INDEX
  /-- R429, bits 10:8. -/
  | ELOG_HEAD_MODE
  /-- R429, bits 7:0. -/
  | ELOG_HEAD_SUB
  /-- R429, bits 31:0. -/
  | ELOG_DETAIL
  /-- R433, bits 31:0. -/
  | ID_DEVICE
  /-- R433, bits 15:8. -/
  | ID_REV_MAJOR
  /-- R433, bits 7:0. -/
  | ID_REV_MINOR
  /-- R433, bits 63:0. -/
  | ID_SERIAL
  /-- R433, bits 31:24. -/
  | ID_CAPS_SEQS
  /-- R433, bits 23:16. -/
  | ID_CAPS_OUTS
  /-- R433, bits 15:8. -/
  | ID_CAPS_ADCS
  /-- R433, bits 7:4. -/
  | ID_CAPS_DOMAINS
  /-- R433, bits 31:28. -/
  | ID_TAP_VERSION
  /-- R433, bits 27:12. -/
  | ID_TAP_PART
  /-- R433, bits 11:1. -/
  | ID_TAP_MANUF
  /-- R433, bits 0. -/
  | ID_TAP_ONE
  /-- R433, bits 31:0. -/
  | SCRATCH
  /-- R433, bits 1. -/
  | DBG_STAT_CLK_STOPPED
  /-- R433, bits 0. -/
  | DBG_STAT_HALTED
  deriving DecidableEq, Repr

/-- What a table of the manual says of one field. -/
structure FldInfo where
  /-- The register the field lies in. -/
  reg : Reg
  /-- Its highest bit; in a 64-bit pair, bit 32 is bit 0 of the high word. -/
  hi : Nat
  /-- Its lowest bit. -/
  lo : Nat
  /-- Its access code, R5. -/
  acc : Acc
  /-- Its value after power-on reset. -/
  reset : Nat
  /-- Whether a function reset leaves it unchanged, R8. -/
  keep : Bool
  deriving DecidableEq, Repr

/-- The table entry of a field. -/
def Fld.info : Fld → FldInfo
  | .WFE_CFG_THR_FLOOR => ⟨.WFE_CFG, 15, 8, .rwl, 0xa, false⟩
  | .WFE_CFG_THR_FRAC => ⟨.WFE_CFG, 6, 4, .rwl, 1, false⟩
  | .WFE_CFG_PULLUP => ⟨.WFE_CFG, 2, 2, .rwl, 0, false⟩
  | .WFE_CFG_INVERT => ⟨.WFE_CFG, 1, 1, .rwl, 0, false⟩
  | .WFE_CFG_MODE => ⟨.WFE_CFG, 0, 0, .rwl, 0, false⟩
  | .WFE_STAT_CLAMP => ⟨.WFE_STAT, 17, 17, .ro, 0, false⟩
  | .WFE_STAT_ARMED => ⟨.WFE_STAT, 16, 16, .ro, 0, false⟩
  | .WFE_STAT_PEAK => ⟨.WFE_STAT, 15, 0, .ro, 0, false⟩
  | .WFE_STAMP => ⟨.WFE_STAMP, 63, 0, .ro, 0, false⟩
  | .WFE_CROSS => ⟨.WFE_CROSS, 31, 0, .rc, 0, false⟩
  | .AD_INPUTS_PH_EN => ⟨.AD_INPUTS, 15, 15, .rwl, 0, false⟩
  | .AD_INPUTS_PH_EDGE => ⟨.AD_INPUTS, 13, 12, .rwl, 0, false⟩
  | .AD_INPUTS_PH_WIN => ⟨.AD_INPUTS, 10, 8, .rwl, 1, false⟩
  | .AD_INPUTS_PRI_EDGE => ⟨.AD_INPUTS, 5, 4, .rwl, 0, false⟩
  | .AD_INPUTS_PRI_WIN => ⟨.AD_INPUTS, 2, 0, .rwl, 0, false⟩
  | .AD_CFG_PHASE_ONLY_EN => ⟨.AD_CFG, 3, 3, .rwl, 0, false⟩
  | .AD_CFG_WHEEL_ON_CAM => ⟨.AD_CFG, 2, 2, .rwl, 0, false⟩
  | .AD_CFG_CRITICAL => ⟨.AD_CFG, 1, 1, .rwl, 1, false⟩
  | .AD_CFG_CYCLE_720 => ⟨.AD_CFG, 0, 0, .rwl, 1, false⟩
  | .AD_EDGEF_PH_FILT => ⟨.AD_EDGEF, 27, 16, .rwl, 0, false⟩
  | .AD_EDGEF_PRI_FILT => ⟨.AD_EDGEF, 11, 0, .rwl, 0, false⟩
  | .AD_BLANK_PH_BLANK => ⟨.AD_BLANK, 15, 8, .rwl, 0, false⟩
  | .AD_BLANK_PRI_BLANK => ⟨.AD_BLANK, 7, 0, .rwl, 0, false⟩
  | .AD_MAPCFG_PH_RATIO_TOL => ⟨.AD_MAPCFG, 31, 24, .rwl, 0x40, false⟩
  | .AD_MAPCFG_PLEN => ⟨.AD_MAPCFG, 21, 16, .rwl, 0, false⟩
  | .AD_MAPCFG_TLEN => ⟨.AD_MAPCFG, 9, 0, .rwl, 0, false⟩
  | .AD_TMAP_OFFSET => ⟨.AD_TMAP_OFFSET, 31, 0, .rwl, 0, false⟩
  | .AD_SYNC_CFG_PH_CONFIRM => ⟨.AD_SYNC_CFG, 19, 16, .rwl, 3, false⟩
  | .AD_SYNC_CFG_PH_FLIP_REVS => ⟨.AD_SYNC_CFG, 11, 8, .rwl, 2, false⟩
  | .AD_SYNC_CFG_ACQ_CONFIRM => ⟨.AD_SYNC_CFG, 7, 0, .rwl, 4, false⟩
  | .AD_STALL_STALL_MS => ⟨.AD_STALL, 13, 0, .rwl, 0x3e8, false⟩
  | .AD_SYNC_STAT_PH_POS => ⟨.AD_SYNC_STAT, 31, 26, .ro, 0, false⟩
  | .AD_SYNC_STAT_POS => ⟨.AD_SYNC_STAT, 25, 16, .ro, 0, false⟩
  | .AD_SYNC_STAT_LOSS_CAUSE => ⟨.AD_SYNC_STAT, 10, 8, .ro, 0, false⟩
  | .AD_SYNC_STAT_ANGLE_VALID => ⟨.AD_SYNC_STAT, 5, 5, .ro, 0, false⟩
  | .AD_SYNC_STAT_REV => ⟨.AD_SYNC_STAT, 4, 4, .ro, 0, false⟩
  | .AD_SYNC_STAT_PH_LOCK => ⟨.AD_SYNC_STAT, 3, 3, .ro, 0, false⟩
  | .AD_SYNC_STAT_CRANK_LOCK => ⟨.AD_SYNC_STAT, 2, 2, .ro, 0, false⟩
  | .AD_SYNC_STAT_STATE => ⟨.AD_SYNC_STAT, 1, 0, .ro, 0, false⟩
  | .AD_CMD_RESEED => ⟨.AD_CMD, 1, 1, .wo, 0, false⟩
  | .AD_CMD_DESYNC => ⟨.AD_CMD, 0, 0, .wo, 0, false⟩
  | .AD_FAULT_COARSE => ⟨.AD_FAULT, 8, 8, .w1c, 0, false⟩
  | .AD_FAULT_PH_LOST => ⟨.AD_FAULT, 7, 7, .w1c, 0, false⟩
  | .AD_FAULT_ACQ_RESTART => ⟨.AD_FAULT, 6, 6, .w1c, 0, false⟩
  | .AD_FAULT_MAP_INVALID => ⟨.AD_FAULT, 5, 5, .w1c, 0, false⟩
  | .AD_FAULT_PHASE_MISMATCH => ⟨.AD_FAULT, 4, 4, .w1c, 0, false⟩
  | .AD_FAULT_PHASE_FLIP => ⟨.AD_FAULT, 3, 3, .w1c, 0, false⟩
  | .AD_FAULT_STALL => ⟨.AD_FAULT, 2, 2, .w1c, 0, false⟩
  | .AD_FAULT_MISSING_GAP => ⟨.AD_FAULT, 1, 1, .w1c, 0, false⟩
  | .AD_FAULT_UNEXP_GAP => ⟨.AD_FAULT, 0, 0, .w1c, 0, false⟩
  | .AD_CNT_FILT => ⟨.AD_CNT_FILT, 31, 0, .rc, 0, false⟩
  | .AD_CNT_BLANK => ⟨.AD_CNT_BLANK, 31, 0, .rc, 0, false⟩
  | .AD_CNT_LOSS => ⟨.AD_CNT_LOSS, 31, 0, .rc, 0, false⟩
  | .AD_CNT_PHMIS => ⟨.AD_CNT_PHMIS, 31, 0, .rc, 0, false⟩
  | .AD_LAST_PERIOD => ⟨.AD_LAST_PERIOD, 31, 0, .ro, 0, false⟩
  | .AD_LAST_RATIO => ⟨.AD_LAST_RATIO, 15, 0, .ro, 0, false⟩
  | .AD_CNT_RESTART => ⟨.AD_CNT_RESTART, 31, 0, .rc, 0, false⟩
  | .AD_EST_CFG_JUMP_WARN => ⟨.AD_EST_CFG, 23, 16, .rwl, 0x40, false⟩
  | .AD_EST_CFG_DEPTH => ⟨.AD_EST_CFG, 3, 0, .rwl, 3, false⟩
  | .AD_EST_COEF_BETA => ⟨.AD_EST_COEF, 31, 16, .rwl, 0, false⟩
  | .AD_EST_COEF_ALPHA => ⟨.AD_EST_COEF, 15, 0, .rwl, 0x4000, false⟩
  | .AD_ANGLE => ⟨.AD_ANGLE, 31, 0, .ro, 0, false⟩
  | .AD_ANGLE_FRAC => ⟨.AD_ANGLE_FRAC, 15, 0, .ro, 0, false⟩
  | .AD_RATE => ⟨.AD_RATE, 31, 0, .ro, 0, false⟩
  | .AD_ACC => ⟨.AD_ACC, 31, 0, .ro, 0, false⟩
  | .AD_RPM => ⟨.AD_RPM, 19, 0, .ro, 0, false⟩
  | .AD_PRED => ⟨.AD_PRED, 31, 0, .ro, 0, false⟩
  | .AD_LAST_ERR => ⟨.AD_LAST_ERR, 31, 0, .ro, 0, false⟩
  | .AD_LAST_JUMP => ⟨.AD_LAST_JUMP, 31, 0, .ro, 0, false⟩
  | .AD_CYC => ⟨.AD_CYC, 31, 0, .ro, 0, true⟩
  | .AD_EST_STAT_HIST => ⟨.AD_EST_STAT, 7, 4, .ro, 0, false⟩
  | .AD_EST_STAT_PRED_VALID => ⟨.AD_EST_STAT, 3, 3, .ro, 0, false⟩
  | .AD_EST_STAT_PH_SOURCE => ⟨.AD_EST_STAT, 2, 2, .ro, 0, false⟩
  | .AD_EST_STAT_EXTRAP => ⟨.AD_EST_STAT, 1, 1, .ro, 0, false⟩
  | .AD_EST_STAT_CLAMPED => ⟨.AD_EST_STAT, 0, 0, .ro, 0, false⟩
  | .AD_EST_FAULT_WRAPPED => ⟨.AD_EST_FAULT, 2, 2, .w1c, 0, false⟩
  | .AD_EST_FAULT_PRED_LIMIT => ⟨.AD_EST_FAULT, 1, 1, .w1c, 0, false⟩
  | .AD_EST_FAULT_JUMP_WARN => ⟨.AD_EST_FAULT, 0, 0, .w1c, 0, false⟩
  | .AD_CNT_CLAMP => ⟨.AD_CNT_CLAMP, 31, 0, .rc, 0, false⟩
  | .AD_CNT_JUMP => ⟨.AD_CNT_JUMP, 31, 0, .rc, 0, false⟩
  | .AD_CNT_JUMP_WARN => ⟨.AD_CNT_JUMP_WARN, 31, 0, .rc, 0, false⟩
  | .AD_TCL_CFG_ACC_BAND => ⟨.AD_TCL_CFG, 31, 16, .rwl, 0x21, false⟩
  | .AD_TCL_CFG_LEARN_REVS => ⟨.AD_TCL_CFG, 11, 8, .rwl, 4, false⟩
  | .AD_TCL_CFG_GATE_EN => ⟨.AD_TCL_CFG, 4, 4, .rwl, 0, false⟩
  | .AD_TCL_CFG_GATE => ⟨.AD_TCL_CFG, 3, 3, .rw, 0, false⟩
  | .AD_TCL_CFG_AUTO_SWAP => ⟨.AD_TCL_CFG, 2, 2, .rwl, 0, false⟩
  | .AD_TCL_CFG_APPLY_EN => ⟨.AD_TCL_CFG, 1, 1, .rwl, 0, false⟩
  | .AD_TCL_CFG_LEARN_EN => ⟨.AD_TCL_CFG, 0, 0, .rw, 0, false⟩
  | .AD_TCL_BOUND => ⟨.AD_TCL_BOUND, 15, 0, .rwl, 0x400, false⟩
  | .AD_TCL_CMD_RESTART => ⟨.AD_TCL_CMD, 1, 1, .wo, 0, false⟩
  | .AD_TCL_CMD_SWAP => ⟨.AD_TCL_CMD, 0, 0, .wo, 0, false⟩
  | .AD_TCL_STAT_REVS_DONE => ⟨.AD_TCL_STAT, 26, 16, .ro, 0, false⟩
  | .AD_TCL_STAT_WRITING => ⟨.AD_TCL_STAT, 3, 3, .ro, 0, false⟩
  | .AD_TCL_STAT_BACK_COMPLETE => ⟨.AD_TCL_STAT, 2, 2, .ro, 0, false⟩
  | .AD_TCL_STAT_SWAP_PENDING => ⟨.AD_TCL_STAT, 1, 1, .ro, 0, false⟩
  | .AD_TCL_STAT_FRONT => ⟨.AD_TCL_STAT, 0, 0, .ro, 0, true⟩
  | .AD_TCL_FAULT_SWAP_REFUSED => ⟨.AD_TCL_FAULT, 2, 2, .w1c, 0, false⟩
  | .AD_TCL_FAULT_HOST_REJECT => ⟨.AD_TCL_FAULT, 1, 1, .w1c, 0, false⟩
  | .AD_TCL_FAULT_OUT_OF_BOUND => ⟨.AD_TCL_FAULT, 0, 0, .w1c, 0, false⟩
  | .AD_TCL_CNT_SWAP => ⟨.AD_TCL_CNT_SWAP, 31, 0, .rc, 0, false⟩
  | .AD_TCL_CNT_REJREV => ⟨.AD_TCL_CNT_REJREV, 31, 0, .rc, 0, false⟩
  | .SEQ_CTRL_FAULT_HALT => ⟨.SEQ_CTRL, 4, 4, .rw, 1, false⟩
  | .SEQ_CTRL_DOMAIN => ⟨.SEQ_CTRL, 1, 0, .rwl, 0, false⟩
  | .SEQ_CMD_RESET => ⟨.SEQ_CMD, 1, 1, .wo, 0, false⟩
  | .SEQ_CMD_START => ⟨.SEQ_CMD, 0, 0, .wo, 0, false⟩
  | .SEQ_STAT_STATE => ⟨.SEQ_STAT, 15, 13, .ro, 0, false⟩
  | .SEQ_STAT_BANK => ⟨.SEQ_STAT, 12, 12, .ro, 0, true⟩
  | .SEQ_STAT_PC => ⟨.SEQ_STAT, 10, 0, .ro, 0, false⟩
  | .SEQ_ENTRY_ENTRY1 => ⟨.SEQ_ENTRY, 26, 16, .rw, 0, true⟩
  | .SEQ_ENTRY_ENTRY0 => ⟨.SEQ_ENTRY, 10, 0, .rw, 0, true⟩
  | .SEQ_FAULT_NORATE => ⟨.SEQ_FAULT, 6, 6, .w1c, 0, false⟩
  | .SEQ_FAULT_DIV0 => ⟨.SEQ_FAULT, 5, 5, .w1c, 0, false⟩
  | .SEQ_FAULT_MAP_ECC => ⟨.SEQ_FAULT, 4, 4, .w1c, 0, false⟩
  | .SEQ_FAULT_MAP_FMT => ⟨.SEQ_FAULT, 3, 3, .w1c, 0, false⟩
  | .SEQ_FAULT_ADDR => ⟨.SEQ_FAULT, 2, 2, .w1c, 0, false⟩
  | .SEQ_FAULT_PROG_ECC => ⟨.SEQ_FAULT, 1, 1, .w1c, 0, false⟩
  | .SEQ_FAULT_ILLEGAL => ⟨.SEQ_FAULT, 0, 0, .w1c, 0, false⟩
  | .SEQ_FAULT_PC_CAUSE => ⟨.SEQ_FAULT_PC, 19, 16, .ro, 0, false⟩
  | .SEQ_FAULT_PC_BANK => ⟨.SEQ_FAULT_PC, 12, 12, .ro, 0, false⟩
  | .SEQ_FAULT_PC => ⟨.SEQ_FAULT_PC, 10, 0, .ro, 0, false⟩
  | .SEQ_CNT_CYC => ⟨.SEQ_CNT_CYC, 31, 0, .rc, 0, false⟩
  | .SEQ_CNT_STALL => ⟨.SEQ_CNT_STALL, 31, 0, .rc, 0, false⟩
  | .SEQ_CNT_ECC => ⟨.SEQ_CNT_ECC, 31, 0, .rc, 0, false⟩
  | .SEQ_XREG => ⟨.SEQ_XREG, 31, 0, .ro, 0, false⟩
  | .SEQ_TASK_CFG_OVERRUN_CLEAR => ⟨.SEQ_TASK_CFG, 0, 0, .rwl, 0, false⟩
  | .SEQ_TASK_STAT_COALESCE => ⟨.SEQ_TASK_STAT, 15, 8, .ro, 0, false⟩
  | .SEQ_TASK_STAT_TOOTH_PENDING => ⟨.SEQ_TASK_STAT, 2, 2, .ro, 0, false⟩
  | .SEQ_TASK_STAT_YIELDED => ⟨.SEQ_TASK_STAT, 1, 1, .ro, 0, false⟩
  | .SEQ_TASK_STAT_IN_TASK => ⟨.SEQ_TASK_STAT, 0, 0, .ro, 0, false⟩
  | .SEQ_BUDGET_ALLOW => ⟨.SEQ_BUDGET, 31, 0, .ro, 0, false⟩
  | .SEQ_TASK_MAX => ⟨.SEQ_TASK_MAX, 31, 0, .rc, 0, false⟩
  | .SEQ_TASK_FLT_BAD_WAIT => ⟨.SEQ_TASK_FLT, 6, 6, .w1c, 0, false⟩
  | .SEQ_TASK_FLT_HANDOVER_FAIL => ⟨.SEQ_TASK_FLT, 5, 5, .w1c, 0, false⟩
  | .SEQ_TASK_FLT_BAD_CHANNEL => ⟨.SEQ_TASK_FLT, 4, 4, .w1c, 0, false⟩
  | .SEQ_TASK_FLT_BAD_LIMIT => ⟨.SEQ_TASK_FLT, 3, 3, .w1c, 0, false⟩
  | .SEQ_TASK_FLT_SLOT_EXHAUST => ⟨.SEQ_TASK_FLT, 2, 2, .w1c, 0, false⟩
  | .SEQ_TASK_FLT_BUDGET_OVER => ⟨.SEQ_TASK_FLT, 1, 1, .w1c, 0, false⟩
  | .SEQ_TASK_FLT_OVERRUN => ⟨.SEQ_TASK_FLT, 0, 0, .w1c, 0, false⟩
  | .SEQ_CNT_OVERRUN => ⟨.SEQ_CNT_OVERRUN, 31, 0, .rc, 0, false⟩
  | .SEQ_CNT_BUDGET => ⟨.SEQ_CNT_BUDGET, 31, 0, .rc, 0, false⟩
  | .SEQ_CNT_EXHAUST => ⟨.SEQ_CNT_EXHAUST, 31, 0, .rc, 0, false⟩
  | .SEQ_CNT_COALESCED => ⟨.SEQ_CNT_COALESCED, 31, 0, .rc, 0, false⟩
  | .SEQ_SLOTS_PEAK => ⟨.SEQ_SLOTS, 22, 16, .rc, 0, false⟩
  | .SEQ_SLOTS_IN_USE => ⟨.SEQ_SLOTS, 6, 0, .ro, 0, false⟩
  | .SEQ_FLAGS => ⟨.SEQ_FLAGS, 15, 0, .w1c, 0, false⟩
  | .SEQ_FLAGS_SET_FLAGS => ⟨.SEQ_FLAGS_SET, 15, 0, .w1s, 0, false⟩
  | .SEQ_SWAP_REQ => ⟨.SEQ_SWAP, 0, 0, .wo, 0, false⟩
  | .SEQ_SWAP_STAT_MISSED => ⟨.SEQ_SWAP_STAT, 15, 8, .rc, 0, false⟩
  | .SEQ_SWAP_STAT_PENDING => ⟨.SEQ_SWAP_STAT, 0, 0, .ro, 0, false⟩
  | .SEQ_MODECFG_LIMP_CAPABLE => ⟨.SEQ_MODECFG, 0, 0, .rwl, 0, false⟩
  | .SEQ_MODE_STAT_APPLY_CNT => ⟨.SEQ_MODE_STAT, 15, 8, .ro, 0, false⟩
  | .SEQ_MODE_STAT_APPLIED => ⟨.SEQ_MODE_STAT, 2, 0, .ro, 1, true⟩
  | .SEQ_SLOT_TARGET => ⟨.SEQ_SLOT_TARGET, 31, 0, .ro, 0, false⟩
  | .SEQ_SLOT_STATE_ARMED => ⟨.SEQ_SLOT_STATE, 31, 31, .ro, 0, false⟩
  | .SEQ_SLOT_STATE_KIND => ⟨.SEQ_SLOT_STATE, 30, 27, .ro, 0, false⟩
  | .SEQ_SLOT_STATE_ARG => ⟨.SEQ_SLOT_STATE, 26, 18, .ro, 0, false⟩
  | .SEQ_SLOT_STATE_FRAC => ⟨.SEQ_SLOT_STATE, 17, 15, .ro, 0, false⟩
  | .SEQ_SLOT_STATE_GEN => ⟨.SEQ_SLOT_STATE, 14, 7, .ro, 0, false⟩
  | .SEQ_SLOT_STATE_PARTNER => ⟨.SEQ_SLOT_STATE, 5, 0, .ro, 0, false⟩
  | .MAPM_ECC_CNT_CORR => ⟨.MAPM_ECC_CNT, 31, 0, .rc, 0, false⟩
  | .MAPM_ECC_ADDR => ⟨.MAPM_ECC_ADDR, 17, 0, .ro, 0, false⟩
  | .OUT_OWNER_OWNED => ⟨.OUT_OWNER, 7, 7, .rwl, 0, false⟩
  | .OUT_OWNER_SEQ => ⟨.OUT_OWNER, 4, 0, .rwl, 0, false⟩
  | .OUT_POLICY_EMIT_MIN => ⟨.OUT_POLICY, 4, 4, .rwl, 0, false⟩
  | .OUT_POLICY_END => ⟨.OUT_POLICY, 0, 0, .rwl, 0, false⟩
  | .OUT_CAP_COMPLETE_CAP => ⟨.OUT_CAP, 23, 0, .rwl, 0, false⟩
  | .OUT_STAT_LATE_SKIP => ⟨.OUT_STAT, 31, 16, .rc, 0, false⟩
  | .OUT_STAT_OWN_CANCEL => ⟨.OUT_STAT, 5, 5, .w1c, 0, false⟩
  | .OUT_STAT_COMPLETING => ⟨.OUT_STAT, 4, 4, .ro, 0, false⟩
  | .OUT_STAT_HELD => ⟨.OUT_STAT, 3, 3, .ro, 0, false⟩
  | .OUT_STAT_DRIVING => ⟨.OUT_STAT, 2, 2, .ro, 0, false⟩
  | .OUT_STAT_INHIBIT => ⟨.OUT_STAT, 1, 1, .ro, 0, false⟩
  | .OUT_STAT_LEVEL => ⟨.OUT_STAT, 0, 0, .ro, 0, false⟩
  | .OUT_CNT_EDGES => ⟨.OUT_CNT_EDGES, 31, 0, .rc, 0, false⟩
  | .OUT_CNT_STRETCH => ⟨.OUT_CNT_STRETCH, 31, 0, .rc, 0, false⟩
  | .OUT_CNT_INHIBIT => ⟨.OUT_CNT_INHIBIT, 31, 0, .rc, 0, false⟩
  | .OUT_LAST_EDGE_STAMP => ⟨.OUT_LAST_EDGE, 63, 1, .ro, 0, false⟩
  | .OUT_LAST_EDGE_RISING => ⟨.OUT_LAST_EDGE, 0, 0, .ro, 0, false⟩
  | .SVC_CFG_EN => ⟨.SVC_CFG, 31, 31, .rw, 0, false⟩
  | .SVC_CFG_REPEAT => ⟨.SVC_CFG, 30, 30, .rwl, 0, false⟩
  | .SVC_CFG_ACT => ⟨.SVC_CFG, 29, 28, .rwl, 0, false⟩
  | .SVC_CFG_DOMAIN => ⟨.SVC_CFG, 27, 26, .rwl, 0, false⟩
  | .SVC_CFG_BASIN => ⟨.SVC_CFG, 8, 0, .rwl, 0, false⟩
  | .SVC_TARGET => ⟨.SVC_TARGET, 31, 0, .rw, 0, false⟩
  | .SVC_STAMP => ⟨.SVC_STAMP, 31, 0, .ro, 0, false⟩
  | .SPILL_STAT_DEN_OK => ⟨.SPILL_STAT, 25, 25, .ro, 0, false⟩
  | .SPILL_STAT_DEVICE_HOLD => ⟨.SPILL_STAT, 24, 24, .ro, 0, false⟩
  | .SPILL_STAT_DOMAIN_HOLD => ⟨.SPILL_STAT, 19, 16, .ro, 0, false⟩
  | .SPILL_STAT_LAST_PATH => ⟨.SPILL_STAT, 3, 0, .ro, 0, false⟩
  | .SPILL_CNT => ⟨.SPILL_CNT, 31, 0, .rc, 0, false⟩
  | .SPILL_LAST_TNOW => ⟨.SPILL_LAST, 63, 0, .ro, 0, false⟩
  | .OUT_DELAY => ⟨.OUT_DELAY, 15, 0, .ro, 0x280, false⟩
  | .MODE_REQ_IMMEDIATE => ⟨.MODE_REQ, 12, 12, .wo, 0, false⟩
  | .MODE_REQ_DOMAIN => ⟨.MODE_REQ, 9, 8, .wo, 0, false⟩
  | .MODE_REQ_TARGET => ⟨.MODE_REQ, 2, 0, .wo, 0, false⟩
  | .MODE_EPOCH_ANGLE => ⟨.MODE_EPOCH, 31, 0, .rw, 0, false⟩
  | .MODE_STAT_CLEAR_CAUSE => ⟨.MODE_STAT, 19, 16, .ro, 0, true⟩
  | .MODE_STAT_TARGET => ⟨.MODE_STAT, 10, 8, .ro, 1, true⟩
  | .MODE_STAT_EPOCH_PENDING => ⟨.MODE_STAT, 5, 5, .ro, 0, true⟩
  | .MODE_STAT_TRANSITION => ⟨.MODE_STAT, 4, 4, .ro, 0, true⟩
  | .MODE_STAT_MODE => ⟨.MODE_STAT, 2, 0, .ro, 1, true⟩
  | .MODE_APPLIED => ⟨.MODE_APPLIED, 23, 0, .ro, 0xffffff, true⟩
  | .MODE_LAG => ⟨.MODE_LAG, 23, 0, .ro, 0, true⟩
  | .MODE_CFG_RUN_REVS => ⟨.MODE_CFG, 31, 24, .rw, 4, false⟩
  | .MODE_CFG_LIMP_TEETH => ⟨.MODE_CFG, 23, 16, .rw, 0xc, false⟩
  | .MODE_CFG_TIMEOUT_CYC => ⟨.MODE_CFG, 11, 8, .rw, 2, false⟩
  | .MODE_CFG_EPOCH_DOM => ⟨.MODE_CFG, 3, 2, .rw, 0, false⟩
  | .MODE_CFG_LIMP_EN => ⟨.MODE_CFG, 1, 1, .rw, 0, false⟩
  | .MODE_CFG_AUTO_RUN => ⟨.MODE_CFG, 0, 0, .rw, 0, false⟩
  | .MODE_TMO_TIMEOUT_MS => ⟨.MODE_TMO, 13, 0, .rw, 0x3e80, false⟩
  | .MODE_FAULT_SUPERSEDED => ⟨.MODE_FAULT, 4, 4, .w1c, 0, false⟩
  | .MODE_FAULT_EPOCH_LOST => ⟨.MODE_FAULT, 3, 3, .w1c, 0, false⟩
  | .MODE_FAULT_TIMEOUT => ⟨.MODE_FAULT, 2, 2, .w1c, 0, false⟩
  | .MODE_FAULT_EPOCH_INVALID => ⟨.MODE_FAULT, 1, 1, .w1c, 0, false⟩
  | .MODE_FAULT_REFUSED => ⟨.MODE_FAULT, 0, 0, .w1c, 0, false⟩
  | .MODE_CNT_TRANS => ⟨.MODE_CNT, 31, 0, .rc, 0, false⟩
  | .ADC_CFG_EN => ⟨.ADC_CFG, 31, 31, .rw, 0, false⟩
  | .ADC_CFG_ILV => ⟨.ADC_CFG, 30, 30, .rw, 0, false⟩
  | .ADC_CFG_LEN_M1 => ⟨.ADC_CFG, 3, 0, .rw, 0, false⟩
  | .ADC_CMD_FLT_RESET => ⟨.ADC_CMD, 2, 2, .wo, 0, false⟩
  | .ADC_CMD_CAL => ⟨.ADC_CMD, 1, 1, .wo, 0, false⟩
  | .ADC_CMD_COMMIT => ⟨.ADC_CMD, 0, 0, .wo, 0, false⟩
  | .ADC_STAT_SETTLE_DROP => ⟨.ADC_STAT, 7, 7, .w1c, 0, false⟩
  | .ADC_STAT_FLT_SAT => ⟨.ADC_STAT, 6, 6, .w1c, 0, false⟩
  | .ADC_STAT_COMMIT_REFUSED => ⟨.ADC_STAT, 5, 5, .w1c, 0, false⟩
  | .ADC_STAT_CAL_FAIL => ⟨.ADC_STAT, 4, 4, .w1c, 0, false⟩
  | .ADC_STAT_ILV_ACTIVE => ⟨.ADC_STAT, 3, 3, .ro, 0, false⟩
  | .ADC_STAT_CAL_BUSY => ⟨.ADC_STAT, 2, 2, .ro, 0, false⟩
  | .ADC_STAT_COMMIT_PENDING => ⟨.ADC_STAT, 1, 1, .ro, 0, false⟩
  | .ADC_STAT_RUNNING => ⟨.ADC_STAT, 0, 0, .ro, 0, false⟩
  | .ADC_ILV_SKEW => ⟨.ADC_ILV_SKEW, 15, 0, .ro, 0, false⟩
  | .ADC_SEQ_SRC => ⟨.ADC_SEQ, 6, 0, .rw, 0x60, false⟩
  | .ADC_FLT_CFG_BQ1_EN => ⟨.ADC_FLT_CFG, 1, 1, .rw, 0, false⟩
  | .ADC_FLT_CFG_BQ0_EN => ⟨.ADC_FLT_CFG, 0, 0, .rw, 0, false⟩
  | .ADC_COEF => ⟨.ADC_COEF, 23, 0, .rw, 0, false⟩
  | .AIN_CFG_AAF => ⟨.AIN_CFG, 1, 1, .rw, 0, false⟩
  | .AIN_CFG_RANGE => ⟨.AIN_CFG, 0, 0, .rw, 0, false⟩
  | .BAS_CFG_EN => ⟨.BAS_CFG, 31, 31, .rw, 0, false⟩
  | .BAS_CFG_MODE => ⟨.BAS_CFG, 30, 28, .rw, 0, false⟩
  | .BAS_CFG_DOMAIN => ⟨.BAS_CFG, 27, 26, .rw, 0, false⟩
  | .BAS_CFG_WIN_SRC => ⟨.BAS_CFG, 25, 25, .rw, 0, false⟩
  | .BAS_CFG_PWM_SEL => ⟨.BAS_CFG, 24, 21, .rw, 0, false⟩
  | .BAS_CFG_IRQ => ⟨.BAS_CFG, 20, 20, .rw, 0, false⟩
  | .BAS_CFG_FEED_EN => ⟨.BAS_CFG, 19, 19, .rw, 0, false⟩
  | .BAS_CFG_FEED => ⟨.BAS_CFG, 18, 17, .rw, 0, false⟩
  | .BAS_CFG_SHIFT => ⟨.BAS_CFG, 15, 10, .rw, 0, false⟩
  | .BAS_CFG_TAP => ⟨.BAS_CFG, 9, 9, .rw, 0, false⟩
  | .BAS_CFG_CONV => ⟨.BAS_CFG, 8, 4, .rw, 0, false⟩
  | .BAS_CFG_ENTRY => ⟨.BAS_CFG, 3, 0, .rw, 0, false⟩
  | .BAS_WOFFSET => ⟨.BAS_WOFFSET, 31, 0, .rw, 0, false⟩
  | .BAS_THR => ⟨.BAS_THR, 17, 0, .rw, 0x20000, false⟩
  | .BAS_CMD_CLOSE_OPEN => ⟨.BAS_CMD, 2, 2, .wo, 0, false⟩
  | .BAS_CMD_CLOSE => ⟨.BAS_CMD, 1, 1, .wo, 0, false⟩
  | .BAS_CMD_OPEN => ⟨.BAS_CMD, 0, 0, .wo, 0, false⟩
  | .BAS_STAT_SEQ => ⟨.BAS_STAT, 15, 8, .ro, 0, false⟩
  | .BAS_STAT_REFUSED => ⟨.BAS_STAT, 5, 5, .w1c, 0, false⟩
  | .BAS_STAT_DUP => ⟨.BAS_STAT, 4, 4, .w1c, 0, false⟩
  | .BAS_STAT_OVF => ⟨.BAS_STAT, 3, 3, .w1c, 0, false⟩
  | .BAS_STAT_ABORTED => ⟨.BAS_STAT, 2, 2, .w1c, 0, false⟩
  | .BAS_STAT_LATE_READ => ⟨.BAS_STAT, 1, 1, .w1c, 0, false⟩
  | .BAS_STAT_OPEN => ⟨.BAS_STAT, 0, 0, .ro, 0, false⟩
  | .BAS_CNT_LATE => ⟨.BAS_CNT_LATE, 31, 0, .rc, 0, false⟩
  | .BAS_CNT_ABORT => ⟨.BAS_CNT_ABORT, 31, 0, .rc, 0, false⟩
  | .BAS_VALUE => ⟨.BAS_VALUE, 63, 0, .ro, 0, false⟩
  | .BAS_SAMPLES => ⟨.BAS_SAMPLES, 31, 0, .ro, 0, false⟩
  | .BAS_TAG_CYC => ⟨.BAS_TAG, 31, 24, .ro, 0, false⟩
  | .BAS_TAG_SEQ => ⟨.BAS_TAG, 23, 16, .ro, 0, false⟩
  | .BAS_TAG_LATE => ⟨.BAS_TAG, 10, 10, .ro, 0, false⟩
  | .BAS_TAG_OVF => ⟨.BAS_TAG, 9, 9, .ro, 0, false⟩
  | .BAS_TAG_BASIN => ⟨.BAS_TAG, 8, 0, .ro, 0, false⟩
  | .TRK_CFG_EN => ⟨.TRK_CFG, 31, 31, .rw, 0, false⟩
  | .TRK_CFG_MODE => ⟨.TRK_CFG, 30, 29, .rw, 0, false⟩
  | .TRK_CFG_DOMAIN => ⟨.TRK_CFG, 27, 26, .rw, 0, false⟩
  | .TRK_CFG_BASIN => ⟨.TRK_CFG, 24, 16, .rw, 0, false⟩
  | .TRK_CFG_TAP => ⟨.TRK_CFG, 9, 9, .rw, 0, false⟩
  | .TRK_CFG_CONV => ⟨.TRK_CFG, 8, 4, .rw, 0, false⟩
  | .TRK_CFG_ENTRY => ⟨.TRK_CFG, 3, 0, .rw, 0, false⟩
  | .TRK_MAX => ⟨.TRK_MAX, 31, 0, .ro, 0, false⟩
  | .TRK_MAX_ANG => ⟨.TRK_MAX_ANG, 31, 0, .ro, 0, false⟩
  | .TRK_MIN => ⟨.TRK_MIN, 31, 0, .ro, 0, false⟩
  | .TRK_MIN_ANG => ⟨.TRK_MIN_ANG, 31, 0, .ro, 0, false⟩
  | .TRK_TAG_CYC => ⟨.TRK_TAG, 31, 24, .ro, 0, false⟩
  | .TRK_TAG_SEQ => ⟨.TRK_TAG, 23, 16, .ro, 0, false⟩
  | .TRK_TAG_ANG_INVALID => ⟨.TRK_TAG, 1, 1, .ro, 0, false⟩
  | .TRK_TAG_EMPTY => ⟨.TRK_TAG, 0, 0, .ro, 0, false⟩
  | .BAS_FEED_DATA => ⟨.BAS_FEED_DATA, 63, 0, .ro, 0, false⟩
  | .BAS_FEED_STAT_UNDERRUN => ⟨.BAS_FEED_STAT, 9, 9, .w1c, 0, false⟩
  | .BAS_FEED_STAT_OVF => ⟨.BAS_FEED_STAT, 8, 8, .w1c, 0, false⟩
  | .BAS_FEED_STAT_LEVEL => ⟨.BAS_FEED_STAT, 6, 0, .ro, 0, false⟩
  | .BAS_FEED_CNT_DROP => ⟨.BAS_FEED_CNT_DROP, 31, 0, .rc, 0, false⟩
  | .BAS_CLOSED => ⟨.BAS_CLOSED, 31, 0, .w1c, 0, false⟩
  | .WT_CMD_SWAP => ⟨.WT_CMD, 0, 0, .wo, 0, false⟩
  | .WT_STAT_REJECT => ⟨.WT_STAT, 8, 8, .w1c, 0, false⟩
  | .WT_STAT_SETTLING => ⟨.WT_STAT, 2, 2, .ro, 0, false⟩
  | .WT_STAT_SWAP_PENDING => ⟨.WT_STAT, 1, 1, .ro, 0, false⟩
  | .WT_STAT_FRONT => ⟨.WT_STAT, 0, 0, .ro, 0, true⟩
  | .CMP_CFG_FILT => ⟨.CMP_CFG, 23, 16, .rw, 0, false⟩
  | .CMP_CFG_WIN_EN => ⟨.CMP_CFG, 12, 12, .rw, 0, false⟩
  | .CMP_CFG_HYST => ⟨.CMP_CFG, 9, 8, .rw, 0, false⟩
  | .CMP_CFG_INVERT => ⟨.CMP_CFG, 7, 7, .rw, 0, false⟩
  | .CMP_CFG_SEL => ⟨.CMP_CFG, 6, 0, .rw, 0x31, false⟩
  | .CMP_DAC_RANGE => ⟨.CMP_DAC, 10, 10, .rw, 0, false⟩
  | .CMP_DAC_CODE => ⟨.CMP_DAC, 9, 0, .rw, 0, false⟩
  | .CMP_ROUTE_TRIP_EN => ⟨.CMP_ROUTE, 11, 11, .rw, 0, false⟩
  | .CMP_ROUTE_TRIP => ⟨.CMP_ROUTE, 10, 8, .rw, 0, false⟩
  | .CMP_ROUTE_SRC_WIN => ⟨.CMP_ROUTE, 4, 4, .rw, 0, false⟩
  | .CMP_ROUTE_IRQ_FALL => ⟨.CMP_ROUTE, 1, 1, .rw, 0, false⟩
  | .CMP_ROUTE_IRQ_RISE => ⟨.CMP_ROUTE, 0, 0, .rw, 0, false⟩
  | .CMP_STAT_WIN_BAD => ⟨.CMP_STAT, 6, 6, .ro, 0, false⟩
  | .CMP_STAT_FALL => ⟨.CMP_STAT, 5, 5, .w1c, 0, false⟩
  | .CMP_STAT_RISE => ⟨.CMP_STAT, 4, 4, .w1c, 0, false⟩
  | .CMP_STAT_HOLD => ⟨.CMP_STAT, 3, 3, .ro, 0, false⟩
  | .CMP_STAT_OUTSIDE => ⟨.CMP_STAT, 2, 2, .ro, 0, false⟩
  | .CMP_STAT_VALID => ⟨.CMP_STAT, 1, 1, .ro, 0, false⟩
  | .CMP_STAT_OUT => ⟨.CMP_STAT, 0, 0, .ro, 0, false⟩
  | .CMP_CNT_EDGES => ⟨.CMP_CNT_EDGES, 31, 0, .rc, 0, false⟩
  | .PWM_CTRL_EN => ⟨.PWM_CTRL, 31, 31, .rw, 0, false⟩
  | .PWM_CTRL_LOCK => ⟨.PWM_CTRL, 30, 30, .rw, 0, false⟩
  | .PWM_CTRL_LOAD_MID => ⟨.PWM_CTRL, 29, 29, .rw, 0, false⟩
  | .PWM_CTRL_UPDOWN => ⟨.PWM_CTRL, 28, 28, .rw, 0, false⟩
  | .PWM_CTRL_COMPL => ⟨.PWM_CTRL, 27, 27, .rw, 0, false⟩
  | .PWM_CTRL_CLEAR_TRIP => ⟨.PWM_CTRL, 26, 26, .rw, 0, false⟩
  | .PWM_CTRL_TRIP_MASK => ⟨.PWM_CTRL, 7, 0, .rw, 0, false⟩
  | .PWM_PERIOD => ⟨.PWM_PERIOD, 19, 0, .rw, 0, false⟩
  | .PWM_CMPA => ⟨.PWM_CMPA, 19, 0, .rw, 0, false⟩
  | .PWM_CMPB => ⟨.PWM_CMPB, 19, 0, .rw, 0, false⟩
  | .PWM_MARK1 => ⟨.PWM_MARK1, 19, 0, .rw, 0xfffff, false⟩
  | .PWM_MARK2 => ⟨.PWM_MARK2, 19, 0, .rw, 0xfffff, false⟩
  | .PWM_DEADTIME => ⟨.PWM_DEADTIME, 9, 0, .rw, 0, false⟩
  | .PWM_FORCE_FB => ⟨.PWM_FORCE, 3, 2, .rw, 0, false⟩
  | .PWM_FORCE_FA => ⟨.PWM_FORCE, 1, 0, .rw, 0, false⟩
  | .PWM_OUTCFG_OE_B => ⟨.PWM_OUTCFG, 11, 11, .rw, 0, false⟩
  | .PWM_OUTCFG_POL_B => ⟨.PWM_OUTCFG, 10, 10, .rw, 0, false⟩
  | .PWM_OUTCFG_LEVEL_B => ⟨.PWM_OUTCFG, 9, 9, .rw, 0, false⟩
  | .PWM_OUTCFG_OD_B => ⟨.PWM_OUTCFG, 8, 8, .rw, 0, false⟩
  | .PWM_OUTCFG_OE_A => ⟨.PWM_OUTCFG, 3, 3, .rw, 0, false⟩
  | .PWM_OUTCFG_POL_A => ⟨.PWM_OUTCFG, 2, 2, .rw, 0, false⟩
  | .PWM_OUTCFG_LEVEL_A => ⟨.PWM_OUTCFG, 1, 1, .rw, 0, false⟩
  | .PWM_OUTCFG_OD_A => ⟨.PWM_OUTCFG, 0, 0, .rw, 0, false⟩
  | .PWM_CMD_TRIP_SW => ⟨.PWM_CMD, 1, 1, .wo, 0, false⟩
  | .PWM_CMD_TRIP_CLR => ⟨.PWM_CMD, 0, 0, .wo, 0, false⟩
  | .PWM_STAT_TRIP_CH => ⟨.PWM_STAT, 31, 24, .ro, 0, false⟩
  | .PWM_STAT_BY_CLEARING => ⟨.PWM_STAT, 11, 11, .ro, 0, false⟩
  | .PWM_STAT_BY_SW => ⟨.PWM_STAT, 10, 10, .ro, 0, false⟩
  | .PWM_STAT_SHORT_B => ⟨.PWM_STAT, 8, 8, .w1c, 0, false⟩
  | .PWM_STAT_SHORT_A => ⟨.PWM_STAT, 7, 7, .w1c, 0, false⟩
  | .PWM_STAT_FORCE_BAD => ⟨.PWM_STAT, 6, 6, .w1c, 0, false⟩
  | .PWM_STAT_CLR_REFUSED => ⟨.PWM_STAT, 5, 5, .w1c, 0, false⟩
  | .PWM_STAT_RUNNING => ⟨.PWM_STAT, 4, 4, .ro, 0, false⟩
  | .PWM_STAT_TRIPPED => ⟨.PWM_STAT, 0, 0, .ro, 0, false⟩
  | .PWM_COUNT_DOWN => ⟨.PWM_COUNT, 20, 20, .ro, 0, false⟩
  | .PWM_COUNT => ⟨.PWM_COUNT, 19, 0, .ro, 0, false⟩
  | .PWM_CNT_TRIP => ⟨.PWM_CNT_TRIP, 31, 0, .rc, 0, false⟩
  | .PWM_SYNC_RESTART => ⟨.PWM_SYNC, 15, 0, .wo, 0, false⟩
  | .TRIP_CFG_PIN_EN => ⟨.TRIP_CFG, 17, 17, .rw, 0, false⟩
  | .TRIP_CFG_PIN_INV => ⟨.TRIP_CFG, 16, 16, .rw, 0, false⟩
  | .TRIP_CFG_FILT => ⟨.TRIP_CFG, 9, 0, .rw, 0, false⟩
  | .TRIP_STAT_PIN => ⟨.TRIP_STAT, 23, 16, .ro, 0, false⟩
  | .TRIP_STAT_RAW => ⟨.TRIP_STAT, 15, 8, .ro, 0, false⟩
  | .TRIP_STAT_FILTERED => ⟨.TRIP_STAT, 7, 0, .ro, 0, false⟩
  | .IOE_CTRL_EN => ⟨.IOE_CTRL, 31, 31, .rw, 0, false⟩
  | .IOE_CTRL_OUT_DEPTH => ⟨.IOE_CTRL, 19, 16, .rw, 0, false⟩
  | .IOE_CTRL_GRP => ⟨.IOE_CTRL, 14, 12, .rw, 0, false⟩
  | .IOE_CTRL_ENTRY => ⟨.IOE_CTRL, 5, 0, .rw, 0, false⟩
  | .IOE_CMD_RESET => ⟨.IOE_CMD, 0, 0, .wo, 0, false⟩
  | .IOE_STAT_POST_CNT => ⟨.IOE_STAT, 31, 24, .ro, 0, false⟩
  | .IOE_STAT_SC => ⟨.IOE_STAT, 23, 18, .ro, 0, false⟩
  | .IOE_STAT_INJ_PENDING => ⟨.IOE_STAT, 16, 16, .ro, 0, false⟩
  | .IOE_STAT_TO => ⟨.IOE_STAT, 15, 15, .ro, 0, false⟩
  | .IOE_STAT_STATE => ⟨.IOE_STAT, 10, 8, .ro, 0, false⟩
  | .IOE_STAT_PC => ⟨.IOE_STAT, 5, 0, .ro, 0, false⟩
  | .IOE_EVT_ILLEGAL => ⟨.IOE_EVT, 10, 10, .w1c, 0, false⟩
  | .IOE_EVT_IRQ => ⟨.IOE_EVT, 9, 9, .w1c, 0, false⟩
  | .IOE_EVT_LATE => ⟨.IOE_EVT, 8, 8, .w1c, 0, false⟩
  | .IOE_EVT_EDGE_OVR => ⟨.IOE_EVT, 7, 7, .w1c, 0, false⟩
  | .IOE_EVT_INJ_REFUSED => ⟨.IOE_EVT, 6, 6, .w1c, 0, false⟩
  | .IOE_EVT_INJ_LOST => ⟨.IOE_EVT, 5, 5, .w1c, 0, false⟩
  | .IOE_EVT_PIN_DENIED => ⟨.IOE_EVT, 4, 4, .w1c, 0, false⟩
  | .IOE_EVT_IN_UNDER => ⟨.IOE_EVT, 3, 3, .w1c, 0, false⟩
  | .IOE_EVT_IN_OVF => ⟨.IOE_EVT, 2, 2, .w1c, 0, false⟩
  | .IOE_EVT_OUT_UNDER => ⟨.IOE_EVT, 1, 1, .w1c, 0, false⟩
  | .IOE_EVT_OUT_OVF => ⟨.IOE_EVT, 0, 0, .w1c, 0, false⟩
  | .IOE_CLKDIV_DIV => ⟨.IOE_CLKDIV, 15, 0, .rw, 0, false⟩
  | .IOE_INJECT => ⟨.IOE_INJECT, 31, 0, .wo, 0, false⟩
  | .IOE_FLAGS => ⟨.IOE_FLAGS, 7, 0, .w1c, 0, false⟩
  | .IOE_FLAGS_SET_FLAGS => ⟨.IOE_FLAGS_SET, 7, 0, .w1s, 0, false⟩
  | .IOE_CONST_K => ⟨.IOE_CONST, 31, 0, .rw, 0, true⟩
  | .IOE_CRC_CFG_SEED => ⟨.IOE_CRC_CFG, 31, 24, .rw, 0, false⟩
  | .IOE_CRC_CFG_VALUE => ⟨.IOE_CRC_CFG, 23, 16, .ro, 0, false⟩
  | .IOE_CRC_CFG_POLY => ⟨.IOE_CRC_CFG, 15, 8, .rw, 0, false⟩
  | .IOE_CRC_CFG_WIDTH => ⟨.IOE_CRC_CFG, 3, 0, .rw, 8, false⟩
  | .IOE_POST_MASK => ⟨.IOE_POST_MASK, 23, 0, .rw, 0, false⟩
  | .IOE_POST_WORD => ⟨.IOE_POST_WORD, 9, 0, .rw, 0, false⟩
  | .IOE_QOUT => ⟨.IOE_QOUT, 31, 0, .ro, 0xffffffff, false⟩
  | .IOE_QIN => ⟨.IOE_QIN, 31, 0, .wo, 0, false⟩
  | .IOE_QSTAT_OUT_LEVEL => ⟨.IOE_QSTAT, 11, 8, .ro, 0, false⟩
  | .IOE_QSTAT_IN_LEVEL => ⟨.IOE_QSTAT, 3, 0, .ro, 0, false⟩
  | .IOE_CA => ⟨.IOE_CA, 31, 0, .ro, 0, false⟩
  | .IOE_CB => ⟨.IOE_CB, 31, 0, .ro, 0, false⟩
  | .IOE_SH => ⟨.IOE_SH, 31, 0, .ro, 0, false⟩
  | .IOE_TT => ⟨.IOE_TT, 31, 0, .ro, 0, false⟩
  | .IOE_UNIT => ⟨.IOE_UNIT, 31, 0, .ro, 0x10000, false⟩
  | .GIO_CFG_OWNED => ⟨.GIO_CFG, 31, 31, .rw, 0, false⟩
  | .GIO_CFG_ENGINE => ⟨.GIO_CFG, 27, 24, .rw, 0, false⟩
  | .GIO_CFG_PULL => ⟨.GIO_CFG, 17, 16, .rw, 0, false⟩
  | .GIO_CFG_OD => ⟨.GIO_CFG, 15, 15, .rw, 0, false⟩
  | .GIO_CFG_FILT => ⟨.GIO_CFG, 7, 0, .rw, 0, false⟩
  | .GIO_IN_LEVEL => ⟨.GIO_IN, 31, 0, .ro, 0, false⟩
  | .IOE_GROUP_CMD_GRP => ⟨.IOE_GROUP_CMD, 18, 16, .wo, 0, false⟩
  | .IOE_GROUP_CMD_REPHASE => ⟨.IOE_GROUP_CMD, 1, 1, .wo, 0, false⟩
  | .IOE_GROUP_CMD_START => ⟨.IOE_GROUP_CMD, 0, 0, .wo, 0, false⟩
  | .ICU_TGT_TYPE => ⟨.ICU_TGT, 18, 16, .rw, 0, false⟩
  | .ICU_TGT_PRI => ⟨.ICU_TGT, 13, 12, .rw, 0, false⟩
  | .ICU_TGT_IDX => ⟨.ICU_TGT, 5, 0, .rw, 0, false⟩
  | .ICU_RAW_LEVEL => ⟨.ICU_RAW, 31, 0, .ro, 0, false⟩
  | .ICU_INT_CFG_MINPRI => ⟨.ICU_INT_CFG, 1, 0, .rw, 0, false⟩
  | .ICU_INT_TOP_ASSERTED => ⟨.ICU_INT_TOP, 16, 16, .ro, 0, false⟩
  | .ICU_INT_TOP_PRI => ⟨.ICU_INT_TOP, 13, 12, .ro, 0, false⟩
  | .ICU_INT_TOP_SRC => ⟨.ICU_INT_TOP, 8, 0, .ro, 0x1ff, false⟩
  | .ICU_PLAT_EVT_SPILL => ⟨.ICU_PLAT_EVT, 1, 1, .w1c, 0, false⟩
  | .ICU_PLAT_EVT_MODE_DONE => ⟨.ICU_PLAT_EVT, 0, 0, .w1c, 0, false⟩
  | .ICU_MARK => ⟨.ICU_MARK, 31, 0, .w1c, 0, false⟩
  | .ICU_SWI => ⟨.ICU_SWI, 31, 0, .w1c, 0, false⟩
  | .ICU_SWI_SET_SWI => ⟨.ICU_SWI_SET, 31, 0, .w1s, 0, false⟩
  | .ICU_FAULT_TGT_BAD => ⟨.ICU_FAULT, 4, 4, .w1c, 0, false⟩
  | .ICU_FAULT_SPURIOUS_EOI => ⟨.ICU_FAULT, 3, 0, .w1c, 0, false⟩
  | .ICU_CNT_MSG_CNT => ⟨.ICU_CNT_MSG, 31, 0, .rc, 0, false⟩
  | .DMA_CH_CFG_EN => ⟨.DMA_CH_CFG, 31, 31, .rw, 0, false⟩
  | .DMA_CH_CFG_MODE => ⟨.DMA_CH_CFG, 30, 30, .rw, 0, false⟩
  | .DMA_CH_CFG_NOSNOOP => ⟨.DMA_CH_CFG, 29, 29, .rw, 0, false⟩
  | .DMA_CH_CFG_PRI => ⟨.DMA_CH_CFG, 28, 28, .rw, 0, false⟩
  | .DMA_CH_CFG_FEED => ⟨.DMA_CH_CFG, 18, 17, .rw, 0, false⟩
  | .DMA_CH_CFG_QUOTA => ⟨.DMA_CH_CFG, 14, 8, .rw, 4, false⟩
  | .DMA_CH_CMD_SKIP => ⟨.DMA_CH_CMD, 1, 1, .wo, 0, false⟩
  | .DMA_CH_CMD_ABORT => ⟨.DMA_CH_CMD, 0, 0, .wo, 0, false⟩
  | .DMA_CH_RING => ⟨.DMA_CH_RING, 63, 5, .rw, 0, false⟩
  | .DMA_CH_SIZE => ⟨.DMA_CH_SIZE, 3, 0, .rw, 2, false⟩
  | .DMA_CH_HEAD => ⟨.DMA_CH_HEAD, 11, 0, .ro, 0, false⟩
  | .DMA_CH_TAIL => ⟨.DMA_CH_TAIL, 11, 0, .rw, 0, false⟩
  | .DMA_CH_STAT_LAST_RESULT => ⟨.DMA_CH_STAT, 30, 28, .ro, 0, false⟩
  | .DMA_CH_STAT_STATE => ⟨.DMA_CH_STAT, 2, 0, .ro, 0, false⟩
  | .DMA_CH_EVT_BIND_BAD => ⟨.DMA_CH_EVT, 2, 2, .w1c, 0, false⟩
  | .DMA_CH_EVT_ERR => ⟨.DMA_CH_EVT, 1, 1, .w1c, 0, false⟩
  | .DMA_CH_EVT_DONE => ⟨.DMA_CH_EVT, 0, 0, .w1c, 0, false⟩
  | .DMA_CH_RBASE => ⟨.DMA_CH_RBASE, 63, 4, .rw, 0, false⟩
  | .DMA_CH_RSIZE => ⟨.DMA_CH_RSIZE, 3, 0, .rw, 2, false⟩
  | .DMA_CH_WR => ⟨.DMA_CH_WR, 11, 0, .ro, 0, false⟩
  | .DMA_CH_RD => ⟨.DMA_CH_RD, 11, 0, .rw, 0, false⟩
  | .DMA_CH_WRPTR_ADDR => ⟨.DMA_CH_WRPTR_ADDR, 63, 3, .rw, 0, false⟩
  | .DMA_CH_WRPTR_ADDR_EN => ⟨.DMA_CH_WRPTR_ADDR, 0, 0, .rw, 0, false⟩
  | .DMA_CH_CNT_BYTES => ⟨.DMA_CH_CNT_BYTES, 31, 0, .rc, 0, false⟩
  | .DMA_CH_CNT_DESC => ⟨.DMA_CH_CNT_DESC, 31, 0, .rc, 0, false⟩
  | .DMA_ENG_STAT_TAGS => ⟨.DMA_ENG_STAT, 21, 16, .ro, 0, false⟩
  | .DMA_ENG_STAT_QUOTA_SUM => ⟨.DMA_ENG_STAT, 6, 0, .ro, 0x40, false⟩
  | .DMA_ENG_EVT_BME_OFF => ⟨.DMA_ENG_EVT, 1, 1, .w1c, 0, false⟩
  | .DMA_ENG_EVT_QUOTA_BAD => ⟨.DMA_ENG_EVT, 0, 0, .w1c, 0, false⟩
  | .ACCESS_ERR_VALID => ⟨.ACCESS_ERR, 31, 31, .w1c, 0, false⟩
  | .ACCESS_ERR_LOST => ⟨.ACCESS_ERR, 30, 30, .ro, 0, false⟩
  | .ACCESS_ERR_SRC => ⟨.ACCESS_ERR, 23, 18, .ro, 0, false⟩
  | .ACCESS_ERR_KIND => ⟨.ACCESS_ERR, 15, 12, .ro, 0, false⟩
  | .ACCESS_ERR_BE => ⟨.ACCESS_ERR, 11, 8, .ro, 0, false⟩
  | .ACCESS_ERR_WRITE => ⟨.ACCESS_ERR, 0, 0, .ro, 0, false⟩
  | .ACCESS_ERR_ADDR_OFFSET => ⟨.ACCESS_ERR_ADDR, 23, 0, .ro, 0, false⟩
  | .ACCESS_ERR_CNT => ⟨.ACCESS_ERR_CNT, 31, 0, .rc, 0, false⟩
  | .MSPI_STAT_LAST_CAUSE => ⟨.MSPI_STAT, 1, 0, .ro, 0, false⟩
  | .MSPI_CNT_FRAME => ⟨.MSPI_CNT_FRAME, 31, 0, .rc, 0, false⟩
  | .MSPI_CNT_CMD => ⟨.MSPI_CNT_CMD, 31, 0, .rc, 0, false⟩
  | .FENCE_TOKEN => ⟨.FENCE, 15, 0, .wo, 0, false⟩
  | .FENCE_DONE => ⟨.FENCE_DONE, 15, 0, .ro, 0, true⟩
  | .PCIE_STAT_HO_ACTIVE => ⟨.PCIE_STAT, 20, 20, .ro, 0, false⟩
  | .PCIE_STAT_FLR_PENDING => ⟨.PCIE_STAT, 19, 16, .ro, 0, false⟩
  | .PCIE_STAT_CLK_SEP => ⟨.PCIE_STAT, 9, 9, .ro, 0, false⟩
  | .PCIE_STAT_LINK_UP => ⟨.PCIE_STAT, 8, 8, .ro, 0, false⟩
  | .PCIE_STAT_WIDTH => ⟨.PCIE_STAT, 5, 4, .ro, 0, false⟩
  | .PCIE_STAT_SPEED => ⟨.PCIE_STAT, 2, 0, .ro, 0, false⟩
  | .PCIE_EVT_FOREIGN => ⟨.PCIE_EVT, 9, 9, .w1c, 0, true⟩
  | .PCIE_EVT_HO_FALLBACK => ⟨.PCIE_EVT, 8, 8, .w1c, 0, true⟩
  | .PCIE_EVT_FLR_DONE => ⟨.PCIE_EVT, 7, 4, .w1c, 0, true⟩
  | .PCIE_EVT_LINK_UP => ⟨.PCIE_EVT, 1, 1, .w1c, 0, true⟩
  | .PCIE_EVT_LINK_DOWN => ⟨.PCIE_EVT, 0, 0, .w1c, 0, true⟩
  | .PCIE_CLK_CFG_SEL => ⟨.PCIE_CLK_CFG, 1, 0, .rw, 0, true⟩
  | .PCIE_FLR_CFG_HO_EN => ⟨.PCIE_FLR_CFG, 31, 31, .rw, 1, true⟩
  | .PCIE_FLR_CFG_HO_MS => ⟨.PCIE_FLR_CFG, 6, 0, .rw, 0x32, true⟩
  | .PCIE_FOREIGN_CNT => ⟨.PCIE_FOREIGN, 31, 0, .rc, 0, false⟩
  | .PCIE_FOREIGN_ADDR_WRITE => ⟨.PCIE_FOREIGN_ADDR, 31, 31, .ro, 0, false⟩
  | .PCIE_FOREIGN_ADDR_FUNC => ⟨.PCIE_FOREIGN_ADDR, 25, 24, .ro, 0, false⟩
  | .PCIE_FOREIGN_ADDR_OFFSET => ⟨.PCIE_FOREIGN_ADDR, 23, 0, .ro, 0, false⟩
  | .PAIR_STAT_PARTNER_STATE => ⟨.PAIR_STAT, 26, 24, .ro, 7, false⟩
  | .PAIR_STAT_SLOT => ⟨.PAIR_STAT, 18, 16, .ro, 0, false⟩
  | .PAIR_STAT_PRESENT => ⟨.PAIR_STAT, 12, 12, .ro, 0, false⟩
  | .PAIR_STAT_PEER_DEN_OK => ⟨.PAIR_STAT, 11, 11, .ro, 0, false⟩
  | .PAIR_STAT_PEER_LEAD => ⟨.PAIR_STAT, 10, 10, .ro, 0, false⟩
  | .PAIR_STAT_LINK_UP => ⟨.PAIR_STAT, 9, 9, .ro, 0, false⟩
  | .PAIR_STAT_ROLE => ⟨.PAIR_STAT, 8, 8, .ro, 0, false⟩
  | .PAIR_STAT_STATE => ⟨.PAIR_STAT, 2, 0, .ro, 1, false⟩
  | .PAIR_CFG_JOIN_EN => ⟨.PAIR_CFG, 31, 31, .rw, 1, false⟩
  | .PAIR_CFG_FORCE_EN => ⟨.PAIR_CFG, 30, 30, .rw, 1, false⟩
  | .PAIR_CFG_DEN_HOLD => ⟨.PAIR_CFG, 29, 29, .rw, 0, false⟩
  | .PAIR_CFG_IDLE_WAIT_MS => ⟨.PAIR_CFG, 23, 16, .rw, 0x14, false⟩
  | .PAIR_CFG_JOIN_CYC => ⟨.PAIR_CFG, 15, 12, .rw, 1, false⟩
  | .PAIR_CFG_DIG_SHIFT => ⟨.PAIR_CFG, 4, 0, .rw, 0x10, false⟩
  | .PAIR_GUARD_HO_GUARD => ⟨.PAIR_GUARD, 15, 0, .rw, 0x7d0, false⟩
  | .PAIR_RESUME_RESUME_MIN => ⟨.PAIR_RESUME, 23, 0, .rw, 0x4e20, false⟩
  | .PAIR_NORESUME => ⟨.PAIR_NORESUME, 31, 0, .rw, 0, false⟩
  | .PAIR_CMD_JOIN_ABORT => ⟨.PAIR_CMD, 1, 1, .wo, 0, false⟩
  | .PAIR_CMD_HANDOVER => ⟨.PAIR_CMD, 0, 0, .wo, 0, false⟩
  | .PAIR_EVT => ⟨.PAIR_EVT, 7, 0, .w1c, 0, false⟩
  | .PAIR_TAKE_TOOK => ⟨.PAIR_TAKE, 31, 31, .ro, 0, false⟩
  | .PAIR_TAKE_CAUSE => ⟨.PAIR_TAKE, 27, 24, .ro, 0, false⟩
  | .PAIR_TAKE_TIME_TNOW => ⟨.PAIR_TAKE_TIME, 63, 0, .ro, 0, false⟩
  | .PAIR_DIG_CYC => ⟨.PAIR_DIG, 31, 16, .ro, 0, false⟩
  | .PAIR_DIG_POS => ⟨.PAIR_DIG, 15, 6, .ro, 0, false⟩
  | .PAIR_DIG_MISSING => ⟨.PAIR_DIG, 5, 5, .ro, 0, false⟩
  | .PAIR_DIG_SLOTS => ⟨.PAIR_DIG, 4, 4, .ro, 0, false⟩
  | .PAIR_DIG_LEVELS => ⟨.PAIR_DIG, 3, 3, .ro, 0, false⟩
  | .PAIR_DIG_POSITION => ⟨.PAIR_DIG, 2, 2, .ro, 0, false⟩
  | .PAIR_DIG_DOMAIN => ⟨.PAIR_DIG, 1, 0, .ro, 0, false⟩
  | .PAIR_CNT_DIG_MATCH => ⟨.PAIR_CNT_DIG_MATCH, 31, 0, .rc, 0, false⟩
  | .PAIR_CNT_DIG_MISMATCH => ⟨.PAIR_CNT_DIG_MISMATCH, 31, 0, .rc, 0, false⟩
  | .PAIR_CNT_DIG_SUSP => ⟨.PAIR_CNT_DIG_SUSP, 31, 0, .rc, 0, false⟩
  | .PAIR_CNT_DIG_MISSING => ⟨.PAIR_CNT_DIG_MISSING, 31, 0, .rc, 0, false⟩
  | .PAIR_CNT_HB_MISS => ⟨.PAIR_CNT_HB_MISS, 31, 0, .rc, 0, false⟩
  | .PAIR_CNT_LINK_CRC => ⟨.PAIR_CNT_LINK_CRC, 31, 0, .rc, 0, false⟩
  | .PAIR_CNT_RETRY => ⟨.PAIR_CNT_RETRY, 31, 0, .rc, 0, false⟩
  | .PAIR_CNT_RESUMED => ⟨.PAIR_CNT_RESUMED, 31, 0, .rc, 0, false⟩
  | .PAIR_CNT_RESUME_CUT => ⟨.PAIR_CNT_RESUME_CUT, 31, 0, .rc, 0, false⟩
  | .PAIR_JOIN_KIB => ⟨.PAIR_JOIN, 10, 0, .ro, 0, false⟩
  | .RMGR_STAT_SRC => ⟨.RMGR_STAT, 16, 8, .ro, 0, false⟩
  | .RMGR_STAT_HEALTH => ⟨.RMGR_STAT, 2, 0, .ro, 0, false⟩
  | .RMGR_CNT_REFRESH_CNT => ⟨.RMGR_CNT_REFRESH, 31, 0, .rc, 0, false⟩
  | .PWR_STAT_SUP_LIMIT => ⟨.PWR_STAT, 11, 8, .ro, 0, false⟩
  | .PWR_STAT_SUP_OFF => ⟨.PWR_STAT, 7, 4, .ro, 0, false⟩
  | .PWR_STAT_SUP_ON => ⟨.PWR_STAT, 3, 0, .ro, 0, false⟩
  | .PWR_SUP_CFG_DORMANT_ON => ⟨.PWR_SUP_CFG, 7, 4, .rw, 0, true⟩
  | .PWR_SUP_CFG_EN => ⟨.PWR_SUP_CFG, 3, 0, .rw, 0, true⟩
  | .PWR_EVT_WOKE => ⟨.PWR_EVT, 5, 5, .w1c, 0, true⟩
  | .PWR_EVT_CLK_FAIL => ⟨.PWR_EVT, 4, 4, .w1c, 0, true⟩
  | .PWR_EVT_SUP_FAULT => ⟨.PWR_EVT, 3, 0, .w1c, 0, true⟩
  | .PWR_WAKE_CFG_TIMER_EN => ⟨.PWR_WAKE_CFG, 31, 31, .rw, 0, true⟩
  | .PWR_WAKE_CFG_PIN_EN => ⟨.PWR_WAKE_CFG, 30, 30, .rw, 0, true⟩
  | .PWR_WAKE_CFG_THR => ⟨.PWR_WAKE_CFG, 19, 16, .rw, 1, true⟩
  | .PWR_WAKE_CFG_WIN_MASK => ⟨.PWR_WAKE_CFG, 7, 0, .rw, 0, true⟩
  | .PWR_WAKE_TIMER_SECONDS => ⟨.PWR_WAKE_TIMER, 15, 0, .rw, 0xe10, true⟩
  | .PWR_WAKE_STAT_DURING_ENTRY => ⟨.PWR_WAKE_STAT, 11, 11, .ro, 0, true⟩
  | .PWR_WAKE_STAT_CAUSE => ⟨.PWR_WAKE_STAT, 10, 8, .ro, 0, true⟩
  | .PWR_WAKE_STAT_WIN => ⟨.PWR_WAKE_STAT, 2, 0, .ro, 0, true⟩
  | .PWR_VIN => ⟨.PWR_VIN, 15, 0, .ro, 0, false⟩
  | .CLK_STAT_LAST_FAIL => ⟨.CLK_STAT, 10, 8, .ro, 0, true⟩
  | .CLK_STAT_MON_OK => ⟨.CLK_STAT, 4, 4, .ro, 0, false⟩
  | .CLK_STAT_PER_LOCK => ⟨.CLK_STAT, 3, 3, .ro, 0, false⟩
  | .CLK_STAT_SEQ_LOCK => ⟨.CLK_STAT, 2, 2, .ro, 0, false⟩
  | .CLK_STAT_EV_LOCK => ⟨.CLK_STAT, 1, 1, .ro, 0, false⟩
  | .CLK_STAT_REF_OK => ⟨.CLK_STAT, 0, 0, .ro, 0, false⟩
  | .TNOW => ⟨.TNOW, 63, 0, .ro, 0, true⟩
  | .ELOG_WR => ⟨.ELOG_WR, 15, 0, .ro, 0, true⟩
  | .ELOG_RD => ⟨.ELOG_RD, 15, 0, .rw, 0, true⟩
  | .ELOG_OVF => ⟨.ELOG_OVF, 15, 0, .rc, 0, true⟩
  | .ELOG_TIME => ⟨.ELOG_TIME, 63, 0, .ro, 0, true⟩
  | .ELOG_HEAD_CODE => ⟨.ELOG_HEAD, 31, 24, .ro, 0, true⟩
  | .ELOG_HEAD_INDEX => ⟨.ELOG_HEAD, 23, 16, .ro, 0, true⟩
  | .ELOG_HEAD_MODE => ⟨.ELOG_HEAD, 10, 8, .ro, 0, true⟩
  | .ELOG_HEAD_SUB => ⟨.ELOG_HEAD, 7, 0, .ro, 0, true⟩
  | .ELOG_DETAIL => ⟨.ELOG_DETAIL, 31, 0, .ro, 0, true⟩
  | .ID_DEVICE => ⟨.ID_DEVICE, 31, 0, .ro, 0x4e4b9600, false⟩
  | .ID_REV_MAJOR => ⟨.ID_REV, 15, 8, .ro, 1, false⟩
  | .ID_REV_MINOR => ⟨.ID_REV, 7, 0, .ro, 0, false⟩
  | .ID_SERIAL => ⟨.ID_SERIAL, 63, 0, .ro, 0, false⟩
  | .ID_CAPS_SEQS => ⟨.ID_CAPS, 31, 24, .ro, 0x18, false⟩
  | .ID_CAPS_OUTS => ⟨.ID_CAPS, 23, 16, .ro, 0x60, false⟩
  | .ID_CAPS_ADCS => ⟨.ID_CAPS, 15, 8, .ro, 0x18, false⟩
  | .ID_CAPS_DOMAINS => ⟨.ID_CAPS, 7, 4, .ro, 4, false⟩
  | .ID_TAP_VERSION => ⟨.ID_TAP, 31, 28, .ro, 1, false⟩
  | .ID_TAP_PART => ⟨.ID_TAP, 27, 12, .ro, 0x9600, false⟩
  | .ID_TAP_MANUF => ⟨.ID_TAP, 11, 1, .ro, 0x3a5, false⟩
  | .ID_TAP_ONE => ⟨.ID_TAP, 0, 0, .ro, 1, false⟩
  | .SCRATCH => ⟨.SCRATCH, 31, 0, .rw, 0, false⟩
  | .DBG_STAT_CLK_STOPPED => ⟨.DBG_STAT, 1, 1, .ro, 0, true⟩
  | .DBG_STAT_HALTED => ⟨.DBG_STAT, 0, 0, .ro, 0, true⟩

/-- The width of a field in bits. -/
def Fld.width (f : Fld) : Nat := f.info.hi + 1 - f.info.lo

/-- The value of a field of instance `i` after power-on reset. The coefficients j = 0 are 0x40_0000 (R227), and
OUT_DEPTH is 4 on IOE0 to IOE3 and 1 on the others (R288). -/
def Fld.resetAt (f : Fld) (i : Nat) : Nat :=
  match f with
  | .ADC_COEF => if i % 1024 % 5 = 0 then 0x400000 else 0
  | .IOE_CTRL_OUT_DEPTH => if i % 1024 < 4 then 4 else 1
  | .PAIR_STAT_SLOT => 7
  | g => g.info.reset

/-- What the register tables say of one register. -/
structure RegRow where
  /-- The offset of instance 0 in the unified map. -/
  base : Nat
  /-- Count and stride of each index, outermost first. -/
  dims : List (Nat × Nat)
  /-- 32-bit words: 2 for a 64-bit pair. -/
  words : Nat
  /-- The PCIe function that owns the block. -/
  owner : Nat
  /-- Its fields; reserved bits lie in none. -/
  fields : List Fld
  deriving DecidableEq, Repr

/-- The row of a register. -/
def Reg.row : Reg → RegRow
  | .WFE_CFG => ⟨0x48000, [(8, 0x100)], 1, 1, [.WFE_CFG_THR_FLOOR, .WFE_CFG_THR_FRAC, .WFE_CFG_PULLUP, .WFE_CFG_INVERT, .WFE_CFG_MODE]⟩
  | .WFE_STAT => ⟨0x48004, [(8, 0x100)], 1, 1, [.WFE_STAT_CLAMP, .WFE_STAT_ARMED, .WFE_STAT_PEAK]⟩
  | .WFE_STAMP => ⟨0x48008, [(8, 0x100)], 2, 1, [.WFE_STAMP]⟩
  | .WFE_CROSS => ⟨0x48010, [(8, 0x100)], 1, 1, [.WFE_CROSS]⟩
  | .AD_INPUTS => ⟨0x40000, [(4, 0x1000)], 1, 1, [.AD_INPUTS_PH_EN, .AD_INPUTS_PH_EDGE, .AD_INPUTS_PH_WIN, .AD_INPUTS_PRI_EDGE, .AD_INPUTS_PRI_WIN]⟩
  | .AD_CFG => ⟨0x40004, [(4, 0x1000)], 1, 1, [.AD_CFG_PHASE_ONLY_EN, .AD_CFG_WHEEL_ON_CAM, .AD_CFG_CRITICAL, .AD_CFG_CYCLE_720]⟩
  | .AD_EDGEF => ⟨0x40008, [(4, 0x1000)], 1, 1, [.AD_EDGEF_PH_FILT, .AD_EDGEF_PRI_FILT]⟩
  | .AD_BLANK => ⟨0x4000c, [(4, 0x1000)], 1, 1, [.AD_BLANK_PH_BLANK, .AD_BLANK_PRI_BLANK]⟩
  | .AD_MAPCFG => ⟨0x40010, [(4, 0x1000)], 1, 1, [.AD_MAPCFG_PH_RATIO_TOL, .AD_MAPCFG_PLEN, .AD_MAPCFG_TLEN]⟩
  | .AD_TMAP_OFFSET => ⟨0x40014, [(4, 0x1000)], 1, 1, [.AD_TMAP_OFFSET]⟩
  | .AD_SYNC_CFG => ⟨0x40018, [(4, 0x1000)], 1, 1, [.AD_SYNC_CFG_PH_CONFIRM, .AD_SYNC_CFG_PH_FLIP_REVS, .AD_SYNC_CFG_ACQ_CONFIRM]⟩
  | .AD_STALL => ⟨0x4001c, [(4, 0x1000)], 1, 1, [.AD_STALL_STALL_MS]⟩
  | .AD_SYNC_STAT => ⟨0x40020, [(4, 0x1000)], 1, 1, [.AD_SYNC_STAT_PH_POS, .AD_SYNC_STAT_POS, .AD_SYNC_STAT_LOSS_CAUSE, .AD_SYNC_STAT_ANGLE_VALID, .AD_SYNC_STAT_REV, .AD_SYNC_STAT_PH_LOCK, .AD_SYNC_STAT_CRANK_LOCK, .AD_SYNC_STAT_STATE]⟩
  | .AD_CMD => ⟨0x40024, [(4, 0x1000)], 1, 1, [.AD_CMD_RESEED, .AD_CMD_DESYNC]⟩
  | .AD_FAULT => ⟨0x40028, [(4, 0x1000)], 1, 1, [.AD_FAULT_COARSE, .AD_FAULT_PH_LOST, .AD_FAULT_ACQ_RESTART, .AD_FAULT_MAP_INVALID, .AD_FAULT_PHASE_MISMATCH, .AD_FAULT_PHASE_FLIP, .AD_FAULT_STALL, .AD_FAULT_MISSING_GAP, .AD_FAULT_UNEXP_GAP]⟩
  | .AD_CNT_FILT => ⟨0x40030, [(4, 0x1000)], 1, 1, [.AD_CNT_FILT]⟩
  | .AD_CNT_BLANK => ⟨0x40034, [(4, 0x1000)], 1, 1, [.AD_CNT_BLANK]⟩
  | .AD_CNT_LOSS => ⟨0x40038, [(4, 0x1000)], 1, 1, [.AD_CNT_LOSS]⟩
  | .AD_CNT_PHMIS => ⟨0x4003c, [(4, 0x1000)], 1, 1, [.AD_CNT_PHMIS]⟩
  | .AD_LAST_PERIOD => ⟨0x40040, [(4, 0x1000)], 1, 1, [.AD_LAST_PERIOD]⟩
  | .AD_LAST_RATIO => ⟨0x40044, [(4, 0x1000)], 1, 1, [.AD_LAST_RATIO]⟩
  | .AD_CNT_RESTART => ⟨0x40048, [(4, 0x1000)], 1, 1, [.AD_CNT_RESTART]⟩
  | .AD_EST_CFG => ⟨0x40100, [(4, 0x1000)], 1, 1, [.AD_EST_CFG_JUMP_WARN, .AD_EST_CFG_DEPTH]⟩
  | .AD_EST_COEF => ⟨0x40104, [(4, 0x1000)], 1, 1, [.AD_EST_COEF_BETA, .AD_EST_COEF_ALPHA]⟩
  | .AD_ANGLE => ⟨0x40108, [(4, 0x1000)], 1, 1, [.AD_ANGLE]⟩
  | .AD_ANGLE_FRAC => ⟨0x4010c, [(4, 0x1000)], 1, 1, [.AD_ANGLE_FRAC]⟩
  | .AD_RATE => ⟨0x40110, [(4, 0x1000)], 1, 1, [.AD_RATE]⟩
  | .AD_ACC => ⟨0x40114, [(4, 0x1000)], 1, 1, [.AD_ACC]⟩
  | .AD_RPM => ⟨0x40118, [(4, 0x1000)], 1, 1, [.AD_RPM]⟩
  | .AD_PRED => ⟨0x4011c, [(4, 0x1000)], 1, 1, [.AD_PRED]⟩
  | .AD_LAST_ERR => ⟨0x40120, [(4, 0x1000)], 1, 1, [.AD_LAST_ERR]⟩
  | .AD_LAST_JUMP => ⟨0x40124, [(4, 0x1000)], 1, 1, [.AD_LAST_JUMP]⟩
  | .AD_CYC => ⟨0x40128, [(4, 0x1000)], 1, 1, [.AD_CYC]⟩
  | .AD_EST_STAT => ⟨0x4012c, [(4, 0x1000)], 1, 1, [.AD_EST_STAT_HIST, .AD_EST_STAT_PRED_VALID, .AD_EST_STAT_PH_SOURCE, .AD_EST_STAT_EXTRAP, .AD_EST_STAT_CLAMPED]⟩
  | .AD_EST_FAULT => ⟨0x40130, [(4, 0x1000)], 1, 1, [.AD_EST_FAULT_WRAPPED, .AD_EST_FAULT_PRED_LIMIT, .AD_EST_FAULT_JUMP_WARN]⟩
  | .AD_CNT_CLAMP => ⟨0x40134, [(4, 0x1000)], 1, 1, [.AD_CNT_CLAMP]⟩
  | .AD_CNT_JUMP => ⟨0x40138, [(4, 0x1000)], 1, 1, [.AD_CNT_JUMP]⟩
  | .AD_CNT_JUMP_WARN => ⟨0x4013c, [(4, 0x1000)], 1, 1, [.AD_CNT_JUMP_WARN]⟩
  | .AD_TCL_CFG => ⟨0x40180, [(4, 0x1000)], 1, 1, [.AD_TCL_CFG_ACC_BAND, .AD_TCL_CFG_LEARN_REVS, .AD_TCL_CFG_GATE_EN, .AD_TCL_CFG_GATE, .AD_TCL_CFG_AUTO_SWAP, .AD_TCL_CFG_APPLY_EN, .AD_TCL_CFG_LEARN_EN]⟩
  | .AD_TCL_BOUND => ⟨0x40184, [(4, 0x1000)], 1, 1, [.AD_TCL_BOUND]⟩
  | .AD_TCL_CMD => ⟨0x40188, [(4, 0x1000)], 1, 1, [.AD_TCL_CMD_RESTART, .AD_TCL_CMD_SWAP]⟩
  | .AD_TCL_STAT => ⟨0x4018c, [(4, 0x1000)], 1, 1, [.AD_TCL_STAT_REVS_DONE, .AD_TCL_STAT_WRITING, .AD_TCL_STAT_BACK_COMPLETE, .AD_TCL_STAT_SWAP_PENDING, .AD_TCL_STAT_FRONT]⟩
  | .AD_TCL_FAULT => ⟨0x40190, [(4, 0x1000)], 1, 1, [.AD_TCL_FAULT_SWAP_REFUSED, .AD_TCL_FAULT_HOST_REJECT, .AD_TCL_FAULT_OUT_OF_BOUND]⟩
  | .AD_TCL_CNT_SWAP => ⟨0x40194, [(4, 0x1000)], 1, 1, [.AD_TCL_CNT_SWAP]⟩
  | .AD_TCL_CNT_REJREV => ⟨0x40198, [(4, 0x1000)], 1, 1, [.AD_TCL_CNT_REJREV]⟩
  | .SEQ_CTRL => ⟨0x100000, [(24, 0x400)], 1, 1, [.SEQ_CTRL_FAULT_HALT, .SEQ_CTRL_DOMAIN]⟩
  | .SEQ_CMD => ⟨0x100004, [(24, 0x400)], 1, 1, [.SEQ_CMD_RESET, .SEQ_CMD_START]⟩
  | .SEQ_STAT => ⟨0x100008, [(24, 0x400)], 1, 1, [.SEQ_STAT_STATE, .SEQ_STAT_BANK, .SEQ_STAT_PC]⟩
  | .SEQ_ENTRY => ⟨0x10000c, [(24, 0x400)], 1, 1, [.SEQ_ENTRY_ENTRY1, .SEQ_ENTRY_ENTRY0]⟩
  | .SEQ_FAULT => ⟨0x100010, [(24, 0x400)], 1, 1, [.SEQ_FAULT_NORATE, .SEQ_FAULT_DIV0, .SEQ_FAULT_MAP_ECC, .SEQ_FAULT_MAP_FMT, .SEQ_FAULT_ADDR, .SEQ_FAULT_PROG_ECC, .SEQ_FAULT_ILLEGAL]⟩
  | .SEQ_FAULT_PC => ⟨0x100014, [(24, 0x400)], 1, 1, [.SEQ_FAULT_PC_CAUSE, .SEQ_FAULT_PC_BANK, .SEQ_FAULT_PC]⟩
  | .SEQ_CNT_CYC => ⟨0x100018, [(24, 0x400)], 1, 1, [.SEQ_CNT_CYC]⟩
  | .SEQ_CNT_STALL => ⟨0x10001c, [(24, 0x400)], 1, 1, [.SEQ_CNT_STALL]⟩
  | .SEQ_CNT_ECC => ⟨0x100020, [(24, 0x400)], 1, 1, [.SEQ_CNT_ECC]⟩
  | .SEQ_XREG => ⟨0x100040, [(24, 0x400), (16, 0x4)], 1, 1, [.SEQ_XREG]⟩
  | .SEQ_TASK_CFG => ⟨0x100080, [(24, 0x400)], 1, 1, [.SEQ_TASK_CFG_OVERRUN_CLEAR]⟩
  | .SEQ_TASK_STAT => ⟨0x100084, [(24, 0x400)], 1, 1, [.SEQ_TASK_STAT_COALESCE, .SEQ_TASK_STAT_TOOTH_PENDING, .SEQ_TASK_STAT_YIELDED, .SEQ_TASK_STAT_IN_TASK]⟩
  | .SEQ_BUDGET => ⟨0x100088, [(24, 0x400)], 1, 1, [.SEQ_BUDGET_ALLOW]⟩
  | .SEQ_TASK_MAX => ⟨0x10008c, [(24, 0x400)], 1, 1, [.SEQ_TASK_MAX]⟩
  | .SEQ_TASK_FLT => ⟨0x100090, [(24, 0x400)], 1, 1, [.SEQ_TASK_FLT_BAD_WAIT, .SEQ_TASK_FLT_HANDOVER_FAIL, .SEQ_TASK_FLT_BAD_CHANNEL, .SEQ_TASK_FLT_BAD_LIMIT, .SEQ_TASK_FLT_SLOT_EXHAUST, .SEQ_TASK_FLT_BUDGET_OVER, .SEQ_TASK_FLT_OVERRUN]⟩
  | .SEQ_CNT_OVERRUN => ⟨0x100094, [(24, 0x400)], 1, 1, [.SEQ_CNT_OVERRUN]⟩
  | .SEQ_CNT_BUDGET => ⟨0x100098, [(24, 0x400)], 1, 1, [.SEQ_CNT_BUDGET]⟩
  | .SEQ_CNT_EXHAUST => ⟨0x10009c, [(24, 0x400)], 1, 1, [.SEQ_CNT_EXHAUST]⟩
  | .SEQ_CNT_COALESCED => ⟨0x1000a0, [(24, 0x400)], 1, 1, [.SEQ_CNT_COALESCED]⟩
  | .SEQ_SLOTS => ⟨0x1000a4, [(24, 0x400)], 1, 1, [.SEQ_SLOTS_PEAK, .SEQ_SLOTS_IN_USE]⟩
  | .SEQ_FLAGS => ⟨0x1000a8, [(24, 0x400)], 1, 1, [.SEQ_FLAGS]⟩
  | .SEQ_FLAGS_SET => ⟨0x1000ac, [(24, 0x400)], 1, 1, [.SEQ_FLAGS_SET_FLAGS]⟩
  | .SEQ_SWAP => ⟨0x1000b0, [(24, 0x400)], 1, 1, [.SEQ_SWAP_REQ]⟩
  | .SEQ_SWAP_STAT => ⟨0x1000b4, [(24, 0x400)], 1, 1, [.SEQ_SWAP_STAT_MISSED, .SEQ_SWAP_STAT_PENDING]⟩
  | .SEQ_MODECFG => ⟨0x1000c0, [(24, 0x400)], 1, 1, [.SEQ_MODECFG_LIMP_CAPABLE]⟩
  | .SEQ_MODE_STAT => ⟨0x1000c4, [(24, 0x400)], 1, 1, [.SEQ_MODE_STAT_APPLY_CNT, .SEQ_MODE_STAT_APPLIED]⟩
  | .SEQ_SLOT_TARGET => ⟨0x100200, [(24, 0x400), (64, 0x8)], 1, 1, [.SEQ_SLOT_TARGET]⟩
  | .SEQ_SLOT_STATE => ⟨0x100204, [(24, 0x400), (64, 0x8)], 1, 1, [.SEQ_SLOT_STATE_ARMED, .SEQ_SLOT_STATE_KIND, .SEQ_SLOT_STATE_ARG, .SEQ_SLOT_STATE_FRAC, .SEQ_SLOT_STATE_GEN, .SEQ_SLOT_STATE_PARTNER]⟩
  | .MAPM_ECC_CNT => ⟨0x106000, [], 1, 1, [.MAPM_ECC_CNT_CORR]⟩
  | .MAPM_ECC_ADDR => ⟨0x106004, [], 1, 1, [.MAPM_ECC_ADDR]⟩
  | .OUT_OWNER => ⟨0x110000, [(96, 0x40)], 1, 1, [.OUT_OWNER_OWNED, .OUT_OWNER_SEQ]⟩
  | .OUT_POLICY => ⟨0x110004, [(96, 0x40)], 1, 1, [.OUT_POLICY_EMIT_MIN, .OUT_POLICY_END]⟩
  | .OUT_CAP => ⟨0x110008, [(96, 0x40)], 1, 1, [.OUT_CAP_COMPLETE_CAP]⟩
  | .OUT_STAT => ⟨0x11000c, [(96, 0x40)], 1, 1, [.OUT_STAT_LATE_SKIP, .OUT_STAT_OWN_CANCEL, .OUT_STAT_COMPLETING, .OUT_STAT_HELD, .OUT_STAT_DRIVING, .OUT_STAT_INHIBIT, .OUT_STAT_LEVEL]⟩
  | .OUT_CNT_EDGES => ⟨0x110010, [(96, 0x40)], 1, 1, [.OUT_CNT_EDGES]⟩
  | .OUT_CNT_STRETCH => ⟨0x110014, [(96, 0x40)], 1, 1, [.OUT_CNT_STRETCH]⟩
  | .OUT_CNT_INHIBIT => ⟨0x110018, [(96, 0x40)], 1, 1, [.OUT_CNT_INHIBIT]⟩
  | .OUT_LAST_EDGE => ⟨0x110020, [(96, 0x40)], 2, 1, [.OUT_LAST_EDGE_STAMP, .OUT_LAST_EDGE_RISING]⟩
  | .SVC_CFG => ⟨0x114000, [(64, 0x10)], 1, 1, [.SVC_CFG_EN, .SVC_CFG_REPEAT, .SVC_CFG_ACT, .SVC_CFG_DOMAIN, .SVC_CFG_BASIN]⟩
  | .SVC_TARGET => ⟨0x114004, [(64, 0x10)], 1, 1, [.SVC_TARGET]⟩
  | .SVC_STAMP => ⟨0x114008, [(64, 0x10)], 1, 1, [.SVC_STAMP]⟩
  | .SPILL_STAT => ⟨0x118000, [], 1, 1, [.SPILL_STAT_DEN_OK, .SPILL_STAT_DEVICE_HOLD, .SPILL_STAT_DOMAIN_HOLD, .SPILL_STAT_LAST_PATH]⟩
  | .SPILL_CNT => ⟨0x118004, [], 1, 1, [.SPILL_CNT]⟩
  | .SPILL_LAST => ⟨0x118008, [], 2, 1, [.SPILL_LAST_TNOW]⟩
  | .OUT_DELAY => ⟨0x118010, [], 1, 1, [.OUT_DELAY]⟩
  | .MODE_REQ => ⟨0x100, [], 1, 0, [.MODE_REQ_IMMEDIATE, .MODE_REQ_DOMAIN, .MODE_REQ_TARGET]⟩
  | .MODE_EPOCH => ⟨0x104, [], 1, 0, [.MODE_EPOCH_ANGLE]⟩
  | .MODE_STAT => ⟨0x108, [], 1, 0, [.MODE_STAT_CLEAR_CAUSE, .MODE_STAT_TARGET, .MODE_STAT_EPOCH_PENDING, .MODE_STAT_TRANSITION, .MODE_STAT_MODE]⟩
  | .MODE_APPLIED => ⟨0x10c, [], 1, 0, [.MODE_APPLIED]⟩
  | .MODE_LAG => ⟨0x110, [], 1, 0, [.MODE_LAG]⟩
  | .MODE_CFG => ⟨0x114, [], 1, 0, [.MODE_CFG_RUN_REVS, .MODE_CFG_LIMP_TEETH, .MODE_CFG_TIMEOUT_CYC, .MODE_CFG_EPOCH_DOM, .MODE_CFG_LIMP_EN, .MODE_CFG_AUTO_RUN]⟩
  | .MODE_TMO => ⟨0x118, [], 1, 0, [.MODE_TMO_TIMEOUT_MS]⟩
  | .MODE_FAULT => ⟨0x11c, [], 1, 0, [.MODE_FAULT_SUPERSEDED, .MODE_FAULT_EPOCH_LOST, .MODE_FAULT_TIMEOUT, .MODE_FAULT_EPOCH_INVALID, .MODE_FAULT_REFUSED]⟩
  | .MODE_CNT => ⟨0x120, [], 1, 0, [.MODE_CNT_TRANS]⟩
  | .ADC_CFG => ⟨0x140000, [(24, 0x100)], 1, 2, [.ADC_CFG_EN, .ADC_CFG_ILV, .ADC_CFG_LEN_M1]⟩
  | .ADC_CMD => ⟨0x140004, [(24, 0x100)], 1, 2, [.ADC_CMD_FLT_RESET, .ADC_CMD_CAL, .ADC_CMD_COMMIT]⟩
  | .ADC_STAT => ⟨0x140008, [(24, 0x100)], 1, 2, [.ADC_STAT_SETTLE_DROP, .ADC_STAT_FLT_SAT, .ADC_STAT_COMMIT_REFUSED, .ADC_STAT_CAL_FAIL, .ADC_STAT_ILV_ACTIVE, .ADC_STAT_CAL_BUSY, .ADC_STAT_COMMIT_PENDING, .ADC_STAT_RUNNING]⟩
  | .ADC_ILV_SKEW => ⟨0x14000c, [(24, 0x100)], 1, 2, [.ADC_ILV_SKEW]⟩
  | .ADC_SEQ => ⟨0x140040, [(24, 0x100), (16, 0x4)], 1, 2, [.ADC_SEQ_SRC]⟩
  | .ADC_FLT_CFG => ⟨0x140080, [(24, 0x100)], 1, 2, [.ADC_FLT_CFG_BQ1_EN, .ADC_FLT_CFG_BQ0_EN]⟩
  | .ADC_COEF => ⟨0x1400a0, [(24, 0x100), (2, 0x20), (5, 0x4)], 1, 2, [.ADC_COEF]⟩
  | .AIN_CFG => ⟨0x142000, [(48, 0x4)], 1, 2, [.AIN_CFG_AAF, .AIN_CFG_RANGE]⟩
  | .BAS_CFG => ⟨0x150000, [(512, 0x40)], 1, 2, [.BAS_CFG_EN, .BAS_CFG_MODE, .BAS_CFG_DOMAIN, .BAS_CFG_WIN_SRC, .BAS_CFG_PWM_SEL, .BAS_CFG_IRQ, .BAS_CFG_FEED_EN, .BAS_CFG_FEED, .BAS_CFG_SHIFT, .BAS_CFG_TAP, .BAS_CFG_CONV, .BAS_CFG_ENTRY]⟩
  | .BAS_WOFFSET => ⟨0x150004, [(512, 0x40)], 1, 2, [.BAS_WOFFSET]⟩
  | .BAS_THR => ⟨0x150008, [(512, 0x40)], 1, 2, [.BAS_THR]⟩
  | .BAS_CMD => ⟨0x15000c, [(512, 0x40)], 1, 2, [.BAS_CMD_CLOSE_OPEN, .BAS_CMD_CLOSE, .BAS_CMD_OPEN]⟩
  | .BAS_STAT => ⟨0x150010, [(512, 0x40)], 1, 2, [.BAS_STAT_SEQ, .BAS_STAT_REFUSED, .BAS_STAT_DUP, .BAS_STAT_OVF, .BAS_STAT_ABORTED, .BAS_STAT_LATE_READ, .BAS_STAT_OPEN]⟩
  | .BAS_CNT_LATE => ⟨0x150014, [(512, 0x40)], 1, 2, [.BAS_CNT_LATE]⟩
  | .BAS_CNT_ABORT => ⟨0x150018, [(512, 0x40)], 1, 2, [.BAS_CNT_ABORT]⟩
  | .BAS_VALUE => ⟨0x150020, [(512, 0x40)], 2, 2, [.BAS_VALUE]⟩
  | .BAS_SAMPLES => ⟨0x150028, [(512, 0x40)], 1, 2, [.BAS_SAMPLES]⟩
  | .BAS_TAG => ⟨0x15002c, [(512, 0x40)], 1, 2, [.BAS_TAG_CYC, .BAS_TAG_SEQ, .BAS_TAG_LATE, .BAS_TAG_OVF, .BAS_TAG_BASIN]⟩
  | .TRK_CFG => ⟨0x158000, [(128, 0x20)], 1, 2, [.TRK_CFG_EN, .TRK_CFG_MODE, .TRK_CFG_DOMAIN, .TRK_CFG_BASIN, .TRK_CFG_TAP, .TRK_CFG_CONV, .TRK_CFG_ENTRY]⟩
  | .TRK_MAX => ⟨0x158004, [(128, 0x20)], 1, 2, [.TRK_MAX]⟩
  | .TRK_MAX_ANG => ⟨0x158008, [(128, 0x20)], 1, 2, [.TRK_MAX_ANG]⟩
  | .TRK_MIN => ⟨0x15800c, [(128, 0x20)], 1, 2, [.TRK_MIN]⟩
  | .TRK_MIN_ANG => ⟨0x158010, [(128, 0x20)], 1, 2, [.TRK_MIN_ANG]⟩
  | .TRK_TAG => ⟨0x158014, [(128, 0x20)], 1, 2, [.TRK_TAG_CYC, .TRK_TAG_SEQ, .TRK_TAG_ANG_INVALID, .TRK_TAG_EMPTY]⟩
  | .BAS_FEED_DATA => ⟨0x159000, [(4, 0x20)], 2, 2, [.BAS_FEED_DATA]⟩
  | .BAS_FEED_STAT => ⟨0x159008, [(4, 0x20)], 1, 2, [.BAS_FEED_STAT_UNDERRUN, .BAS_FEED_STAT_OVF, .BAS_FEED_STAT_LEVEL]⟩
  | .BAS_FEED_CNT_DROP => ⟨0x15900c, [(4, 0x20)], 1, 2, [.BAS_FEED_CNT_DROP]⟩
  | .BAS_CLOSED => ⟨0x159100, [(16, 0x4)], 1, 2, [.BAS_CLOSED]⟩
  | .WT_CMD => ⟨0x159200, [(4, 0x10)], 1, 2, [.WT_CMD_SWAP]⟩
  | .WT_STAT => ⟨0x159204, [(4, 0x10)], 1, 2, [.WT_STAT_REJECT, .WT_STAT_SETTLING, .WT_STAT_SWAP_PENDING, .WT_STAT_FRONT]⟩
  | .CMP_CFG => ⟨0x160000, [(32, 0x20)], 1, 3, [.CMP_CFG_FILT, .CMP_CFG_WIN_EN, .CMP_CFG_HYST, .CMP_CFG_INVERT, .CMP_CFG_SEL]⟩
  | .CMP_DAC => ⟨0x160004, [(32, 0x20)], 1, 3, [.CMP_DAC_RANGE, .CMP_DAC_CODE]⟩
  | .CMP_ROUTE => ⟨0x160008, [(32, 0x20)], 1, 3, [.CMP_ROUTE_TRIP_EN, .CMP_ROUTE_TRIP, .CMP_ROUTE_SRC_WIN, .CMP_ROUTE_IRQ_FALL, .CMP_ROUTE_IRQ_RISE]⟩
  | .CMP_STAT => ⟨0x16000c, [(32, 0x20)], 1, 3, [.CMP_STAT_WIN_BAD, .CMP_STAT_FALL, .CMP_STAT_RISE, .CMP_STAT_HOLD, .CMP_STAT_OUTSIDE, .CMP_STAT_VALID, .CMP_STAT_OUT]⟩
  | .CMP_CNT_EDGES => ⟨0x160010, [(32, 0x20)], 1, 3, [.CMP_CNT_EDGES]⟩
  | .PWM_CTRL => ⟨0x170000, [(16, 0x40)], 1, 3, [.PWM_CTRL_EN, .PWM_CTRL_LOCK, .PWM_CTRL_LOAD_MID, .PWM_CTRL_UPDOWN, .PWM_CTRL_COMPL, .PWM_CTRL_CLEAR_TRIP, .PWM_CTRL_TRIP_MASK]⟩
  | .PWM_PERIOD => ⟨0x170004, [(16, 0x40)], 1, 3, [.PWM_PERIOD]⟩
  | .PWM_CMPA => ⟨0x170008, [(16, 0x40)], 1, 3, [.PWM_CMPA]⟩
  | .PWM_CMPB => ⟨0x17000c, [(16, 0x40)], 1, 3, [.PWM_CMPB]⟩
  | .PWM_MARK1 => ⟨0x170010, [(16, 0x40)], 1, 3, [.PWM_MARK1]⟩
  | .PWM_MARK2 => ⟨0x170014, [(16, 0x40)], 1, 3, [.PWM_MARK2]⟩
  | .PWM_DEADTIME => ⟨0x170018, [(16, 0x40)], 1, 3, [.PWM_DEADTIME]⟩
  | .PWM_FORCE => ⟨0x17001c, [(16, 0x40)], 1, 3, [.PWM_FORCE_FB, .PWM_FORCE_FA]⟩
  | .PWM_OUTCFG => ⟨0x170020, [(16, 0x40)], 1, 3, [.PWM_OUTCFG_OE_B, .PWM_OUTCFG_POL_B, .PWM_OUTCFG_LEVEL_B, .PWM_OUTCFG_OD_B, .PWM_OUTCFG_OE_A, .PWM_OUTCFG_POL_A, .PWM_OUTCFG_LEVEL_A, .PWM_OUTCFG_OD_A]⟩
  | .PWM_CMD => ⟨0x170024, [(16, 0x40)], 1, 3, [.PWM_CMD_TRIP_SW, .PWM_CMD_TRIP_CLR]⟩
  | .PWM_STAT => ⟨0x170028, [(16, 0x40)], 1, 3, [.PWM_STAT_TRIP_CH, .PWM_STAT_BY_CLEARING, .PWM_STAT_BY_SW, .PWM_STAT_SHORT_B, .PWM_STAT_SHORT_A, .PWM_STAT_FORCE_BAD, .PWM_STAT_CLR_REFUSED, .PWM_STAT_RUNNING, .PWM_STAT_TRIPPED]⟩
  | .PWM_COUNT => ⟨0x17002c, [(16, 0x40)], 1, 3, [.PWM_COUNT_DOWN, .PWM_COUNT]⟩
  | .PWM_CNT_TRIP => ⟨0x170030, [(16, 0x40)], 1, 3, [.PWM_CNT_TRIP]⟩
  | .PWM_SYNC => ⟨0x170800, [], 1, 3, [.PWM_SYNC_RESTART]⟩
  | .TRIP_CFG => ⟨0x170810, [(8, 0x4)], 1, 3, [.TRIP_CFG_PIN_EN, .TRIP_CFG_PIN_INV, .TRIP_CFG_FILT]⟩
  | .TRIP_STAT => ⟨0x170840, [], 1, 3, [.TRIP_STAT_PIN, .TRIP_STAT_RAW, .TRIP_STAT_FILTERED]⟩
  | .IOE_CTRL => ⟨0x180000, [(16, 0x100)], 1, 3, [.IOE_CTRL_EN, .IOE_CTRL_OUT_DEPTH, .IOE_CTRL_GRP, .IOE_CTRL_ENTRY]⟩
  | .IOE_CMD => ⟨0x180004, [(16, 0x100)], 1, 3, [.IOE_CMD_RESET]⟩
  | .IOE_STAT => ⟨0x180008, [(16, 0x100)], 1, 3, [.IOE_STAT_POST_CNT, .IOE_STAT_SC, .IOE_STAT_INJ_PENDING, .IOE_STAT_TO, .IOE_STAT_STATE, .IOE_STAT_PC]⟩
  | .IOE_EVT => ⟨0x18000c, [(16, 0x100)], 1, 3, [.IOE_EVT_ILLEGAL, .IOE_EVT_IRQ, .IOE_EVT_LATE, .IOE_EVT_EDGE_OVR, .IOE_EVT_INJ_REFUSED, .IOE_EVT_INJ_LOST, .IOE_EVT_PIN_DENIED, .IOE_EVT_IN_UNDER, .IOE_EVT_IN_OVF, .IOE_EVT_OUT_UNDER, .IOE_EVT_OUT_OVF]⟩
  | .IOE_CLKDIV => ⟨0x180010, [(16, 0x100)], 1, 3, [.IOE_CLKDIV_DIV]⟩
  | .IOE_INJECT => ⟨0x180014, [(16, 0x100)], 1, 3, [.IOE_INJECT]⟩
  | .IOE_FLAGS => ⟨0x180018, [(16, 0x100)], 1, 3, [.IOE_FLAGS]⟩
  | .IOE_FLAGS_SET => ⟨0x18001c, [(16, 0x100)], 1, 3, [.IOE_FLAGS_SET_FLAGS]⟩
  | .IOE_CONST => ⟨0x180020, [(16, 0x100), (4, 0x4)], 1, 3, [.IOE_CONST_K]⟩
  | .IOE_CRC_CFG => ⟨0x180030, [(16, 0x100)], 1, 3, [.IOE_CRC_CFG_SEED, .IOE_CRC_CFG_VALUE, .IOE_CRC_CFG_POLY, .IOE_CRC_CFG_WIDTH]⟩
  | .IOE_POST_MASK => ⟨0x180034, [(16, 0x100)], 1, 3, [.IOE_POST_MASK]⟩
  | .IOE_POST_WORD => ⟨0x180038, [(16, 0x100)], 1, 3, [.IOE_POST_WORD]⟩
  | .IOE_QOUT => ⟨0x180040, [(16, 0x100)], 1, 3, [.IOE_QOUT]⟩
  | .IOE_QIN => ⟨0x180044, [(16, 0x100)], 1, 3, [.IOE_QIN]⟩
  | .IOE_QSTAT => ⟨0x180048, [(16, 0x100)], 1, 3, [.IOE_QSTAT_OUT_LEVEL, .IOE_QSTAT_IN_LEVEL]⟩
  | .IOE_CA => ⟨0x180050, [(16, 0x100)], 1, 3, [.IOE_CA]⟩
  | .IOE_CB => ⟨0x180054, [(16, 0x100)], 1, 3, [.IOE_CB]⟩
  | .IOE_SH => ⟨0x180058, [(16, 0x100)], 1, 3, [.IOE_SH]⟩
  | .IOE_TT => ⟨0x18005c, [(16, 0x100)], 1, 3, [.IOE_TT]⟩
  | .IOE_UNIT => ⟨0x180060, [(16, 0x100)], 1, 3, [.IOE_UNIT]⟩
  | .GIO_CFG => ⟨0x184000, [(32, 0x4)], 1, 3, [.GIO_CFG_OWNED, .GIO_CFG_ENGINE, .GIO_CFG_PULL, .GIO_CFG_OD, .GIO_CFG_FILT]⟩
  | .GIO_IN => ⟨0x184080, [], 1, 3, [.GIO_IN_LEVEL]⟩
  | .IOE_GROUP_CMD => ⟨0x184100, [], 1, 3, [.IOE_GROUP_CMD_GRP, .IOE_GROUP_CMD_REPHASE, .IOE_GROUP_CMD_START]⟩
  | .ICU_TGT => ⟨0x10000, [(384, 0x4)], 1, 0, [.ICU_TGT_TYPE, .ICU_TGT_PRI, .ICU_TGT_IDX]⟩
  | .ICU_RAW => ⟨0x10800, [(12, 0x4)], 1, 0, [.ICU_RAW_LEVEL]⟩
  | .ICU_INT_CFG => ⟨0x10840, [], 1, 0, [.ICU_INT_CFG_MINPRI]⟩
  | .ICU_INT_TOP => ⟨0x10844, [], 1, 0, [.ICU_INT_TOP_ASSERTED, .ICU_INT_TOP_PRI, .ICU_INT_TOP_SRC]⟩
  | .ICU_PLAT_EVT => ⟨0x10850, [], 1, 0, [.ICU_PLAT_EVT_SPILL, .ICU_PLAT_EVT_MODE_DONE]⟩
  | .ICU_MARK => ⟨0x10860, [(2, 0x4)], 1, 0, [.ICU_MARK]⟩
  | .ICU_SWI => ⟨0x10870, [(2, 0x4)], 1, 0, [.ICU_SWI]⟩
  | .ICU_SWI_SET => ⟨0x10878, [(2, 0x4)], 1, 0, [.ICU_SWI_SET_SWI]⟩
  | .ICU_FAULT => ⟨0x10880, [], 1, 0, [.ICU_FAULT_TGT_BAD, .ICU_FAULT_SPURIOUS_EOI]⟩
  | .ICU_CNT_MSG => ⟨0x10890, [(4, 0x4)], 1, 0, [.ICU_CNT_MSG_CNT]⟩
  | .DMA_CH_CFG => ⟨0x20000, [(16, 0x80)], 1, 0, [.DMA_CH_CFG_EN, .DMA_CH_CFG_MODE, .DMA_CH_CFG_NOSNOOP, .DMA_CH_CFG_PRI, .DMA_CH_CFG_FEED, .DMA_CH_CFG_QUOTA]⟩
  | .DMA_CH_CMD => ⟨0x20004, [(16, 0x80)], 1, 0, [.DMA_CH_CMD_SKIP, .DMA_CH_CMD_ABORT]⟩
  | .DMA_CH_RING => ⟨0x20008, [(16, 0x80)], 2, 0, [.DMA_CH_RING]⟩
  | .DMA_CH_SIZE => ⟨0x20010, [(16, 0x80)], 1, 0, [.DMA_CH_SIZE]⟩
  | .DMA_CH_HEAD => ⟨0x20014, [(16, 0x80)], 1, 0, [.DMA_CH_HEAD]⟩
  | .DMA_CH_TAIL => ⟨0x20018, [(16, 0x80)], 1, 0, [.DMA_CH_TAIL]⟩
  | .DMA_CH_STAT => ⟨0x2001c, [(16, 0x80)], 1, 0, [.DMA_CH_STAT_LAST_RESULT, .DMA_CH_STAT_STATE]⟩
  | .DMA_CH_EVT => ⟨0x20020, [(16, 0x80)], 1, 0, [.DMA_CH_EVT_BIND_BAD, .DMA_CH_EVT_ERR, .DMA_CH_EVT_DONE]⟩
  | .DMA_CH_RBASE => ⟨0x20028, [(16, 0x80)], 2, 0, [.DMA_CH_RBASE]⟩
  | .DMA_CH_RSIZE => ⟨0x20030, [(16, 0x80)], 1, 0, [.DMA_CH_RSIZE]⟩
  | .DMA_CH_WR => ⟨0x20034, [(16, 0x80)], 1, 0, [.DMA_CH_WR]⟩
  | .DMA_CH_RD => ⟨0x20038, [(16, 0x80)], 1, 0, [.DMA_CH_RD]⟩
  | .DMA_CH_WRPTR_ADDR => ⟨0x20040, [(16, 0x80)], 2, 0, [.DMA_CH_WRPTR_ADDR, .DMA_CH_WRPTR_ADDR_EN]⟩
  | .DMA_CH_CNT_BYTES => ⟨0x20048, [(16, 0x80)], 1, 0, [.DMA_CH_CNT_BYTES]⟩
  | .DMA_CH_CNT_DESC => ⟨0x2004c, [(16, 0x80)], 1, 0, [.DMA_CH_CNT_DESC]⟩
  | .DMA_ENG_STAT => ⟨0x20800, [], 1, 0, [.DMA_ENG_STAT_TAGS, .DMA_ENG_STAT_QUOTA_SUM]⟩
  | .DMA_ENG_EVT => ⟨0x20804, [], 1, 0, [.DMA_ENG_EVT_BME_OFF, .DMA_ENG_EVT_QUOTA_BAD]⟩
  | .ACCESS_ERR => ⟨0x200, [], 1, 0, [.ACCESS_ERR_VALID, .ACCESS_ERR_LOST, .ACCESS_ERR_SRC, .ACCESS_ERR_KIND, .ACCESS_ERR_BE, .ACCESS_ERR_WRITE]⟩
  | .ACCESS_ERR_ADDR => ⟨0x204, [], 1, 0, [.ACCESS_ERR_ADDR_OFFSET]⟩
  | .ACCESS_ERR_CNT => ⟨0x208, [], 1, 0, [.ACCESS_ERR_CNT]⟩
  | .MSPI_STAT => ⟨0x280, [], 1, 0, [.MSPI_STAT_LAST_CAUSE]⟩
  | .MSPI_CNT_FRAME => ⟨0x284, [], 1, 0, [.MSPI_CNT_FRAME]⟩
  | .MSPI_CNT_CMD => ⟨0x288, [], 1, 0, [.MSPI_CNT_CMD]⟩
  | .FENCE => ⟨0x300, [], 1, 0, [.FENCE_TOKEN]⟩
  | .FENCE_DONE => ⟨0x400, [(56, 0x4)], 1, 0, [.FENCE_DONE]⟩
  | .PCIE_STAT => ⟨0x600, [], 1, 0, [.PCIE_STAT_HO_ACTIVE, .PCIE_STAT_FLR_PENDING, .PCIE_STAT_CLK_SEP, .PCIE_STAT_LINK_UP, .PCIE_STAT_WIDTH, .PCIE_STAT_SPEED]⟩
  | .PCIE_EVT => ⟨0x604, [], 1, 0, [.PCIE_EVT_FOREIGN, .PCIE_EVT_HO_FALLBACK, .PCIE_EVT_FLR_DONE, .PCIE_EVT_LINK_UP, .PCIE_EVT_LINK_DOWN]⟩
  | .PCIE_CLK_CFG => ⟨0x608, [], 1, 0, [.PCIE_CLK_CFG_SEL]⟩
  | .PCIE_FLR_CFG => ⟨0x60c, [], 1, 0, [.PCIE_FLR_CFG_HO_EN, .PCIE_FLR_CFG_HO_MS]⟩
  | .PCIE_FOREIGN => ⟨0x610, [], 1, 0, [.PCIE_FOREIGN_CNT]⟩
  | .PCIE_FOREIGN_ADDR => ⟨0x614, [], 1, 0, [.PCIE_FOREIGN_ADDR_WRITE, .PCIE_FOREIGN_ADDR_FUNC, .PCIE_FOREIGN_ADDR_OFFSET]⟩
  | .PAIR_STAT => ⟨0x30000, [], 1, 0, [.PAIR_STAT_PARTNER_STATE, .PAIR_STAT_SLOT, .PAIR_STAT_PRESENT, .PAIR_STAT_PEER_DEN_OK, .PAIR_STAT_PEER_LEAD, .PAIR_STAT_LINK_UP, .PAIR_STAT_ROLE, .PAIR_STAT_STATE]⟩
  | .PAIR_CFG => ⟨0x30004, [], 1, 0, [.PAIR_CFG_JOIN_EN, .PAIR_CFG_FORCE_EN, .PAIR_CFG_DEN_HOLD, .PAIR_CFG_IDLE_WAIT_MS, .PAIR_CFG_JOIN_CYC, .PAIR_CFG_DIG_SHIFT]⟩
  | .PAIR_GUARD => ⟨0x30008, [], 1, 0, [.PAIR_GUARD_HO_GUARD]⟩
  | .PAIR_RESUME => ⟨0x3000c, [], 1, 0, [.PAIR_RESUME_RESUME_MIN]⟩
  | .PAIR_NORESUME => ⟨0x30010, [(3, 0x4)], 1, 0, [.PAIR_NORESUME]⟩
  | .PAIR_CMD => ⟨0x30020, [], 1, 0, [.PAIR_CMD_JOIN_ABORT, .PAIR_CMD_HANDOVER]⟩
  | .PAIR_EVT => ⟨0x30024, [], 1, 0, [.PAIR_EVT]⟩
  | .PAIR_TAKE => ⟨0x30028, [], 1, 0, [.PAIR_TAKE_TOOK, .PAIR_TAKE_CAUSE]⟩
  | .PAIR_TAKE_TIME => ⟨0x30030, [], 2, 0, [.PAIR_TAKE_TIME_TNOW]⟩
  | .PAIR_DIG => ⟨0x30038, [], 1, 0, [.PAIR_DIG_CYC, .PAIR_DIG_POS, .PAIR_DIG_MISSING, .PAIR_DIG_SLOTS, .PAIR_DIG_LEVELS, .PAIR_DIG_POSITION, .PAIR_DIG_DOMAIN]⟩
  | .PAIR_CNT_DIG_MATCH => ⟨0x30040, [], 1, 0, [.PAIR_CNT_DIG_MATCH]⟩
  | .PAIR_CNT_DIG_MISMATCH => ⟨0x30044, [], 1, 0, [.PAIR_CNT_DIG_MISMATCH]⟩
  | .PAIR_CNT_DIG_SUSP => ⟨0x30048, [], 1, 0, [.PAIR_CNT_DIG_SUSP]⟩
  | .PAIR_CNT_DIG_MISSING => ⟨0x3004c, [], 1, 0, [.PAIR_CNT_DIG_MISSING]⟩
  | .PAIR_CNT_HB_MISS => ⟨0x30050, [], 1, 0, [.PAIR_CNT_HB_MISS]⟩
  | .PAIR_CNT_LINK_CRC => ⟨0x30054, [], 1, 0, [.PAIR_CNT_LINK_CRC]⟩
  | .PAIR_CNT_RETRY => ⟨0x30058, [], 1, 0, [.PAIR_CNT_RETRY]⟩
  | .PAIR_CNT_RESUMED => ⟨0x3005c, [], 1, 0, [.PAIR_CNT_RESUMED]⟩
  | .PAIR_CNT_RESUME_CUT => ⟨0x30060, [], 1, 0, [.PAIR_CNT_RESUME_CUT]⟩
  | .PAIR_JOIN => ⟨0x30070, [], 1, 0, [.PAIR_JOIN_KIB]⟩
  | .RMGR_STAT => ⟨0x30080, [], 1, 0, [.RMGR_STAT_SRC, .RMGR_STAT_HEALTH]⟩
  | .RMGR_CNT_REFRESH => ⟨0x30084, [], 1, 0, [.RMGR_CNT_REFRESH_CNT]⟩
  | .PWR_STAT => ⟨0x800, [], 1, 0, [.PWR_STAT_SUP_LIMIT, .PWR_STAT_SUP_OFF, .PWR_STAT_SUP_ON]⟩
  | .PWR_SUP_CFG => ⟨0x804, [], 1, 0, [.PWR_SUP_CFG_DORMANT_ON, .PWR_SUP_CFG_EN]⟩
  | .PWR_EVT => ⟨0x808, [], 1, 0, [.PWR_EVT_WOKE, .PWR_EVT_CLK_FAIL, .PWR_EVT_SUP_FAULT]⟩
  | .PWR_WAKE_CFG => ⟨0x80c, [], 1, 0, [.PWR_WAKE_CFG_TIMER_EN, .PWR_WAKE_CFG_PIN_EN, .PWR_WAKE_CFG_THR, .PWR_WAKE_CFG_WIN_MASK]⟩
  | .PWR_WAKE_TIMER => ⟨0x810, [], 1, 0, [.PWR_WAKE_TIMER_SECONDS]⟩
  | .PWR_WAKE_STAT => ⟨0x814, [], 1, 0, [.PWR_WAKE_STAT_DURING_ENTRY, .PWR_WAKE_STAT_CAUSE, .PWR_WAKE_STAT_WIN]⟩
  | .PWR_VIN => ⟨0x818, [], 1, 0, [.PWR_VIN]⟩
  | .CLK_STAT => ⟨0x81c, [], 1, 0, [.CLK_STAT_LAST_FAIL, .CLK_STAT_MON_OK, .CLK_STAT_PER_LOCK, .CLK_STAT_SEQ_LOCK, .CLK_STAT_EV_LOCK, .CLK_STAT_REF_OK]⟩
  | .TNOW => ⟨0x820, [], 2, 0, [.TNOW]⟩
  | .ELOG_WR => ⟨0xa00, [], 1, 0, [.ELOG_WR]⟩
  | .ELOG_RD => ⟨0xa04, [], 1, 0, [.ELOG_RD]⟩
  | .ELOG_OVF => ⟨0xa08, [], 1, 0, [.ELOG_OVF]⟩
  | .ELOG_TIME => ⟨0xb00, [(64, 0x10)], 2, 0, [.ELOG_TIME]⟩
  | .ELOG_HEAD => ⟨0xb08, [(64, 0x10)], 1, 0, [.ELOG_HEAD_CODE, .ELOG_HEAD_INDEX, .ELOG_HEAD_MODE, .ELOG_HEAD_SUB]⟩
  | .ELOG_DETAIL => ⟨0xb0c, [(64, 0x10)], 1, 0, [.ELOG_DETAIL]⟩
  | .ID_DEVICE => ⟨0x0, [], 1, 0, [.ID_DEVICE]⟩
  | .ID_REV => ⟨0x4, [], 1, 0, [.ID_REV_MAJOR, .ID_REV_MINOR]⟩
  | .ID_SERIAL => ⟨0x8, [], 2, 0, [.ID_SERIAL]⟩
  | .ID_CAPS => ⟨0x10, [], 1, 0, [.ID_CAPS_SEQS, .ID_CAPS_OUTS, .ID_CAPS_ADCS, .ID_CAPS_DOMAINS]⟩
  | .ID_TAP => ⟨0x14, [], 1, 0, [.ID_TAP_VERSION, .ID_TAP_PART, .ID_TAP_MANUF, .ID_TAP_ONE]⟩
  | .SCRATCH => ⟨0x18, [], 1, 0, [.SCRATCH]⟩
  | .DBG_STAT => ⟨0x1c, [], 1, 0, [.DBG_STAT_CLK_STOPPED, .DBG_STAT_HALTED]⟩

/-- The registers at 0x0 to 0xeff (R430). -/
def platformRegs : List Reg :=
  [.MODE_REQ, .MODE_EPOCH, .MODE_STAT, .MODE_APPLIED, .MODE_LAG, .MODE_CFG, .MODE_TMO, .MODE_FAULT, .MODE_CNT, .ACCESS_ERR, .ACCESS_ERR_ADDR, .ACCESS_ERR_CNT] ++
  [.MSPI_STAT, .MSPI_CNT_FRAME, .MSPI_CNT_CMD, .FENCE, .FENCE_DONE, .PCIE_STAT, .PCIE_EVT, .PCIE_CLK_CFG, .PCIE_FLR_CFG, .PCIE_FOREIGN, .PCIE_FOREIGN_ADDR, .PWR_STAT] ++
  [.PWR_SUP_CFG, .PWR_EVT, .PWR_WAKE_CFG, .PWR_WAKE_TIMER, .PWR_WAKE_STAT, .PWR_VIN, .CLK_STAT, .TNOW, .ELOG_WR, .ELOG_RD, .ELOG_OVF, .ELOG_TIME] ++
  [.ELOG_HEAD, .ELOG_DETAIL, .ID_DEVICE, .ID_REV, .ID_SERIAL, .ID_CAPS, .ID_TAP, .SCRATCH, .DBG_STAT]

/-- The registers at 0x10000 to 0x1089f (R430). -/
def icuRegs : List Reg :=
  [.ICU_TGT, .ICU_RAW, .ICU_INT_CFG, .ICU_INT_TOP, .ICU_PLAT_EVT, .ICU_MARK, .ICU_SWI, .ICU_SWI_SET, .ICU_FAULT, .ICU_CNT_MSG]

/-- The registers at 0x20000 to 0x20807 (R430). -/
def dmaRegs : List Reg :=
  [.DMA_CH_CFG, .DMA_CH_CMD, .DMA_CH_RING, .DMA_CH_SIZE, .DMA_CH_HEAD, .DMA_CH_TAIL, .DMA_CH_STAT, .DMA_CH_EVT, .DMA_CH_RBASE, .DMA_CH_RSIZE, .DMA_CH_WR, .DMA_CH_RD] ++
  [.DMA_CH_WRPTR_ADDR, .DMA_CH_CNT_BYTES, .DMA_CH_CNT_DESC, .DMA_ENG_STAT, .DMA_ENG_EVT]

/-- The registers at 0x30000 to 0x30087 (R430). -/
def pairRegs : List Reg :=
  [.PAIR_STAT, .PAIR_CFG, .PAIR_GUARD, .PAIR_RESUME, .PAIR_NORESUME, .PAIR_CMD, .PAIR_EVT, .PAIR_TAKE, .PAIR_TAKE_TIME, .PAIR_DIG, .PAIR_CNT_DIG_MATCH, .PAIR_CNT_DIG_MISMATCH] ++
  [.PAIR_CNT_DIG_SUSP, .PAIR_CNT_DIG_MISSING, .PAIR_CNT_HB_MISS, .PAIR_CNT_LINK_CRC, .PAIR_CNT_RETRY, .PAIR_CNT_RESUMED, .PAIR_CNT_RESUME_CUT, .PAIR_JOIN, .RMGR_STAT, .RMGR_CNT_REFRESH]

/-- The registers at 0x40000 to 0x43fff (R430). -/
def adRegs : List Reg :=
  [.AD_INPUTS, .AD_CFG, .AD_EDGEF, .AD_BLANK, .AD_MAPCFG, .AD_TMAP_OFFSET, .AD_SYNC_CFG, .AD_STALL, .AD_SYNC_STAT, .AD_CMD, .AD_FAULT, .AD_CNT_FILT] ++
  [.AD_CNT_BLANK, .AD_CNT_LOSS, .AD_CNT_PHMIS, .AD_LAST_PERIOD, .AD_LAST_RATIO, .AD_CNT_RESTART, .AD_EST_CFG, .AD_EST_COEF, .AD_ANGLE, .AD_ANGLE_FRAC, .AD_RATE, .AD_ACC] ++
  [.AD_RPM, .AD_PRED, .AD_LAST_ERR, .AD_LAST_JUMP, .AD_CYC, .AD_EST_STAT, .AD_EST_FAULT, .AD_CNT_CLAMP, .AD_CNT_JUMP, .AD_CNT_JUMP_WARN, .AD_TCL_CFG, .AD_TCL_BOUND] ++
  [.AD_TCL_CMD, .AD_TCL_STAT, .AD_TCL_FAULT, .AD_TCL_CNT_SWAP, .AD_TCL_CNT_REJREV]

/-- The registers at 0x48000 to 0x487ff (R430). -/
def wfeRegs : List Reg :=
  [.WFE_CFG, .WFE_STAT, .WFE_STAMP, .WFE_CROSS]

/-- The registers at 0x100000 to 0x106007 (R430). -/
def seqRegs : List Reg :=
  [.SEQ_CTRL, .SEQ_CMD, .SEQ_STAT, .SEQ_ENTRY, .SEQ_FAULT, .SEQ_FAULT_PC, .SEQ_CNT_CYC, .SEQ_CNT_STALL, .SEQ_CNT_ECC, .SEQ_XREG, .SEQ_TASK_CFG, .SEQ_TASK_STAT] ++
  [.SEQ_BUDGET, .SEQ_TASK_MAX, .SEQ_TASK_FLT, .SEQ_CNT_OVERRUN, .SEQ_CNT_BUDGET, .SEQ_CNT_EXHAUST, .SEQ_CNT_COALESCED, .SEQ_SLOTS, .SEQ_FLAGS, .SEQ_FLAGS_SET, .SEQ_SWAP, .SEQ_SWAP_STAT] ++
  [.SEQ_MODECFG, .SEQ_MODE_STAT, .SEQ_SLOT_TARGET, .SEQ_SLOT_STATE, .MAPM_ECC_CNT, .MAPM_ECC_ADDR]

/-- The registers at 0x110000 to 0x118013 (R430). -/
def outRegs : List Reg :=
  [.OUT_OWNER, .OUT_POLICY, .OUT_CAP, .OUT_STAT, .OUT_CNT_EDGES, .OUT_CNT_STRETCH, .OUT_CNT_INHIBIT, .OUT_LAST_EDGE, .SVC_CFG, .SVC_TARGET, .SVC_STAMP, .SPILL_STAT] ++
  [.SPILL_CNT, .SPILL_LAST, .OUT_DELAY]

/-- The registers at 0x140000 to 0x1420bf (R430). -/
def adcRegs : List Reg :=
  [.ADC_CFG, .ADC_CMD, .ADC_STAT, .ADC_ILV_SKEW, .ADC_SEQ, .ADC_FLT_CFG, .ADC_COEF, .AIN_CFG]

/-- The registers at 0x150000 to 0x15923f (R430). -/
def basRegs : List Reg :=
  [.BAS_CFG, .BAS_WOFFSET, .BAS_THR, .BAS_CMD, .BAS_STAT, .BAS_CNT_LATE, .BAS_CNT_ABORT, .BAS_VALUE, .BAS_SAMPLES, .BAS_TAG, .TRK_CFG, .TRK_MAX] ++
  [.TRK_MAX_ANG, .TRK_MIN, .TRK_MIN_ANG, .TRK_TAG, .BAS_FEED_DATA, .BAS_FEED_STAT, .BAS_FEED_CNT_DROP, .BAS_CLOSED, .WT_CMD, .WT_STAT]

/-- The registers at 0x160000 to 0x1603ff (R430). -/
def cmpRegs : List Reg :=
  [.CMP_CFG, .CMP_DAC, .CMP_ROUTE, .CMP_STAT, .CMP_CNT_EDGES]

/-- The registers at 0x170000 to 0x170843 (R430). -/
def pwmRegs : List Reg :=
  [.PWM_CTRL, .PWM_PERIOD, .PWM_CMPA, .PWM_CMPB, .PWM_MARK1, .PWM_MARK2, .PWM_DEADTIME, .PWM_FORCE, .PWM_OUTCFG, .PWM_CMD, .PWM_STAT, .PWM_COUNT] ++
  [.PWM_CNT_TRIP, .PWM_SYNC, .TRIP_CFG, .TRIP_STAT]

/-- The registers at 0x180000 to 0x184103 (R430). -/
def ioeRegs : List Reg :=
  [.IOE_CTRL, .IOE_CMD, .IOE_STAT, .IOE_EVT, .IOE_CLKDIV, .IOE_INJECT, .IOE_FLAGS, .IOE_FLAGS_SET, .IOE_CONST, .IOE_CRC_CFG, .IOE_POST_MASK, .IOE_POST_WORD] ++
  [.IOE_QOUT, .IOE_QIN, .IOE_QSTAT, .IOE_CA, .IOE_CB, .IOE_SH, .IOE_TT, .IOE_UNIT, .GIO_CFG, .GIO_IN, .IOE_GROUP_CMD]

/-- The registers that may stand at an offset of the unified map, by the blocks of R430. -/
def regsNear (off : Nat) : List Reg :=
  if off < 0x10000 then platformRegs
  else if off < 0x20000 then icuRegs
  else if off < 0x30000 then dmaRegs
  else if off < 0x40000 then pairRegs
  else if off < 0x48000 then adRegs
  else if off < 0x100000 then wfeRegs
  else if off < 0x110000 then seqRegs
  else if off < 0x140000 then outRegs
  else if off < 0x150000 then adcRegs
  else if off < 0x160000 then basRegs
  else if off < 0x170000 then cmpRegs
  else if off < 0x180000 then pwmRegs
  else ioeRegs

/-- Every register of the manual's tables. -/
def allRegs : List Reg :=
  platformRegs ++ icuRegs ++ dmaRegs ++ pairRegs ++ adRegs ++ wfeRegs ++ seqRegs ++ outRegs ++ adcRegs ++ basRegs ++ cmpRegs ++ pwmRegs ++ ioeRegs

/-- Splits the distance from a register's base into an instance index and a rest. -/
def splitDims (ds : List (Nat × Nat)) (d i : Nat) : Option (Nat × Nat) :=
  match ds with
  | [] => some (i, d)
  | (c, st) :: r => if d / st < c then splitDims r (d % st) (i * c + d / st) else none

/-- Where in a register a word of the map lies: the register, the instance and the word, R431. -/
structure RegAt where
  reg : Reg
  inst : Nat
  word : Nat
  deriving DecidableEq, Repr

/-- The word of register `r` at an offset of the map, if it has one there. -/
def regWordAt (off : Nat) (r : Reg) : Option RegAt :=
  if off < r.row.base then none else
    match splitDims r.row.dims (off - r.row.base) 0 with
    | some (i, d) => if d % 4 = 0 ∧ d / 4 < r.row.words then some ⟨r, i, d / 4⟩ else none
    | none => none

/-- The register word at an offset of the unified map; none where no register occupies it. -/
def regAt (off : Nat) : Option RegAt := (regsNear off).findSome? (regWordAt off)

/-- The number of instances of a register. -/
def Reg.count (r : Reg) : Nat := r.row.dims.foldl (fun n d => n * d.1) 1

/-- The key of a field instance in the field store. -/
def Fld.key (f : Fld) (i : Nat) : Nat := f.ctorIdx * 1024 + i % 1024

end Sys2Proof.Machine
end

