-- ==== Sys2Proof/Machine/State.lean ====
section
/-! DEFINITION. The state of the module as plain data, and the state right after reset. Arrays of instances are
finite tables: an instance that the table does not list holds its reset value. -/

namespace Sys2Proof.Machine

/-- Why a step can stop with a fault. No command of this block raises one: what the manual reports, it reports in
sticky bits, counters, the error log and interrupt sources, all of them state. -/
inductive Fault where
  /-- Raised by nothing; the type is kept inhabited for its derived instances. Safe. -/
  | unused
  deriving DecidableEq, Repr

/-- Why a command can be refused. -/
inductive Refusal where
  /-- Raised by an arm of `exec` whose command has no meaning yet, with its mnemonic. Safe: the run stops. -/
  | notModelled (mnemonic : String)
  deriving DecidableEq, Repr

/-! ### Wheels, decoders and estimators (R20 to R77) -/

/-- A crossing inside its time filter (R25), or an accepted edge that waits for the decoder. -/
structure Edge where
  /-- The stamp of R24, in units of 125 ps. -/
  stamp : Nat
  /-- TNOW of the acceptance. -/
  at' : Nat := 0
  /-- The direction of a digital transition. -/
  rising : Bool := false
  /-- R48: the edge was held by the first-edge catcher, so a period from it is coarse. -/
  caught : Bool := false
  deriving DecidableEq, Repr

/-- The record of one input of a domain: primary or phase. -/
structure InputRec where
  /-- Crossings inside the time filter, oldest first (R25). -/
  filt : List Edge := []
  /-- Accepted edges that the decoder has not processed yet, oldest first (R27). -/
  accepted : List Edge := []
  /-- The last accepted edge. -/
  last : Option Edge := none
  /-- The newest two accepted intervals, newest first, in 125 ps units (R26). -/
  ivs : List Nat := []
  /-- The last edge that the decoder processed, and TNOW of its processing. -/
  done : Option Edge := none
  deriving DecidableEq, Repr

/-- What one revolution hypothesis makes of the phase windows (R37, R41, R42). -/
structure Judge where
  /-- Windows that matched an edge since they opened. -/
  matched : List Nat := []
  /-- Open windows exempt from the third test of R37. -/
  exempt : List Nat := []
  /-- Ended windows that matched an edge in their latest opening: a late edge in one of them is a second match. -/
  closed : List Nat := []
  /-- Contradicted in the present revolution. -/
  bad : Bool := false
  deriving DecidableEq, Repr

/-- One hypothesis of R35: entry, revolution, and the interval its predictions rest on (R36). -/
structure Hyp where
  entry : Nat
  rev : Nat
  /-- Period and nominal angle of the interval that P_next is formed from; none before the first interval closes. -/
  base : Option (Nat × Nat) := none
  /-- Intervals classified since seeding. -/
  classified : Nat := 0
  judge : Judge := {}
  deriving DecidableEq, Repr

/-- A non-negative fraction: numerator and denominator. -/
abbrev Frac := Nat × Nat

/-- The learner of a domain (R70 to R72). -/
structure Learner where
  /-- Stamp of the edge of entry 0 that opened the revolution under way. -/
  revStart : Option Nat := none
  /-- Raw duration of the previous revolution. -/
  prevRev : Option Nat := none
  /-- Raw period of the interval opened by each entry in the revolution under way. -/
  raw : Tab Nat := []
  /-- Conditions 1, 2 and 4 of R70 have held so far in the revolution. -/
  clean : Bool := false
  /-- Sum of f_k over the accepted revolutions, by entry. -/
  sums : Tab Frac := []
  /-- The averages that R72 is writing, by entry. -/
  avg : Tab Frac := []
  deriving DecidableEq, Repr

/-- The angle between two loads: the accumulator runs from `base` at TNOW `t0` at `rate` (R51, R60). -/
structure Seg where
  /-- The angle is valid (R39). -/
  valid : Bool := false
  /-- The 48-bit accumulator at `t0`, counted on through cycle boundaries not yet commanded. -/
  base : Int := 0
  t0 : Nat := 0
  /-- RATE, Q16.16 AU/ns (R57). -/
  rate : Nat := 0
  /-- R47: the angle holds at this accumulator value until the estimate reaches it. -/
  floor : Nat := 0
  /-- R60: the accumulator value of the next tooth angle. -/
  clampAt : Option Nat := none
  /-- ACC in the words of the segment (R57). -/
  accel : Int := 0
  deriving DecidableEq, Repr

/-- A period predictor (R53 to R57). -/
structure Predictor where
  /-- Normalised periods, newest first, in 125 ps / 256 (R54 to R56). -/
  hist : List Nat := []
  /-- The predicted normalised period P (R55). -/
  p : Nat := 0
  /-- The RATE of that prediction, and ACC (R57). -/
  rate : Nat := 0
  accel : Int := 0
  deriving DecidableEq, Repr

/-- One angle domain: decoder, estimator and learner. -/
structure Domain where
  pri : InputRec := {}
  pha : InputRec := {}
  /-- R31: the check failed, and no accepted write to the configuration has followed. -/
  invalid : Bool := false
  /-- R40, R44: a fresh set of hypotheses is seeded at the next accepted primary edge. -/
  needSeed : Bool := false
  hyps : List Hyp := []
  /-- R41, R42: the current and the opposite revolution in SYNC. -/
  cur : Judge := {}
  opp : Judge := {}
  /-- Consecutive revolutions that contradicted the current revolution only (R42). -/
  flips : Nat := 0
  /-- R45: consecutive matches of each alignment, by the phase entry of the newest edge. -/
  align : Tab Nat := []
  /-- R45: the phase entry of the newest edge under the locked alignment. -/
  phEntry : Option Nat := none
  /-- The newest phase interval (R45). -/
  phIv : Option Nat := none
  /-- R125 bit 12: no tooth event since the domain last entered SYNC or PHASE-ONLY. -/
  fresh : Bool := false
  /-- The predictor of the angle's source; in SEEKING, of the crank (R53, R66). -/
  est : Predictor := {}
  /-- In PHASE-ONLY, the crank's predictor from CRANK_LOCK on (R46, R53). -/
  crank : Predictor := {}
  /-- The most recent accepted primary interval, for RPM in NOSYNC and SEEKING (R53). -/
  diagIv : Option Nat := none
  /-- The present segment of the angle, and the one before it. -/
  seg : Seg := {}
  old : Seg := {}
  /-- The present hold under R60 has been counted. -/
  clampSeen : Bool := false
  /-- TNOW of the last load: its word carries a release or a jump (R61). -/
  stepAt : Option Nat := none
  /-- Cycle boundaries that the accumulator of the present angle has passed and the block has taken. -/
  turns : Nat := 0
  /-- The revolution under way began at an accepted edge of entry 0 in SYNC (R42). -/
  whole : Bool := false
  /-- TNOW of the latest bank swap (R73). -/
  swapAt : Option Nat := none
  /-- TNOW of the latest cycle boundary (R140). -/
  boundAt : Option Nat := none
  /-- TNOW of the latest sync loss: in that cycle no angle slot of the domain fires (R162). -/
  lostAt : Option Nat := none
  learn : Learner := {}
  /-- Accepted phase edges with PH_LOCK at 1 since Clearing was entered (R190). -/
  limpEdges : Nat := 0
  /-- Accepted edges of entry 0 in SYNC since the Limp epoch (R191). -/
  runRevs : Nat := 0
  /-- Tooth events counted for the digests (R379). -/
  digests : Nat := 0
  deriving DecidableEq, Repr

/-! ### Sequencers and the event fabric (R78 to R172) -/

/-- The kind of an armed slot, with the codes of R171. -/
inductive SlotKind where
  | aSet | aClear | aOpen | aClose | aFlag | aWake | pulseStart | pulseLimit
  | tSet | tClear | tOpen | tClose | tFlag | tWake | pulseEnd
  deriving DecidableEq, Repr

/-- A match slot of a sequencer (R109, R144). -/
structure Slot where
  armed : Bool := false
  kind : SlotKind := .aSet
  /-- AU, or TNOW[31:0] in ns. -/
  target : Nat := 0
  /-- Vernier fraction of a time target, 125 ps. -/
  frac : Nat := 0
  /-- Channel, basin or flag number. -/
  arg : Nat := 0
  /-- Arming generation (R110). -/
  gen : Nat := 0
  /-- The other slot of the pulse (R115). -/
  partner : Option Nat := none
  /-- Duration of a pulse, ns. -/
  dur : Nat := 0
  /-- The limit slot compares only once the start has fired (R116). -/
  waiting : Bool := false
  /-- The reference of R145, and TNOW of the word it was latched from. -/
  ref : Option (Nat × Nat) := none
  /-- R158: kept through a spillway entry as the time-anchored end of a completing channel. -/
  kept : Bool := false
  /-- Free: the first sequencer cycle in which a stalled instruction can take it (R109). -/
  freeFrom : Nat := 0
  deriving DecidableEq, Repr

/-- The states of R82. -/
inductive SeqState where
  | idle | run | wait | stall | halted | faulted
  deriving DecidableEq, Repr

/-- What a sequencer in WAIT waits for (R122 to R127); `rd` receives the result. -/
inductive Wait where
  | none
  | slot (rd slot : Nat)
  | tooth (rd : Nat)
  | icu (rd line : Nat)
  | fence (rd src token : Nat)
  | epoch (rd : Nat)
  | flag (rd mask : Nat)
  deriving DecidableEq, Repr

/-- A WAITE whose condition has become true while the next instruction is yet to issue: what a bank swap puts back
(R140, R141). -/
structure Waite where
  /-- The destination register and the value it held. -/
  rd : Nat
  old : Nat
  /-- The tooth event consumed, with its count in bits [23:16]. -/
  tooth : Option Nat := none
  /-- The flags cleared. -/
  flags : Nat := 0
  deriving DecidableEq, Repr

/-- The map-memory reads of R99 and R102. -/
inductive MapKind where
  | lmu | lms | lmw | map2
  deriving DecidableEq, Repr

/-- A transaction that waits for its start in MAPM (R90). -/
structure MapReq where
  kind : MapKind
  rd : Nat
  /-- Byte address, or descriptor base of a MAP2. -/
  addr : Nat
  /-- The packed inputs of a MAP2. -/
  input : Nat := 0
  /-- PC and bank of the instruction. -/
  pc : Nat := 0
  bank : Nat := 0
  /-- Sequencer cycle of the issue. -/
  cycle : Nat := 0
  deriving DecidableEq, Repr

/-- The starts of MAPM (R90). -/
structure Mapm where
  /-- The sequencer whose turn is next, in round-robin order. -/
  next : Nat := 0
  /-- The first sequencer cycle in which a transaction can start. -/
  free : Nat := 0
  /-- The first sequencer cycle in which a write of another source takes a start: one in eight cycles. -/
  write : Nat := 0
  deriving DecidableEq, Repr

/-- A sequencer (R78), beside its register fields. -/
structure Seq where
  /-- x1 to x15; x0 is never stored (R79). -/
  xs : Tab Nat := []
  pc : Nat := 0
  bank : Nat := 0
  state : SeqState := .idle
  wait : Wait := .none
  slots : Tab Slot := []
  /-- A stalled HANDOVER: channel and target sequencer (R138). -/
  handover : Option (Nat × Nat) := none
  /-- The instruction at PC stalls for slots (R133). -/
  slotStall : Bool := false
  mapReq : Option MapReq := none
  /-- The held tooth event's word, bits [12:0] of R125. -/
  tooth : Nat := 0
  /-- A tooth event reached the sequencer in WAITE TOOTH; TASK_START completes the wait. -/
  woken : Bool := false
  /-- The completed WAITE, until the next instruction issues (R140). -/
  waite : Option Waite := none
  /-- Sequencer cycle of the last SAFEPT, if nothing has issued since (R140). -/
  safeAt : Option Nat := none
  /-- Sequencer cycle in which the task began (R128). -/
  taskStart : Nat := 0
  /-- The budget clock has expired in this task (R129). -/
  expired : Bool := false
  /-- First sequencer cycle in which the next instruction can issue (R95). -/
  nextIssue : Nat := 0
  /-- First cycle in which each register can be read (R95). -/
  ready : Tab Nat := []
  /-- First cycle in which the divider is free (R95). -/
  divFree : Nat := 0
  /-- Cycles counted in CNT_CYC up to here, and stall cycles counted in CNT_STALL up to here (R108). -/
  counted : Nat := 0
  stallCounted : Nat := 0
  /-- First cycle in which the next MAPM instruction can issue: the transaction before it has started (R90). -/
  mapFree : Nat := 0
  deriving DecidableEq, Repr

/-- A timing output beside its register fields (R151 to R166). -/
structure Chan where
  /-- The stamp of the last edge of any kind, in 125 ps units at the channel, before the 80 ns line delay. -/
  lastAt : Option Nat := none
  /-- R158: TNOW at which COMPLETE_CAP ends the channel. -/
  cap : Option Nat := none
  /-- The latest decision on the line driver: enabled or disabled, and TNOW of its event-clock cycle d (R165, R166). -/
  drive : Bool := false
  driveAt : Nat := 0
  /-- The driver drove the line as that decision fell. -/
  drove : Bool := false
  /-- A disable of paths 6 and 7, of the LEAD token or of DEN: without the interval of R166. -/
  abrupt : Bool := false
  deriving DecidableEq, Repr

/-- A service slot beside its register fields (R156). -/
structure Svc where
  /-- The reference and TNOW of the word it was latched from (R145). -/
  ref : Option (Nat × Nat) := none
  /-- R147: CYC × 2^32 plus the read value of the firing word, while the slot waits for half a turn. -/
  fired : Option Nat := none
  /-- A slot without REPEAT that has fired stays disarmed. -/
  spent : Bool := false
  deriving DecidableEq, Repr

/-- A transition in progress (R182 to R187). -/
structure Change where
  target : Nat
  /-- The code of R178 for a transition into Clearing. -/
  cause : Nat := 0
  /-- TNOW of the acceptance. -/
  at' : Nat
  /-- Angle epoch: domain, target angle, reference. None for an immediate epoch. -/
  epoch : Option (Nat × Nat × Nat) := none
  /-- The domain whose boundaries run the timeout, and the boundaries counted (R187). -/
  tmoDom : Nat := 0
  bounds : Nat := 0
  /-- The timeout has been taken. -/
  timedOut : Bool := false
  deriving DecidableEq, Repr

/-- An error-log entry that arose in the command being run (R423). -/
structure LogNew where
  code : Nat
  index : Nat
  sub : Nat
  detail : Nat
  deriving DecidableEq, Repr

/-- The LOST entry that the error log owes (R424). -/
structure LogLost where
  /-- Entries discarded since the last LOST entry. -/
  count : Nat := 0
  /-- The event-clock cycle of the ELOG_RD write that freed space since; the LOST entry is due in the next one. -/
  freedAt : Option Nat := none
  deriving DecidableEq, Repr

/-! ### Power, wellspring and pair (R363 to R413) -/

/-- A wake source that the wellspring has seen (R408): cause code, and the input of a wheel wake. -/
structure Wake where
  cause : Nat
  win : Nat := 0
  deriving DecidableEq, Repr

/-- The power domain and the wellspring, beside their register fields (R392 to R410). -/
structure Power where
  /-- Held in power-on reset (R393). -/
  held : Bool := false
  /-- The fast clocks run. -/
  clocks : Bool := true
  /-- R403: a clock failure forces every driver into high impedance. -/
  forced : Bool := false
  /-- The recorded cause, shown in LAST_FAIL at recovery (R404). -/
  failCode : Nat := 0
  /-- wsNs of the failure's end, from which the monitor must pass 1 ms (R404). -/
  failAt : Nat := 0
  /-- wsNs at which the fast clocks were last released. -/
  released : Nat := 0
  /-- R399: the wellspring oscillator left its window, so DEN is gated off until an accepted refresh. -/
  oscBad : Bool := false
  /-- A Dormant request was accepted, and the entry is not complete (R407): wsNs of the acceptance. -/
  entering : Option Nat := none
  /-- The wake that ends Dormant, held while the entry completes (R407, R408). -/
  wake : Option Wake := none
  /-- R407: that wake arose during the entry. -/
  during : Bool := false
  /-- The wellspring's copies of R405: PWR_WAKE_CFG fields, timer and DORMANT_ON. -/
  copyTimerEn : Nat := 0
  copyPinEn : Nat := 0
  copyThr : Nat := 0
  copyMask : Nat := 0
  copyTimer : Nat := 0
  copyDormantOn : Nat := 0
  /-- TNOW captured at acceptance, and wsNs of it (R406). -/
  keepTnow : Nat := 0
  keepAt : Nat := 0
  /-- R410: inputs that the catcher serves since the wake event, one bit each. -/
  catching : Nat := 0
  /-- R410: edges that the catcher keeps, oldest first, by input. -/
  caught : Tab (List Edge) := []
  /-- TNOW at which each supply entered its limit, and at which it switched off (R397). -/
  overAt : Tab Nat := []
  offAt : Tab Nat := []
  deriving DecidableEq, Repr

/-- The DEN generator and its refresh (R370, R371, R399). -/
structure Den where
  /-- DEN toggles. -/
  on : Bool := false
  /-- DEN's level in its first half-period while it toggles, and the level of its last edge while it stands; and wsNs of its
  start (R370). -/
  level : Bool := false
  startWs : Nat := 0
  /-- The module's own DEN has run since reset. -/
  seen : Bool := false
  /-- wsNs of the last accepted refresh; none before the first. -/
  refreshAt : Option Nat := none
  /-- TNOW of the last refresh (R371, second part of condition 2). -/
  refreshTnow : Nat := 0
  /-- R371: refreshes were withheld, so the second part of condition 2 is met at once. -/
  withheld : Bool := false
  /-- TNOW and wsNs of DEN's last edge, once DEN has stopped. -/
  edgeAt : Nat := 0
  edgeWs : Nat := 0
  /-- Spillway path 7 has been taken for this stop. -/
  silent : Bool := false
  deriving DecidableEq, Repr

/-- A frame of the Berfer link (R376), without its delimiters and CRC (DESIGN CHOICE, log entry 56). -/
inductive Frame where
  | heartbeat (flags ack state : Nat)
  | digest (bytes : List Nat)
  | mode (seq target cause dom imm angle : Nat)
  | token (seq code : Nat)
  | join (seq code len crc : Nat)
  | bulk (seq off : Nat) (data : List Nat)
  | write (seq src be off data : Nat)
  deriving DecidableEq, Repr

/-- A planned handover in progress (R386). -/
structure Handover where
  /-- ACCEPT has arrived, at this TNOW. -/
  acceptedAt : Option Nat := none
  deriving DecidableEq, Repr

/-- The pair and its link, beside their register fields (R363 to R390). -/
structure Pair where
  /-- The module holds the LEAD token (R365). -/
  token : Bool := false
  /-- The LEAD pin is driven asserted (R373). -/
  leadPin : Bool := false
  /-- PRESENT has been made since power-on reset (R411). -/
  presentSeen : Bool := false
  /-- TNOW of the last valid heartbeat, and how many have arrived in a row (R374). -/
  hbAt : Option Nat := none
  hbRun : Nat := 0
  hbSentAt : Nat := 0
  hbMissAt : Nat := 0
  /-- FLAGS and STATE of the latest heartbeat (R377). -/
  peerFlags : Nat := 0
  peerState : Nat := 0
  /-- R377: the module has released the token on path 6 or 7. -/
  released : Bool := false
  /-- R386: the Follow has sent ACCEPT to an OFFER that has not been aborted. -/
  sentAccept : Bool := false
  /-- Reliable frames: next SEQ to send, unacknowledged frames oldest first, next SEQ expected (R378). -/
  txSeq : Nat := 0
  unacked : List Frame := []
  rxSeq : Nat := 0
  ackAt : Nat := 0
  /-- Every frame sent, oldest first: the module's output on the link. -/
  sent : List Frame := []
  /-- The own and the received digests that await a counterpart, with the domain's tooth count at arrival (R380). -/
  ownDig : Tab (List (Nat × List Nat)) := []
  rxDig : Tab (List (Nat × List Nat)) := []
  ho : Option Handover := none
  /-- R388: a join is in progress in the Follow, from JOINING up to SHADOW, and JOIN START has arrived. -/
  joinOpen : Bool := false
  joinStarted : Bool := false
  /-- Bytes of join-set data received, their CRC-32 before its final XOR, and the run state of each sequencer (R388). -/
  joinLen : Nat := 0
  joinCrc : Nat := 0xFFFFFFFF
  joinRun : Tab Nat := []
  /-- R389: a join has ended, so the next one waits until the link is next up. -/
  joinWait : Bool := false
  /-- R389: the mode that the Follow aims for after a join. -/
  aim : Option Nat := none
  /-- R389: the target of the Lead's latest MODE frame in JOINING, which its heartbeats do not report yet. -/
  aimSent : Option Nat := none
  /-- Clean engine cycles in MATCHING (R389). -/
  cleanCyc : Nat := 0
  /-- The engine cycle under way began in MATCHING with the domain in SYNC, and no mismatch has followed (R389). -/
  cycOpen : Bool := false
  deriving DecidableEq, Repr
/-! ### Converters, basins, trackers and feeds (R197 to R226) -/

/-- The state of one biquad section: the two past inputs and outputs (R205). -/
structure Biquad where
  x1 : Int := 0
  x2 : Int := 0
  y1 : Int := 0
  y2 : Int := 0
  deriving DecidableEq, Repr

/-- A converter beside its register fields: the list and filter in use, and the filter state (R201, R205). -/
structure Adc where
  /-- The list in use: sources by entry, unlisted entries 0x60. -/
  list : Tab Nat := []
  lenM1 : Nat := 0
  /-- The next entry to convert. -/
  entry : Nat := 0
  bq0 : Bool := false
  bq1 : Bool := false
  /-- The coefficients in use, by 5 b + j. -/
  coef : Tab Nat := []
  st0 : Biquad := {}
  st1 : Biquad := {}
  /-- TNOW at which a calibration began (R203). -/
  calAt : Nat := 0
  /-- Entry and source of the conversion in progress, where the list has been replaced under it (R201). -/
  running : Option (Nat × Nat) := none
  deriving DecidableEq, Repr

/-- The extreme of a tracker in a window: value, angle, and whether the angle was valid (R221). -/
structure Ext where
  max : Option (Int × Nat × Bool) := none
  min : Option (Int × Nat × Bool) := none
  deriving DecidableEq, Repr

/-- A basin window: open, or closed and waiting for its latch (R212). -/
structure Window where
  eOpen : Nat
  /-- E_close and the domain's CYC[7:0] at it, once closed. -/
  close : Option (Nat × Nat) := none
  acc : Int := 0
  samples : Nat := 0
  ovf : Bool := false
  /-- The angle of the window's previous sample (R213). -/
  thPrev : Nat := 0
  /-- WOFFSET as it stood when the window opened (R219). -/
  woffset : Nat := 0
  /-- What the trackers of the basin hold for this window, by tracker. -/
  ext : Tab Ext := []
  deriving DecidableEq, Repr

/-- A basin beside its register fields. -/
structure Basin where
  /-- Windows closed and not yet latched, oldest first; the open window, if any, is last. -/
  wins : List Window := []
  /-- A result has not reached the port since the last that did (R216). -/
  late : Bool := false
  /-- The edge time of the latest OPEN that met an open window, and whether DUP was set before it (R211). -/
  dupOpen : Option (Nat × Bool) := none
  /-- Reads in progress: TNOW of the VALUE_LO read, by source (R216). -/
  reading : Tab Nat := []
  deriving DecidableEq, Repr

/-- A result feed: its records of four words, oldest first, and whether the first unit of the oldest has been read
(R223, R224). -/
structure Feed where
  records : List (List Nat) := []
  second : Bool := false
  /-- Sources whose latest low-word read found the feed empty: the unit that they complete is of an empty feed (R224). -/
  empties : List Nat := []
  deriving DecidableEq, Repr

/-! ### Comparators, trip channels and PWM generators (R229 to R264) -/

/-- A comparator beside its register fields. -/
structure Cmp where
  /-- The threshold DAC is connected (R233). -/
  connected : Bool := false
  /-- TNOW of the latest change of CODE (R235). -/
  dacAt : Nat := 0
  /-- The raw comparison, and TNOW from which it has been held without a break (R231, R232). -/
  raw : Bool := false
  rawAt : Nat := 0
  /-- The filtered comparison, before INVERT. -/
  filt : Bool := false
  /-- TNOW at which the settling hold ends (R234). -/
  hold : Option Nat := none
  /-- The hold followed the first write, so its end raises no event. -/
  quiet : Bool := false
  /-- The routed signal of R238. -/
  routed : Bool := false
  deriving DecidableEq, Repr

/-- A trip channel beside TRIP_STAT (R250): the level at its pin, and TNOW since which the OR has held. -/
structure Trip where
  pin : Bool := false
  rawAt : Nat := 0
  deriving DecidableEq, Repr

/-- One output of a generator (R246 to R255). -/
structure Aux where
  /-- Active, as the generator drives it. -/
  act : Bool := false
  /-- The peripheral-clock tick in which it last went inactive (R247). -/
  offAt : Option Nat := none
  /-- An active force (R249): 0 none, 1 inactive, 2 active, 3 high impedance. -/
  forced : Nat := 0
  /-- R255: in high impedance after an overcurrent, until a boundary finds SHORT clear. -/
  short : Bool := false
  deriving DecidableEq, Repr

/-- A pull on a pin (R255, R288). -/
inductive Pull where
  | none | up | down
  deriving DecidableEq, Repr

/-- What a pin of J3 presents: high impedance with its pull, low, or high at a level in volts (R255, R268, R288, R452). -/
inductive Pad where
  | z (pull : Pull)
  | low
  | high (volts : Nat)
  deriving DecidableEq, Repr

/-- A PWM generator beside its register fields: the values in use and the counter (R244 to R260). -/
structure Pwm where
  /-- EN and the forces in use: a write of CTRL.EN or FORCE is taken into use in the tick after it (R244, R249). -/
  run : Bool := false
  fa : Nat := 0
  fb : Nat := 0
  /-- The tick in which the outputs follow a write or leave a cleared trip. -/
  due : Option Nat := none
  /-- The tick of the latest writes of shadow values, and PERIOD, CMPA, CMPB, MARK1, MARK2 and DEADTIME before them (R248). -/
  wrote : Option (Nat × List Nat) := none
  /-- The pins as a halt found them (R260, R261). -/
  frozen : Option (Pad × Pad) := none
  /-- The latest accepted TRIP_CLR: its tick, TRIP_CH, BY_SW and BY_CLEARING (R253). -/
  cleared : Option (Nat × Nat × Nat × Nat) := none
  period : Nat := 0
  cmpA : Nat := 0
  cmpB : Nat := 0
  mark1 : Nat := 0xFFFFF
  mark2 : Nat := 0xFFFFF
  dead : Nat := 0
  /-- The tick with count 0 of the period under way, and the tick of the next boundary. -/
  start : Nat := 0
  bound : Nat := 0
  /-- The tick at which a debug halt stopped the counter (R260). -/
  halted : Option Nat := none
  /-- R252: the trip is cleared, and the outputs wait for the next boundary. -/
  leaving : Bool := false
  /-- The tick of the last trip (R253). -/
  tripAt : Option Nat := none
  a : Aux := {}
  b : Aux := {}
  deriving DecidableEq, Repr

/-! ### I/O engines, interrupts, DMA and PCI Express (R265 to R362) -/

/-- An engine instruction that waits or stalls (R274, R277, R283): the copy latched at fetch (R281). -/
structure IoeCur where
  word : Nat
  /-- It was injected, so its end leaves PC unchanged (R280). -/
  injected : Bool := false
  /-- The peripheral-clock tick of its issue. -/
  issued : Nat := 0
  /-- The timed pin change has taken place (R277). -/
  acted : Bool := false
  /-- The edge that ends the wait: its stamp, and the tick in which it occurred (R274). -/
  met : Option (Nat × Nat) := none
  deriving DecidableEq, Repr

/-- An I/O engine beside its register fields (R265). -/
structure Ioe where
  estamp : Nat := 0
  elast : Nat := 0
  elastValid : Bool := false
  /-- The tick of divider phase 0 (R266). -/
  phase : Nat := 0
  /-- The first tick in which the next instruction can issue. -/
  free : Nat := 0
  cur : Option IoeCur := none
  /-- The injected instruction that waits (R280). -/
  inj : Option Nat := none
  /-- The out queue and the in queue, oldest first (R282). -/
  qout : List Nat := []
  qin : List Nat := []
  /-- The edge latch (R275): its pin, and the stamp and TNOW of the rising and falling edge it holds. -/
  pin : Option Nat := none
  rise : Option (Nat × Nat) := none
  fall : Option (Nat × Nat) := none
  deriving DecidableEq, Repr

/-- What an engine drives on a GIO pin (R268): not driven before the first drive and after a release. -/
inductive Drive where
  | z | low | high
  deriving DecidableEq, Repr

/-- The configuration space of a function, its MSI-X table and its vectors (R295 to R301, R347 to R353). -/
structure PcieFn where
  /-- Memory Space Enable and Bus Master Enable. -/
  mse : Bool := false
  bme : Bool := false
  /-- D3hot (R349). -/
  d3 : Bool := false
  msixEn : Bool := false
  fmask : Bool := false
  /-- Vectors whose Mask Bit is 0: every Mask Bit resets to 1. -/
  open' : Nat := 0
  /-- Vectors in state SENT (R295). -/
  sent : Nat := 0
  /-- The MSI-X table: address, upper address and data of vector `v` at 4 v + 0, 1 and 2. -/
  table : Tab Nat := []
  bar0 : Nat := 0
  bar1 : Nat := 0
  /-- Max_Payload_Size, Max_Read_Request_Size, Completion Timeout Value and Disable (R348, R353). -/
  mps : Nat := 0
  mrrs : Nat := 2
  cto : Nat := 0
  ctoOff : Bool := false
  /-- Advanced Error Reporting: uncorrectable status, mask and severity, the position of the first error, and its header
  (R348, R352). -/
  aerStat : Nat := 0
  aerMask : Nat := 0
  aerSev : Nat := 0x00462030
  aerFirst : Nat := 0
  aerHdr : List Nat := []
  deriving DecidableEq, Repr

/-- What a DMA channel reads from the host (R304, R307, R308). -/
inductive DmaKind where
  | fetch | source | dest
  deriving DecidableEq, Repr

/-- A read request: TNOW of its issue, its tag (R304, R353), and its data from their arrival on. -/
structure DmaReq where
  kind : DmaKind
  addr : Nat
  len : Nat
  at' : Nat
  tag : Nat := 0
  data : Option (List Nat) := none
  deriving DecidableEq, Repr

/-- A DMA channel beside its register fields (R302 to R318). -/
structure Dma where
  /-- The eight words of the descriptor in progress, and its host address. -/
  desc : List Nat := []
  addr : Nat := 0
  /-- Bytes of it written or compared. -/
  off : Nat := 0
  /-- Bytes asked of its source, and for COMPARE of its destination. -/
  ask : Nat := 0
  askDst : Nat := 0
  /-- Its RESULT and OFFSET, while the status write is still due. -/
  fin : Option (Nat × Nat) := none
  /-- Reads whose data have not been used up, oldest first. -/
  reqs : List DmaReq := []
  deriving DecidableEq, Repr

/-- What the endpoint issues to the link: the module's output (DESIGN CHOICE, log entry 56). -/
inductive PcieOut where
  /-- An MSI-X message of a vector of a function: address and data of its table entry. -/
  | msix (f vec addr data : Nat)
  /-- A memory read of a DMA channel: address, bytes and No Snoop. -/
  | read (chan addr len : Nat) (noSnoop : Bool)
  /-- A posted write of a DMA channel: address, 32-bit words and No Snoop. -/
  | write (chan addr : Nat) (words : List Nat) (noSnoop : Bool)
  deriving DecidableEq, Repr

/-- A message that is committed and waits for the link (R295, R297): its vector, its priority as it became due, and the
table entry. -/
structure Msi where
  f : Nat
  vec : Nat
  pri : Nat
  addr : Nat
  data : Nat
  deriving DecidableEq, Repr

/-- The endpoint beside its register fields (R344 to R359). -/
structure Pcie where
  fns : Tab PcieFn := []
  /-- PERST# is asserted. -/
  perst : Bool := true
  /-- TNOW of the latest deassertion of PERST#, and whether Configuration Request Retry Status is still answered. -/
  perstAt : Nat := 0
  retry : Bool := true
  /-- R345: the clock at J1 was present throughout the 100 µs before PERST# deasserted. -/
  refclk : Bool := false
  /-- Messages that wait for the link, in the order of R297. -/
  due : List Msi := []
  /-- The channel whose turn is next in the read engine and in the write engine (R304). -/
  readTurn : Nat := 0
  writeTurn : Nat := 0
  /-- By function: wsNs of its latest function reset, at which its live status fields hold their reset values (R8). -/
  resetAt : Tab Nat := []
  /-- Everything issued to the link, oldest first. -/
  out : List PcieOut := []
  /-- R356: TNOW of the request whose block reset of F1 waits for the channels; and of the request of R357. -/
  f1At : Option Nat := none
  hoAt : Option Nat := none
  deriving DecidableEq, Repr

/-- The monitor SPI port beside its register fields: what the next response carries (R339). -/
structure Mspi where
  /-- The next response is the first since power-on reset. -/
  first : Bool := true
  ferr : Bool := false
  cerr : Bool := false
  cmderr : Bool := false
  aerr : Bool := false
  done : Bool := false
  addr : Nat := 0
  data : Nat := 0
  /-- The bits that MISO shifted out in the latest frame: how many, and their value, the first bit highest; none where it
  stayed in high impedance. From a frame's end up to the next fall of SEL# MISO is in high impedance (R334). -/
  miso : Option (Nat × Nat) := none
  deriving DecidableEq, Repr

/-- The completion of the last read, or of the last write, as the sender sees it: the model's own record.
(DESIGN CHOICE, log entry 56). -/
inductive Resp where
  /-- A write, or no access yet. -/
  | none
  /-- Read data. -/
  | data (v : Nat)
  /-- Unsupported Request (R323, R352). -/
  | ur
  /-- Configuration Request Retry Status (R359). -/
  | retry
  deriving DecidableEq, Repr

/-- The state of the module. -/
structure State where
  /-- Commands waiting, first in, first out. -/
  pending : List Instr := []
  /-- TNOW, ns (R4, R406). -/
  tnow : Nat := 0
  /-- The wellspring's own time, ns; its ticks are every 1,000 ns. -/
  wsNs : Nat := 0
  /-- The register fields, by `Fld.key`. -/
  regs : Tab Nat := []
  /-- The RAM bytes of the unified map that differ from their reset contents. -/
  mem : List Host.Cell := []
  /-- Program words with ECC errors: 1 single-bit, 2 double-bit (R85). -/
  progErr : Tab Nat := []
  /-- The last access's completion. -/
  resp : Resp := .none
  /-- By source: the high-word offset and value latched by its most recent low-word read (R326). -/
  latched : Tab (Nat × Nat) := []
  /-- By source: the high-word offset and the low word held for it (R326). -/
  heldLow : Tab (Nat × Nat) := []
  /-- Error-log entries of the command being run (R423); empty between steps. -/
  logNew : List LogNew := []
  /-- The owed LOST entry of the error log (R424). -/
  lostOwed : LogLost := {}
  /-- TNOW of the last arming of each VR detector (R21). -/
  armAt : Tab Nat := []
  doms : Tab Domain := []
  seqs : Tab Seq := []
  mapm : Mapm := {}
  /-- R87: the sequencer cycle of the latest write of another source into the data memories, and the words so written in
  it, by address. -/
  dataIn : Nat × List (Nat × Nat) := (0, [])
  chans : Tab Chan := []
  svcs : Tab Svc := []
  change : Option Change := none
  adcs : Tab Adc := []
  /-- The interval of TNOW in which samples of an input are discarded: its start and its end (R197). -/
  settle : Tab (Nat × Nat) := []
  basins : Tab Basin := []
  /-- What a read of TRK[k]_MAX latched for a source, by 128 src + k: the tracker's other words (R222). -/
  trkLatch : Tab (List Nat) := []
  feeds : Tab Feed := []
  /-- TNOW of the last weight-bank swap of a domain (R220). -/
  weightSwap : Tab Nat := []
  /-- The hold of spillway path 3, and the hold of paths 2 and 4 to 7 (R161, R192). -/
  hold3 : Bool := false
  hold2 : Bool := false
  cmps : Tab Cmp := []
  trips : Tab Trip := []
  pwms : Tab Pwm := []
  /-- R257: a Dormant request was accepted, so every AUX pin is in high impedance. -/
  auxOff : Bool := false
  /-- TNOW at which a debug halt stopped the sequencer clocks (R161). -/
  clkStopAt : Nat := 0
  ioes : Tab Ioe := []
  /-- What its engine drives on each GIO pin (R268). -/
  gio : Tab Drive := []
  dmas : Tab Dma := []
  pcie : Pcie := {}
  mspi : Mspi := {}
  power : Power := {}
  den : Den := {}
  pair : Pair := {}
  deriving DecidableEq, Repr

/-- The machine right after power-on reset, in a single-module slot: every field at its reset value, every memory
cleared, no command waiting (DESIGN CHOICE, log entry 6) (DESIGN CHOICE, log entry 7). -/
def State.reset : State := {}

end Sys2Proof.Machine
end

