-- ==== Sys2Proof/Machine/Ops.lean ====
section
/-! DEFINITION. The named operations over the state: register fields, counters, memories, engine records, the
error log and the tests that many rules share. Nothing else reads or writes these parts of the state. -/

namespace Sys2Proof.Machine

/-! ### Register fields -/

/-- The value of field `f` of copy `i` of its register. -/
def State.fld (s : State) (f : Fld) (i : Nat := 0) : Nat := Tab.get (f.resetAt i) s.regs (f.key i)

/-- The field stored, cut to its width. -/
def State.setFld (s : State) (f : Fld) (i v : Nat) : State :=
  { s with regs := Tab.set (f.resetAt i) s.regs (f.key i) (maskN f.width v) }

/-- A one-bit field read as a truth value. -/
def State.flag (s : State) (f : Fld) (i : Nat := 0) : Bool := s.fld f i != 0

/-- A one-bit field set: a sticky flag raised (R427). -/
def State.raise (s : State) (f : Fld) (i : Nat := 0) : State := s.setFld f i 1

/-- A one-bit field written from a truth value. -/
def State.putFlag (s : State) (f : Fld) (i : Nat) (b : Bool) : State := s.setFld f i (b2n b)

/-- A counter advanced by `n`, holding at its maximum (R417). -/
def State.bumpBy (s : State) (f : Fld) (i n : Nat) : State :=
  s.setFld f i (min (s.fld f i + n) (2 ^ f.width - 1))

/-- A counter advanced by 1, holding at its maximum (R417). -/
def State.bump (s : State) (f : Fld) (i : Nat := 0) : State := s.bumpBy f i 1

/-- Bits of a field set by a mask. -/
def State.orFld (s : State) (f : Fld) (i m : Nat) : State := s.setFld f i (s.fld f i ||| m)

/-- Bits of a field cleared by a mask. -/
def State.clearBits (s : State) (f : Fld) (i m : Nat) : State :=
  s.setFld f i (s.fld f i - (s.fld f i &&& m))

/-! ### Memories of the unified map -/

/-- Reset contents: 0x80_0000 in every correction-bank word (R69), the mode in word 1,023 of every data memory (R185), 0 in
every other memory (DESIGN CHOICE, log entry 5). -/
def memDefault (a : Nat) : Byte :=
  if 0x500000 ≤ a ∧ a < 0x518000 then (if a % 0x1000 = 0xFFC then 1#8 else 0#8)
  else if 0x80000 ≤ a ∧ a < 0xC0000 ∧ 0x4000 ≤ a % 0x10000 ∧ a % 0x10000 < 0x6000 ∧ a % 4 = 2 then 0x80#8 else 0#8

/-- One byte of the memories (DESIGN CHOICE, log entry 5). -/
def State.byte (s : State) (a : Nat) : Byte := (Tab.find s.mem a).getD (memDefault a)

/-- One byte stored: a byte equal to its reset contents is not listed. -/
def State.setByte (s : State) (a : Nat) (b : Byte) : State :=
  { s with mem := Tab.put s.mem a (if b = memDefault a then none else some b) }

/-- The canonical form of the memory: addresses strictly rising, no byte equal to its reset contents. -/
def Memory.wf (m : List Host.Cell) : Bool := Tab.rising m && Tab.every (fun a b => b != memDefault a) m

/-- `n` bytes from `a` upwards, little-endian (R320). -/
def State.bytesAt (s : State) (a : Nat) : Nat → Nat
  | 0 => 0
  | n + 1 => (s.byte a).toNat + 256 * s.bytesAt (a + 1) n

/-- A 32-bit word of the memories. -/
def State.word (s : State) (a : Nat) : Nat := s.bytesAt a 4

/-- A 16-bit value of the memories. -/
def State.half (s : State) (a : Nat) : Nat := s.bytesAt a 2

/-- The bytes of a 32-bit value stored where the byte enables are 1. -/
def State.setBytes (s : State) (a be v : Nat) : State :=
  (upto 4).foldl (fun t j => if bitN be j then t.setByte (a + j) (BitVec.ofNat 8 (v / 256 ^ j)) else t) s

/-- A 32-bit word stored. -/
def State.setWord (s : State) (a v : Nat) : State := s.setBytes a 15 v

/-- Bytes that another source than its sequencer writes in the data memories in the present sequencer cycle, noted with the
rank of their writer for the writes of that cycle that come before it: 2 + e for a POST of engine e, 1 for every other source
(R87, R284). -/
def State.noteData (s : State) (a be : Nat) (rank : Nat := 1) : State :=
  let c := s.tnow / 2
  let new := ((upto 4).filter fun j => bitN be j).map fun j => (a + j, rank)
  { s with dataIn := (c, (if s.dataIn.1 = c then s.dataIn.2 else []) ++ new) }

/-- The byte enables of a data-memory write of rank `rank` in sequencer cycle `c`: a byte that a writer of a higher rank has
written in that cycle keeps its value (R87, R284). -/
def State.openBytes (s : State) (c a rank : Nat) : Nat :=
  (upto 4).foldl (fun m j =>
    if s.dataIn.1 = c ∧ s.dataIn.2.any (fun w => w.1 == a + j && decide (rank < w.2)) then m else m + 2 ^ j) 0

/-- Every byte of a range back at its reset contents. -/
def State.clearMem (s : State) (lo hi : Nat) : State :=
  { s with mem := s.mem.filter fun c => c.1 < lo || hi ≤ c.1 }

/-- The address of tooth-map entry `k` of domain `d` (R28). -/
def tmapAddr (d k : Nat) : Nat := 0x80000 + d * 0x10000 + 8 * k
/-- The address of phase-map entry `j` of domain `d` (R32). -/
def pmapAddr (d j : Nat) : Nat := 0x80000 + d * 0x10000 + 0x2000 + 8 * j
/-- The address of entry `k` of correction bank `b` of domain `d` (R69). -/
def tclAddr (d b k : Nat) : Nat := 0x80000 + d * 0x10000 + 0x4000 + b * 0x1000 + 4 * k
/-- The address of instruction `i` of bank `b` of sequencer `n` (R83). -/
def progAddr (n b i : Nat) : Nat := 0x200000 + n * 0x4000 + b * 0x2000 + 4 * i
/-- The address of word `i` of the data memory of sequencer `n` (R86). -/
def dmemAddr (n i : Nat) : Nat := 0x500000 + n * 0x1000 + 4 * i
/-- The address of byte `a` of the map memory (R88). -/
def mapmAddr (a : Nat) : Nat := 0x400000 + a
/-- The address of entry `i` of weight bank `b` of domain `d` (R218). -/
def weightAddr (d b i : Nat) : Nat := 0x480000 + d * 0x8000 + b * 0x4000 + 4 * i
/-- The address of instruction `i` of I/O engine `e` (R281). -/
def imemAddr (e i : Nat) : Nat := 0x188000 + e * 0x100 + 4 * i

/-! ### Engine records -/

def State.dom (s : State) (d : Nat) : Domain := Tab.get {} s.doms d
def State.setDom (s : State) (d : Nat) (x : Domain) : State := { s with doms := Tab.set {} s.doms d x }
def State.modDom (s : State) (d : Nat) (f : Domain → Domain) : State := s.setDom d (f (s.dom d))

def State.seq (s : State) (n : Nat) : Seq := Tab.get {} s.seqs n
def State.setSeq (s : State) (n : Nat) (q : Seq) : State := { s with seqs := Tab.set {} s.seqs n q }
def State.modSeq (s : State) (n : Nat) (f : Seq → Seq) : State := s.setSeq n (f (s.seq n))

def State.chan (s : State) (c : Nat) : Chan := Tab.get {} s.chans c
def State.setChan (s : State) (c : Nat) (x : Chan) : State := { s with chans := Tab.set {} s.chans c x }
def State.modChan (s : State) (c : Nat) (f : Chan → Chan) : State := s.setChan c (f (s.chan c))

def State.svc (s : State) (k : Nat) : Svc := Tab.get {} s.svcs k
def State.setSvc (s : State) (k : Nat) (x : Svc) : State := { s with svcs := Tab.set {} s.svcs k x }

def State.slot (s : State) (n k : Nat) : Slot := Tab.get {} (s.seq n).slots k
def State.setSlot (s : State) (n k : Nat) (x : Slot) : State :=
  s.modSeq n fun q => { q with slots := Tab.set {} q.slots k x }

/-! ### Modes and write gates -/

/-- The device-layer mode (R173). -/
def State.mode (s : State) : Nat := s.fld .MODE_STAT_MODE

def modeDormant : Nat := 0
def modeStandby : Nat := 1
def modeSeek : Nat := 2
def modeRun : Nat := 3
def modeLimp : Nat := 4
def modeClearing : Nat := 5

/-- A mode change is in progress (R186). -/
def State.changing (s : State) : Bool := s.flag .MODE_STAT_TRANSITION || s.flag .MODE_STAT_EPOCH_PENDING

/-- R6: writes to RWL fields take effect. -/
def State.rwlOpen (s : State) : Bool :=
  (s.mode == modeStandby || s.mode == modeSeek || s.mode == modeClearing) && !s.changing

/-- The fast clocks run, so every block outside the wellspring does (R402). -/
def State.live (s : State) : Bool := s.power.clocks && !s.power.held

/-- The event clock, and TNOW with it, stands: it or the 50 MHz reference has failed (R10, R403, R413).
(DEDUCED, log entry 46). -/
def State.evStopped (s : State) : Bool := s.power.forced && (s.power.failCode == 1 || s.power.failCode == 2)

/-- The sequencers' clock stands: a debug halt has stopped it (R161), or it, the event clock or the reference has failed
(R10, R403, R413) (DEDUCED, log entry 46). -/
def State.seqStopped (s : State) : Bool :=
  s.flag .DBG_STAT_CLK_STOPPED || s.evStopped || (s.power.forced && s.power.failCode == 3)

/-- The peripheral clock stands: it or the reference has failed (R10, R261, R403, R413) (DEDUCED, log entry 46). -/
def State.perStopped (s : State) : Bool := s.power.forced && (s.power.failCode == 1 || s.power.failCode == 4)

/-- The fast clocks run and none has failed: every clock but one that a debug halt stops (R402, R403). -/
def State.up (s : State) : Bool := s.live && !s.power.forced

/-- R458: the domain is in use and marked critical. -/
def State.critical (s : State) (d : Nat) : Bool := s.fld .AD_MAPCFG_TLEN d != 0 && s.flag .AD_CFG_CRITICAL d

/-- Every critical domain satisfies a test. -/
def State.allCritical (s : State) (p : Nat → Bool) : Bool := (upto 4).all fun d => !s.critical d || p d

def stNosync : Nat := 0
def stSeeking : Nat := 1
def stSync : Nat := 2
def stPhaseOnly : Nat := 3

/-- The sync state of a domain. -/
def State.dstate (s : State) (d : Nat) : Nat := s.fld .AD_SYNC_STAT_STATE d

/-! ### The error log (R420 to R425) -/

/-- An entry that arises in this command; `logFlush` writes it in the order of R423. -/
def State.log (s : State) (code index sub detail : Nat) : State :=
  { s with logNew := s.logNew ++ [⟨code, index, sub, detail⟩] }

/-- Unread entries of the error log. -/
def State.unread (s : State) : Nat := (s.fld .ELOG_WR + 65536 - s.fld .ELOG_RD) % 65536

/-- One entry stored, with its time and mode (R420, R421). -/
def State.logStore (s : State) (time mode : Nat) (e : LogNew) : State :=
  let k := s.fld .ELOG_WR % 64
  let s := s.setFld .ELOG_TIME k time
  let s := s.setFld .ELOG_HEAD_CODE k e.code
  let s := s.setFld .ELOG_HEAD_INDEX k e.index
  let s := s.setFld .ELOG_HEAD_MODE k mode
  let s := s.setFld .ELOG_HEAD_SUB k e.sub
  let s := s.setFld .ELOG_DETAIL k e.detail
  s.setFld .ELOG_WR 0 (s.fld .ELOG_WR + 1)

/-- The cycle of the ELOG_RD write that freed space while a LOST entry is owed lasts (R424, R425). -/
def State.logHeld (s : State) : Bool := s.lostOwed.count != 0 && s.lostOwed.freedAt == some (s.tnow / 2)

/-- One entry stored, or discarded and counted where 64 are unread or space was freed for a LOST entry in this very cycle
(R420, R424, R425). -/
def State.logWrite (s : State) (mode : Nat) (e : LogNew) : State :=
  if s.unread < 64 ∧ s.logHeld = false then s.logStore s.tnow mode e
  else { s.bump .ELOG_OVF with lostOwed := { s.lostOwed with count := min 65535 (s.lostOwed.count + 1) } }

/-- TNOW of the cycle in which the LOST entry is due: the one after the ELOG_RD write (R424). -/
def State.lostTime (s : State) : Nat :=
  match s.lostOwed.freedAt with
  | some c => 2 * (c + 1)
  | none => s.tnow

/-- The owed LOST entry, once space for it is free and the cycle that freed it is over (R424) (DEDUCED, log entry 12). -/
def State.logLost (s : State) (mode : Nat) : State :=
  if s.lostOwed.count ≠ 0 ∧ s.unread < 64 ∧ s.logHeld = false then
    { s.logStore s.lostTime mode ⟨0x0F, 0, 0, s.lostOwed.count⟩ with lostOwed := {} }
  else s

/-- The order of R423: ascending CODE, then INDEX, then SUB. -/
def LogNew.le (a b : LogNew) : Bool :=
  a.code < b.code || (a.code == b.code && (a.index < b.index || (a.index == b.index && a.sub ≤ b.sub)))

/-- An entry put in its place of R423 (DESIGN CHOICE, log entry 2). -/
def logInsert (e : LogNew) : List LogNew → List LogNew
  | [] => [e]
  | x :: r => if e.le x && !x.le e then e :: x :: r else x :: logInsert e r

/-- The entries of a command written to the log in the order of R423, with the mode at the start of the command.
In Dormant the log records nothing (R426) (DESIGN CHOICE, log entry 2). -/
def State.logFlush (s : State) (mode : Nat) : State :=
  if s.mode == modeDormant then { s with logNew := [] } else
    let es := s.logNew.foldl (fun l e => logInsert e l) []
    let t := if es.isEmpty then s else s.logLost mode
    { es.foldl (fun t e => t.logWrite mode e) t with logNew := [] }

/-! ### Access errors (R328) -/

/-- The number of an access source (R329). -/
def srcNum : Src → Nat
  | .f k => k.val
  | .mspi => 4
  | .dma c => 8 + c.val

/-- The kinds of R328, with their codes. -/
inductive ErrKind where
  | narrowActionWrite | narrowActionRead | misaligned | unmapped | locked | refused | unlatched | narrowMem
  deriving DecidableEq, Repr

/-- The KIND code of R328. -/
def ErrKind.code (k : ErrKind) : Nat := k.ctorIdx + 1

/-- An access logged in ACCESS_ERR: counted, and recorded if no record is held (R328); AERR of an MSPI frame (R337).
(DEDUCED, log entry 38). -/
def State.accessErr (s : State) (src off be : Nat) (write : Bool) (k : ErrKind) : State :=
  let s := if src = 4 then { s with mspi := { s.mspi with aerr := true } } else s
  let s := s.bump .ACCESS_ERR_CNT
  if s.flag .ACCESS_ERR_VALID then s.raise .ACCESS_ERR_LOST else
    let s := s.raise .ACCESS_ERR_VALID
    let s := s.setFld .ACCESS_ERR_SRC 0 src
    let s := s.setFld .ACCESS_ERR_KIND 0 k.code
    let s := s.setFld .ACCESS_ERR_BE 0 be
    let s := s.putFlag .ACCESS_ERR_WRITE 0 write
    s.setFld .ACCESS_ERR_ADDR_OFFSET 0 off

end Sys2Proof.Machine
end

