-- ==== Sys2Proof/Machine/Icu.lean ====
section
/-! DEFINITION. Interrupt sources, their targets, and MSI-X delivery by level emulation (R289 to R299). -/

namespace Sys2Proof.Machine

def State.fn (s : State) (f : Nat) : PcieFn := Tab.get {} s.pcie.fns f
def State.setFn (s : State) (f : Nat) (x : PcieFn) : State :=
  { s with pcie := { s.pcie with fns := Tab.set {} s.pcie.fns f x } }
def State.modFn (s : State) (f : Nat) (g : PcieFn → PcieFn) : State := s.setFn f (g (s.fn f))

def State.modPcie (s : State) (g : Pcie → Pcie) : State := { s with pcie := g s.pcie }

/-- What the endpoint issues to the link. -/
def State.emit (s : State) (o : PcieOut) : State := { s with pcie := { s.pcie with out := s.pcie.out ++ [o] } }

/-- Any of some fields of copy `i` is nonzero. -/
def State.anyFlag (s : State) (fs : List Fld) (i : Nat := 0) : Bool := fs.any fun f => s.flag f i

/-- The condition of R238 of comparator `k`. -/
def State.cmpSource (s : State) (k : Nat) : Bool :=
  (s.flag .CMP_STAT_RISE k && s.flag .CMP_ROUTE_IRQ_RISE k) || (s.flag .CMP_STAT_FALL k && s.flag .CMP_ROUTE_IRQ_FALL k)

/-- The fault bits that a core fault sets (R105). -/
def seqFaults : List Fld :=
  [.SEQ_FAULT_NORATE, .SEQ_FAULT_DIV0, .SEQ_FAULT_MAP_ECC, .SEQ_FAULT_MAP_FMT, .SEQ_FAULT_ADDR, .SEQ_FAULT_PROG_ECC,
   .SEQ_FAULT_ILLEGAL]

/-- The task faults of R142. -/
def taskFaults : List Fld :=
  [.SEQ_TASK_FLT_BAD_WAIT, .SEQ_TASK_FLT_HANDOVER_FAIL, .SEQ_TASK_FLT_BAD_CHANNEL, .SEQ_TASK_FLT_BAD_LIMIT,
   .SEQ_TASK_FLT_SLOT_EXHAUST, .SEQ_TASK_FLT_BUDGET_OVER, .SEQ_TASK_FLT_OVERRUN]

/-- The sticky events of an I/O engine (R286). -/
def ioeEvents : List Fld :=
  [.IOE_EVT_ILLEGAL, .IOE_EVT_IRQ, .IOE_EVT_LATE, .IOE_EVT_EDGE_OVR, .IOE_EVT_INJ_REFUSED, .IOE_EVT_INJ_LOST,
   .IOE_EVT_PIN_DENIED, .IOE_EVT_IN_UNDER, .IOE_EVT_IN_OVF, .IOE_EVT_OUT_UNDER, .IOE_EVT_OUT_OVF]

/-- The endpoint events (R361). -/
def pcieEvents : List Fld :=
  [.PCIE_EVT_FOREIGN, .PCIE_EVT_HO_FALLBACK, .PCIE_EVT_FLR_DONE, .PCIE_EVT_LINK_UP, .PCIE_EVT_LINK_DOWN]

/-- The mode faults (R195). -/
def modeFaults : List Fld :=
  [.MODE_FAULT_SUPERSEDED, .MODE_FAULT_EPOCH_LOST, .MODE_FAULT_TIMEOUT, .MODE_FAULT_EPOCH_INVALID, .MODE_FAULT_REFUSED]

/-- The sources below 24: domains, platform and pair (R290). -/
def State.sourceLow (s : State) (k : Nat) : Bool :=
  if k < 4 then s.anyFlag [.AD_FAULT_UNEXP_GAP, .AD_FAULT_MISSING_GAP, .AD_FAULT_STALL, .AD_FAULT_PHASE_FLIP, .AD_FAULT_PH_LOST] k
  else if k < 8 then
    s.anyFlag [.AD_FAULT_COARSE, .AD_FAULT_ACQ_RESTART, .AD_FAULT_MAP_INVALID, .AD_FAULT_PHASE_MISMATCH,
      .AD_EST_FAULT_WRAPPED, .AD_EST_FAULT_PRED_LIMIT, .AD_EST_FAULT_JUMP_WARN,
      .AD_TCL_FAULT_SWAP_REFUSED, .AD_TCL_FAULT_HOST_REJECT, .AD_TCL_FAULT_OUT_OF_BOUND] (k - 4)
  else match k with
    | 8 => s.flag .ICU_PLAT_EVT_MODE_DONE
    | 9 => s.anyFlag modeFaults
    | 10 => s.flag .ICU_PLAT_EVT_SPILL
    | 11 => s.unread != 0
    | 12 => s.flag .ACCESS_ERR_VALID
    | 13 => s.flag .MSPI_CNT_FRAME
    | 14 => s.anyFlag pcieEvents
    | 15 => s.anyFlag [.PWR_EVT_WOKE, .PWR_EVT_CLK_FAIL, .PWR_EVT_SUP_FAULT]
    | _ => bitN (s.fld .PAIR_EVT) (k - 16)

/-- The level of source `k` (R289, R290). -/
def State.source (s : State) (k : Nat) : Bool :=
  if k < 24 then s.sourceLow k
  else if k < 48 then s.anyFlag seqFaults (k - 24)
  else if k < 72 then s.anyFlag taskFaults (k - 48)
  else if k < 96 then bitN (s.fld .SEQ_FLAGS (k - 72)) 15
  else if k < 160 then bitN (s.fld .ICU_MARK ((k - 96) / 32)) ((k - 96) % 32)
  else if k < 176 then s.flag .BAS_CLOSED (k - 160)
  else if k < 180 then s.anyFlag [.BAS_FEED_STAT_OVF, .BAS_FEED_STAT_UNDERRUN] (k - 176)
  else if k < 204 then
    s.anyFlag [.ADC_STAT_SETTLE_DROP, .ADC_STAT_FLT_SAT, .ADC_STAT_COMMIT_REFUSED, .ADC_STAT_CAL_FAIL] (k - 180)
  else if k < 236 then s.cmpSource (k - 204)
  else if k < 252 then s.flag .PWM_STAT_TRIPPED (k - 236)
  else if k < 268 then s.anyFlag ioeEvents (k - 252)
  else if k < 284 then s.anyFlag [.DMA_CH_EVT_BIND_BAD, .DMA_CH_EVT_ERR, .DMA_CH_EVT_DONE] (k - 268)
  else if k = 284 then s.anyFlag [.DMA_ENG_EVT_BME_OFF, .DMA_ENG_EVT_QUOTA_BAD]
  else if k < 320 then false
  else if k < 384 then bitN (s.fld .ICU_SWI ((k - 320) / 32)) ((k - 320) % 32)
  else false

/-- The sources whose target has a nonzero TYPE, ascending. -/
def State.targeted (s : State) : List Nat :=
  s.regs.filterMap fun e =>
    if Fld.key .ICU_TGT_TYPE 0 ≤ e.1 ∧ e.1 < Fld.key .ICU_TGT_TYPE 0 + 384 ∧ e.2 ≠ 0
    then some (e.1 - Fld.key .ICU_TGT_TYPE 0) else none

/-- The asserted sources whose target has TYPE `t`. -/
def State.assertedAt (s : State) (t : Nat) : List Nat :=
  s.targeted.filter fun k => s.fld .ICU_TGT_TYPE k == t && s.source k

/-- The asserted sources that drive INT# (R294). -/
def State.intSources (s : State) : List Nat :=
  (s.assertedAt 5).filter fun k => s.fld .ICU_INT_CFG_MINPRI ≤ s.fld .ICU_TGT_PRI k

/-- INT# is driven low (R294). -/
def State.intLow (s : State) : Bool := !s.intSources.isEmpty

/-- The source that ICU_INT_TOP names: highest PRI, then lowest number (R294). -/
def State.intTop (s : State) : Option Nat :=
  s.intSources.foldl (fun b k => match b with
    | none => some k
    | some j => if s.fld .ICU_TGT_PRI j < s.fld .ICU_TGT_PRI k then some k else some j) none

/-- Vectors with level 1, with their priority of R297: function, vector and highest PRI. -/
def State.vectors (s : State) : List (Nat × Nat × Nat) :=
  (s.targeted.filter fun k => s.fld .ICU_TGT_TYPE k ≤ 4 && s.source k).map fun k =>
    (s.fld .ICU_TGT_TYPE k - 1, s.fld .ICU_TGT_IDX k, s.fld .ICU_TGT_PRI k)

/-- The level of vector `v` of function `f` (R295). -/
def State.vlevel (s : State) (f v : Nat) : Bool := s.vectors.any fun e => e.1 == f && e.2.1 == v

/-- ICU_VLEVEL of a function. -/
def State.vlevels (s : State) (f : Nat) : Nat :=
  (upto 64).foldl (fun n v => if s.vlevel f v then n + 2 ^ v else n) 0

/-- A message of a vector may be sent (R296, R349). -/
def State.maySend (s : State) (f v : Nat) : Bool :=
  let x := s.fn f
  x.msixEn && x.bme && !x.d3 && !x.fmask && bitN x.open' v

/-- The Pending Bit Array of a function (R296). -/
def State.pba (s : State) (f : Nat) : Nat :=
  (upto 64).foldl (fun n v =>
    if s.vlevel f v && !bitN (s.fn f).sent v && !s.maySend f v then n + 2 ^ v else n) 0

/-- A message committed: it waits for the link with its priority and its table entry (R295, R297). -/
def State.sendMsi (s : State) (f v pri : Nat) : State :=
  let t := (s.fn f).table
  s.modPcie fun p => { p with due := p.due ++
    [⟨f, v, pri, Tab.get 0 t (4 * v) + 2 ^ 32 * Tab.get 0 t (4 * v + 1), Tab.get 0 t (4 * v + 2)⟩] }

/-- A message of the vector waits for the link. -/
def State.msiWaits (s : State) (f v : Nat) : Bool := s.pcie.due.any fun m => m.f == f && m.vec == v

/-- The order of R297: higher PRI first, then lower function, then lower vector. -/
def vecBefore (a b : Nat × Nat × Nat) : Bool :=
  b.2.2 < a.2.2 || (a.2.2 == b.2.2 && (a.1 < b.1 || (a.1 == b.1 && a.2.1 < b.2.1)))

/-- A vector put in its place of R297. -/
def vecInsert (e : Nat × Nat × Nat) : List (Nat × Nat × Nat) → List (Nat × Nat × Nat)
  | [] => [e]
  | x :: r => if vecBefore e x then e :: x :: r else x :: vecInsert e r

/-- A waiting message put in its place of R297. -/
def msiInsert (e : Msi) : List Msi → List Msi
  | [] => [e]
  | x :: r => if vecBefore (e.f, e.vec, e.pri) (x.f, x.vec, x.pri) then e :: x :: r else x :: msiInsert e r

/-- One vector: committed if it is IDLE, its level is 1 and the message may be sent (R295). -/
def State.sendIdle (s : State) (e : Nat × Nat × Nat) : State :=
  if !bitN (s.fn e.1).sent e.2.1 && s.maySend e.1 e.2.1 then
    (s.modFn e.1 fun x => { x with sent := x.sent + 2 ^ e.2.1 }).sendMsi e.1 e.2.1 e.2.2
  else s

/-- Every vector that is IDLE with level 1 and may be sent, in the order of R297 (DESIGN CHOICE, log entry 13). -/
def State.icuDeliver (s : State) : State :=
  (s.vectors.foldl (fun l e => vecInsert e l) []).foldl State.sendIdle s

/-- The messages that wait leave the link in the order of R297, each counted: at the start of a peripheral-clock cycle with
the link up (DESIGN CHOICE, log entry 13). -/
def State.sendDue (s : State) : State :=
  if s.tnow % 4 = 0 ∧ s.flag .PCIE_STAT_LINK_UP = true ∧ s.pcie.due ≠ [] then
    (s.pcie.due.foldl (fun l e => msiInsert e l) []).foldl
      (fun t m => (t.emit (.msix m.f m.vec m.addr m.data)).bump .ICU_CNT_MSG_CNT m.f)
      (s.modPcie fun p => { p with due := [] })
  else s

/-- The highest PRI among the asserted sources of a vector (R297). -/
def State.vecPri (s : State) (f v : Nat) : Nat :=
  (s.vectors.filter fun e => e.1 == f && e.2.1 == v).foldl (fun n e => max n e.2.2) 0

/-- An EOI of vector `v` by function `f` (R295, R298): where the message of a SENT vector waits, it is spurious; with level
1 the message is sent again, or is pending where it may not be sent (R296). -/
def State.eoi (s : State) (f v : Nat) : State :=
  if bitN (s.fn f).sent v && !s.msiWaits f v then
    if s.vlevel f v && s.maySend f v then s.sendMsi f v (s.vecPri f v)
    else s.modFn f fun x => { x with sent := x.sent - 2 ^ v }
  else s.orFld .ICU_FAULT_SPURIOUS_EOI 0 (2 ^ f)

/-- The reset of a function's configuration space: every vector IDLE, no message waiting, the MSI-X table at its reset values
(R299, R346, R354). -/
def State.resetFnConfig (s : State) (f : Nat) : State :=
  (s.setFn f {}).modPcie fun p => { p with due := p.due.filter fun m => m.f != f }

/-- A write of ICU_TGT (R292): a reserved source discards it, and TYPE 6 refuses an index above 23. -/
def State.tgtWrite (s : State) (src off be k v : Nat) : State :=
  if 285 ≤ k ∧ k < 320 then s
  else if bitsN v 18 16 = 6 ∧ 23 < bitsN v 5 0 then (s.raise .ICU_FAULT_TGT_BAD).accessErr src off be true .refused
  else
    let s := s.setFld .ICU_TGT_TYPE k (bitsN v 18 16)
    let s := s.setFld .ICU_TGT_PRI k (bitsN v 13 12)
    s.setFld .ICU_TGT_IDX k (bitsN v 5 0)

/-! ### The end of a command -/

/-- A debug halt stops the sequencer clocks once every channel is inactive (R161) (DEDUCED, log entry 36). -/
def State.debugSettle (s : State) : State :=
  if s.flag .DBG_STAT_HALTED && !s.flag .DBG_STAT_CLK_STOPPED && (upto 96).all (fun c => !s.flag .OUT_STAT_LEVEL c) then
    { s.raise .DBG_STAT_CLK_STOPPED with clkStopAt := if s.seqStopped then s.clkStopAt else s.tnow }
  else s

/-- What ends every command: the error log takes the command's entries with the mode at its start (R421, R423), then the clocks of
a debug halt stop, and vectors that may be sent are sent (R295) (DESIGN CHOICE, log entry 13). -/
def State.concluded (m : Nat) (s : State) : State :=
  let t := s.logFlush m
  if !t.live then t
  else if t.perStopped then t.debugSettle else t.debugSettle.icuDeliver

/-- The outcome of a command whose effect on the state is `f` (DESIGN CHOICE, log entry 3) (DESIGN CHOICE, log entry 55). -/
def run (s : State) (f : State → State) : Host.Outcome State Fault Refusal := .next ((f s).concluded s.mode)

/-- A command of a block that the fast clocks run: without them it has no effect (R402) (DESIGN CHOICE, log entry 3). -/
def runLive (s : State) (f : State → State) : Host.Outcome State Fault Refusal :=
  run s fun s => if s.live then f s else s

/-- A command that a sequencer's clock carries out: without it, as in a debug halt, it has no effect (R10, R161).
(DESIGN CHOICE, log entry 3). -/
def runSeq (s : State) (f : State → State) : Host.Outcome State Fault Refusal :=
  runLive s fun s => if s.seqStopped then s else f s

/-- A command that the event clock carries out: without it it has no effect (R10, R403) (DESIGN CHOICE, log entry 3). -/
def runEv (s : State) (f : State → State) : Host.Outcome State Fault Refusal :=
  runLive s fun s => if s.evStopped then s else f s

/-- A command that the peripheral clock carries out: register accesses, engines, generators, trips and converters. Without it
the AUX and GIO pins keep their levels, and no trip acts (R10, R261, R287) (DEDUCED, log entry 46). -/
def runPer (s : State) (f : State → State) : Host.Outcome State Fault Refusal :=
  runLive s fun s => if s.perStopped then s else f s

end Sys2Proof.Machine
end

