-- ==== Sys2Proof/Machine/DmaChannels.lean ====
section
/-! DEFINITION. The channels of the DMA engine as their registers act on them (R303, R306, R311, R313, R315, R319). -/

namespace Sys2Proof.Machine

def State.dma (s : State) (c : Nat) : Dma := Tab.get {} s.dmas c
def State.setDma (s : State) (c : Nat) (x : Dma) : State := { s with dmas := Tab.set {} s.dmas c x }
def State.modDma (s : State) (c : Nat) (f : Dma → Dma) : State := s.setDma c (f (s.dma c))

/-- The codes of DMA_CH_STAT.STATE. -/
def dmIdle : Nat := 0
def dmFetch : Nat := 1
def dmActive : Nat := 2
def dmWaitRing : Nat := 3
def dmStopping : Nat := 4
def dmStopped : Nat := 5

def State.dmaOn (s : State) (c : Nat) : Bool := s.flag .DMA_CH_CFG_EN c
def State.dmaFeeds (s : State) (c : Nat) : Bool := s.flag .DMA_CH_CFG_MODE c
def State.dmaState (s : State) (c : Nat) : Nat := s.fld .DMA_CH_STAT_STATE c
def State.putDmaState (s : State) (c v : Nat) : State := s.setFld .DMA_CH_STAT_STATE c v

/-- Descriptors in the ring of a channel (R306). -/
def State.ringLen (s : State) (c : Nat) : Nat := 2 ^ s.fld .DMA_CH_SIZE c

/-- Slots in the result ring of a channel (R314). -/
def State.resultLen (s : State) (c : Nat) : Nat := 2 ^ s.fld .DMA_CH_RSIZE c

/-- The result ring of a channel is full (R314). -/
def State.ringFull (s : State) (c : Nat) : Bool := (s.fld .DMA_CH_WR c + 1) % s.resultLen c == s.fld .DMA_CH_RD c

/-- STATE as it reads: in feed mode a channel waits while its result ring is full (R314). -/
def State.dmaStateView (s : State) (c : Nat) : Nat :=
  if s.dmaOn c && s.dmaFeeds c then (if s.ringFull c then dmWaitRing else dmIdle) else s.dmaState c

/-- Reads that have not been answered. -/
def Dma.open' (x : Dma) : List DmaReq := x.reqs.filter fun r => r.data.isNone

/-- The descriptor in progress, or its fetch, ends with RESULT `r`: data that have arrived are discarded, and outstanding
reads are waited for (R310, R313). -/
def Dma.ended (x : Dma) (r : Nat) : Dma := { x with fin := some (r, x.off), reqs := x.open' }

/-- R313: new requests stop at once. With a descriptor in progress, or its fetch outstanding, the channel is STOPPING, and the
descriptor ends as ABORTED; with neither, the channel is simply disabled (DEDUCED, log entry 40). -/
def State.dmaAbort (s : State) (c : Nat) : State :=
  let x := s.dma c
  if x.desc.isEmpty && x.reqs.isEmpty then (s.putFlag .DMA_CH_CFG_EN c false).putDmaState c dmIdle
  else (s.setDma c (x.ended 6)).putDmaState c dmStopping

/-- Setting EN in feed mode is refused (R315). RBASE is always aligned: its bits [3:0] are no part of the field. -/
def State.bindBad (s : State) (c : Nat) : Bool :=
  s.dmaFeeds c
    && ((upto 16).any (fun j => j != c && s.dmaOn j && s.dmaFeeds j && s.fld .DMA_CH_CFG_FEED j == s.fld .DMA_CH_CFG_FEED c)
      || decide (s.fld .DMA_CH_RSIZE c < 2) || decide (12 < s.fld .DMA_CH_RSIZE c))

/-- A write of DMA_CH_CFG (R302, R303, R313, R315, R319): what EN = 1 locks, QUOTA, PRI, then EN. A field is written where
the byte that holds it is enabled (R321): QUOTA in byte 1, FEED in byte 2, MODE and NOSNOOP in byte 3. -/
def State.dmaCfg (s : State) (src off be c v : Nat) : State :=
  let on := s.dmaOn c
  let quota := bitsN v 14 8
  let held := s.fld .DMA_CH_CFG_QUOTA c
  let sum := (upto 16).foldl (fun n j => n + s.fld .DMA_CH_CFG_QUOTA j) 0
  let locked := on && (bitN be 3 || bitN be 2)
  let quotaBad := bitN be 1 && (on || (decide (held < quota) && decide (64 < sum - held + quota)))
  let s := if on then s else
    ((s.setFld .DMA_CH_CFG_MODE c (bitsN v 30 30)).setFld .DMA_CH_CFG_NOSNOOP c (bitsN v 29 29)).setFld
      .DMA_CH_CFG_FEED c (bitsN v 18 17)
  let s := if quotaBad then s.raise .DMA_ENG_EVT_QUOTA_BAD else s.setFld .DMA_CH_CFG_QUOTA c quota
  let s := if locked || (quotaBad && on) then s.accessErr src off be true .locked
    else if quotaBad then s.accessErr src off be true .refused else s
  let s := s.setFld .DMA_CH_CFG_PRI c (bitsN v 28 28)
  match on, bitN v 31 with
  | false, true =>
    if s.bindBad c then s.raise .DMA_CH_EVT_BIND_BAD c
    else
      let s := s.raise .DMA_CH_CFG_EN c
      if s.dmaState c = dmStopping then s else s.putDmaState c dmIdle
  | true, false => (s.putFlag .DMA_CH_CFG_EN c false).dmaAbort c
  | _, _ => s

/-- A write of DMA_CH_CMD (R311, R313); ABORT acts before SKIP (DESIGN CHOICE, log entry 62). -/
def State.dmaCmd (s : State) (src off be c v : Nat) : State :=
  let s := if bitN v 0 then s.dmaAbort c else s
  if bitN v 1 then
    if s.dmaOn c then s.accessErr src off be true .locked
    else s.setFld .DMA_CH_HEAD c ((s.fld .DMA_CH_HEAD c + 1) % s.ringLen c)
  else s

/-- A write of TAIL (R306). -/
def State.dmaTail (s : State) (src off be c v : Nat) : State :=
  if s.ringLen c ≤ v % 4096 then s.accessErr src off be true .refused else s.setFld .DMA_CH_TAIL c v

/-- A write of RD (R315). -/
def State.dmaRd (s : State) (src off be c v : Nat) : State :=
  if s.resultLen c ≤ v % 4096 then s.accessErr src off be true .refused else s.setFld .DMA_CH_RD c v

end Sys2Proof.Machine
end

