-- ==== Sys2Proof/Config.lean ====
section
/-! DEFINITION. What one module fixes and the manual leaves open: constants with no value that a proof could see. -/

namespace Sys2Proof.Config

/-- R433: the 64-bit serial number written at manufacture; the manual lists none (DESIGN CHOICE, log entry 22). -/
opaque serial : BitVec 64

/-- R57: RATE from A_REF and a prediction whose quotient lies outside Q16.16, or a prediction of 0. -/
opaque rateOut (aRef p : Nat) : BitVec 32

/-- R57: ACC where the newest normalised period is 0, from the new and the previous RATE. -/
opaque accOut (rate prev : Nat) : BitVec 32

/-- R57: RPM of a RATE and span whose speed lies outside 20 bits. -/
opaque rpmOut (rate span : Nat) : BitVec 20

/-- R57: PRED of a prediction whose period lies outside 32 bits. -/
opaque predOut (p angle : Nat) : BitVec 32

/-- R54: a normalised period over an interval whose angle is 0, from the corrected period. -/
opaque normOut (t : Nat) : BitVec 40

/-- R276: SETU of a product that does not fit in 32 bits, from the measured value and the constant.
(DESIGN CHOICE, log entry 20). -/
opaque setuOut (measured k : Nat) : BitVec 32

/-- R273: the level that a toggle gives a pin which its engine does not drive, by pin and TNOW. -/
opaque toggleOut (pin tnow : Nat) : Bool

/-- R33, R36: the ratio of a period to a prediction of 0, Q8.8, from the period's side of the fraction. -/
opaque ratioOut (num : Nat) : BitVec 32

/-- R37: the angle that a phase edge adds to the last primary edge under a prediction of 0. -/
opaque offsetOut (num : Int) : BitVec 32

/-- R102: the clamped inputs of MAP2, x in the low half and y in the high, where the first breakpoint of their axis exceeds
its last: from the descriptor base and the inputs. -/
opaque mapOut (base input : Nat) : BitVec 32

/-- R22, R49: whether the VR clamp of a front end conducts at TNOW: it depends on the voltage at the pins.
(DESIGN CHOICE, log entry 21). -/
opaque vrClamp (w tnow : Nat) : Bool

/-- R398, R413: VIN in 10 mV steps at its `k`-th renewal, one every 100 µs. -/
opaque vin (k : Nat) : BitVec 16

/-- R345: a 100 MHz clock was present at REFCLK of J1 throughout the 100 µs before TNOW. -/
opaque refclkPresent (tnow : Nat) : Bool

/-- R370, R399: the wellspring's oscillator and rail hold the window again, at a refresh that finds DEN gated off by their failure.
(DESIGN CHOICE, log entry 21). -/
opaque oscBack (wsNs : Nat) : Bool

/-- R352: the Requester ID and the tag that the host's request at TNOW carried, as its header in AER shows them. -/
opaque requester (tnow : Nat) : BitVec 24

/-- R348: the presets in the Lane Equalization Control registers of lanes 0 and 1; the manual lists no value. -/
opaque laneEq : BitVec 32

/-- R347: the assigned vendor ID; the manual does not list it. -/
opaque vendor : BitVec 16

end Sys2Proof.Config
end

