-- ==== Sys2Proof/Machine/Angle.lean ====
section
/-! DEFINITION. Map geometry, the angle of a domain at any instant, and the period predictor (R28 to R69). -/

namespace Sys2Proof.Machine

/-! ### Map geometry -/

/-- A crank-mounted wheel on a 720° domain (R29). -/
def State.crank720 (s : State) (d : Nat) : Bool := s.flag .AD_CFG_CYCLE_720 d && !s.flag .AD_CFG_WHEEL_ON_CAM d

/-- The revolution span (R54). -/
def State.span (s : State) (d : Nat) : Nat := if s.crank720 d then 2 ^ 31 else 2 ^ 32

def State.tlen (s : State) (d : Nat) : Nat := s.fld .AD_MAPCFG_TLEN d
def State.plen (s : State) (d : Nat) : Nat := s.fld .AD_MAPCFG_PLEN d

/-- ANGLE_NEXT of tooth-map entry `k` (R28). -/
def State.angleNext (s : State) (d k : Nat) : Nat := s.word (tmapAddr d k)
/-- Word 1 of tooth-map entry `k`. -/
def State.tmapFlags (s : State) (d k : Nat) : Nat := s.word (tmapAddr d k + 4)
def State.present (s : State) (d k : Nat) : Bool := bitN (s.tmapFlags d k) 0
def State.syncMark (s : State) (d k : Nat) : Bool := bitN (s.tmapFlags d k) 1
def State.nogapMax (s : State) (d k : Nat) : Nat := bitsN (s.tmapFlags d k) 15 8
def State.gapMin (s : State) (d k : Nat) : Nat := bitsN (s.tmapFlags d k) 23 16

/-- The angle of entry `k` in revolution `v` (R29). -/
def State.entryAngle (s : State) (d k v : Nat) : Nat :=
  ((upto k).foldl (fun a j => a + s.angleNext d j) (s.fld .AD_TMAP_OFFSET d + v * 2 ^ 31)) % 2 ^ 32

/-- The entry after `k`. -/
def State.nextEntry (s : State) (d k : Nat) : Nat := if k + 1 < s.tlen d then k + 1 else 0

/-- The next present entry after `k` and the angle from `k` to it (R54), searched over at most `n` positions. -/
def State.stepFrom (s : State) (d k a : Nat) : Nat → Nat × Nat
  | 0 => (k, a)
  | n + 1 =>
    let a := a + s.angleNext d k
    let j := s.nextEntry d k
    if s.present d j then (j, a) else s.stepFrom d j a n

/-- The next present entry after `k` and the angle of the interval that `k` opens. -/
def State.interval (s : State) (d k : Nat) : Nat × Nat := s.stepFrom d k 0 (s.tlen d)

/-- The revolution after passing from entry `k` to `j` (R36). -/
def State.nextRev (s : State) (d k j v : Nat) : Nat := if s.crank720 d && j ≤ k then 1 - v else v

/-- The reference pitch A_REF of the primary wheel (R54). -/
def State.aRef (s : State) (d : Nat) : Nat := s.span d / max 1 (s.tlen d)

/-- ANGLE and TOL of phase-map entry `j` (R32). -/
def State.phAngle (s : State) (d j : Nat) : Nat := s.word (pmapAddr d j)
def State.phTol (s : State) (d j : Nat) : Nat := s.word (pmapAddr d j + 4) % 65536

def State.phNext (s : State) (d j : Nat) : Nat := if j + 1 < s.plen d then j + 1 else 0

/-- The phase interval that ends at entry `j` (R66): a map of one entry spans the whole cycle. -/
def State.phInterval (s : State) (d j : Nat) : Nat :=
  let p := if j = 0 then s.plen d - 1 else j - 1
  let a := (s.phAngle d j + 2 ^ 32 - s.phAngle d p) % 2 ^ 32
  if a = 0 then 2 ^ 32 else a

/-- A_REF of the phase wheel (R66). -/
def State.phARef (s : State) (d : Nat) : Nat := 2 ^ 32 / max 1 (s.plen d)

/-- The forward distance from `a` to `b`, modulo 2^32. -/
def fwd (a b : Nat) : Nat := (b + 2 ^ 32 - a % 2 ^ 32) % 2 ^ 32

/-- Angle `a` lies in the window of phase entry `j`, both ends included (R32). -/
def State.inWindow (s : State) (d j a : Nat) : Bool :=
  fwd (s.phAngle d j + 2 ^ 32 - s.phTol d j * 65536) a ≤ 2 * (s.phTol d j * 65536)

/-- The first window that contains angle `a`. -/
def State.windowOf (s : State) (d a : Nat) : Option Nat := (upto (s.plen d)).find? fun j => s.inWindow d j a

/-- The start and the end of the window of entry `j`. -/
def State.winStart (s : State) (d j : Nat) : Nat := (s.phAngle d j + 2 ^ 32 - s.phTol d j * 65536) % 2 ^ 32
def State.winEnd (s : State) (d j : Nat) : Nat := (s.phAngle d j + s.phTol d j * 65536) % 2 ^ 32

/-! ### The angle at an instant -/

/-- The accumulator of a segment at time `t8`, in 125 ps units, before any hold (R51). -/
def Seg.raw (g : Seg) (t8 : Nat) : Int := g.base + ((g.rate : Int) * ((t8 : Int) - g.t0 * 8)) / 8

/-- The accumulator has reached the next tooth angle, so it holds (R60). -/
def Seg.clamped (g : Seg) (t8 : Nat) : Bool :=
  match g.clampAt with
  | some c => g.valid && decide ((c : Int) ≤ g.raw t8)
  | none => false

/-- The accumulator at time `t8`, with the holds of R47 and R60. -/
def Seg.acc (g : Seg) (t8 : Nat) : Nat :=
  let a := (max (g.raw t8) g.floor).toNat
  match g.clampAt with
  | some c => if c ≤ a then c - 65536 else a
  | none => a

/-- The first TNOW, up to `now`, in whose word the accumulator of a valid segment stands at `v` or beyond (R147). -/
def Seg.firstAt (g : Seg) (v now : Nat) : Option Nat :=
  let t := if v ≤ g.acc (g.t0 * 8) then g.t0
    else g.t0 + (((v : Int) - g.base + (max 1 g.rate - 1 : Nat)) / (max 1 g.rate : Nat)).toNat
  if g.valid && decide (t ≤ now) && decide (v ≤ g.acc (t * 8)) then some t else none

/-- The segment that a domain's angle followed at TNOW `t`. -/
def Domain.segAt (x : Domain) (t : Nat) : Seg := if t < x.seg.t0 then x.old else x.seg

/-- The domain angle is valid now (R39). -/
def State.angleValid (s : State) (d : Nat) : Bool := (s.dom d).seg.valid

/-- The accumulator now. -/
def State.acc (s : State) (d : Nat) : Nat := (s.dom d).seg.acc (s.tnow * 8)

/-- The broadcast angle of the word of TNOW `t`, and its VALID bit (R51, R143). -/
def State.angleAt (s : State) (d t : Nat) : Nat × Bool :=
  let g := (s.dom d).segAt t
  if g.valid then (g.acc (t * 8) / 65536 % 2 ^ 32, true) else (0, false)

/-- The broadcast angle now; 0 while not valid (R80). -/
def State.angle (s : State) (d : Nat) : Nat := (s.angleAt d s.tnow).1

/-- RATE now: 0 while the angle is not valid (R53, R80). -/
def State.rateNow (s : State) (d : Nat) : Nat := if s.angleValid d then (s.dom d).seg.rate else 0

/-- ACC in the word of TNOW `t` (R57, R80, R81). -/
def State.accelAt (s : State) (d t : Nat) : Nat :=
  let g := (s.dom d).segAt t
  if g.valid then wrapI 32 g.accel else 0

/-- ACC now (R57, R80). -/
def State.accelNow (s : State) (d : Nat) : Nat := s.accelAt d s.tnow

/-- CYC in the word of TNOW `t`, up to one cycle boundary ago (R3, R81). -/
def State.cycAt (s : State) (d t : Nat) : Nat :=
  let c := s.fld .AD_CYC d
  if (s.dom d).boundAt.any fun b => decide (t < b) then (c + (2 ^ 32 - 1)) % 2 ^ 32 else c

/-! ### The predictor -/

/-- An integer quotient rounded to the nearest, halves up. -/
def roundDivI (a : Int) (b : Nat) : Int := (2 * a + b) / (2 * b)

/-- The history depth in force (R56, R76). -/
def State.depth (s : State) (d : Nat) : Nat := clampN 2 8 (s.fld .AD_EST_CFG_DEPTH d)

/-- P of R55 from the history, and whether its limit applied. -/
def State.predictP (s : State) (d : Nat) (h : List Nat) : Nat × Bool :=
  let t1 := h.getD 0 0
  let t2 := h.getD 1 t1
  let t3 := h.getD 2 t2
  let d1 : Int := (t1 : Int) - t2
  let d2 : Int := (t2 : Int) - t3
  let al := sextN 16 (s.fld .AD_EST_COEF_ALPHA d)
  let be := if s.depth d = 2 then 0 else sextN 16 (s.fld .AD_EST_COEF_BETA d)
  let p := (t1 : Int) + roundDivI (al * d1) 16384 + roundDivI (be * (d1 - d2)) 16384
  if 2 * p < t1 then (roundDiv t1 2, true) else if (2 * t1 : Nat) < p then (2 * t1, true) else (p.toNat, false)

/-- RATE from a prediction: A_REF / P in AU/ns, Q16.16, truncated (R57, R65). P counts 125 ps / 256. The manual
states no result for a quotient that Q16.16 cannot hold: a free value (DESIGN CHOICE, log entry 19). -/
def rateOf (aRef p : Nat) : Nat :=
  if p ≠ 0 ∧ aRef * 2048 * 65536 / p < 2 ^ 32 then aRef * 2048 * 65536 / p else (Config.rateOut aRef p).toNat

/-- ACC of R57 from the new and the previous RATE and T1, truncated and saturated (DESIGN CHOICE, log entry 19). -/
def accelOf (rate prev t1 : Nat) : Int :=
  if t1 = 0 then sextN 32 (Config.accOut rate prev).toNat
  else satI (-(2 ^ 31)) (2 ^ 31 - 1) ((((rate : Int) - prev) * (65536 * 2048000)).tdiv t1)

/-- The predictor with a history, its prediction, RATE and ACC (R55 to R57), and whether R55's limit applied. -/
def State.predict (s : State) (d : Nat) (q : Predictor) (aRef : Nat) (h : List Nat) : Predictor × Bool :=
  let p := s.predictP d h
  let r := rateOf aRef p.1
  ({ hist := h, p := p.1, rate := r, accel := accelOf r q.rate (h.getD 0 0) }, p.2)

/-- A new normalised period enters the history (R54 to R57). -/
def State.pushPred (s : State) (d : Nat) (q : Predictor) (aRef norm : Nat) : Predictor × Bool :=
  s.predict d q aRef ((norm :: q.hist).take (s.depth d))

/-- A predictor that starts with three copies of a normalised period (R53); the first has no RATE before it but 0
(DESIGN CHOICE, log entry 60). -/
def State.startPred (s : State) (d : Nat) (q : Predictor) (aRef norm : Nat) : Predictor × Bool :=
  s.predict d q aRef (List.replicate (min 3 (s.depth d)) norm)

/-- PRED_LIMIT is set where R55's limit applied. -/
def State.limited (s : State) (d : Nat) (b : Bool) : State := if b then s.raise .AD_EST_FAULT_PRED_LIMIT d else s

/-- A period in 125 ps units, multiplied by a Q1.23 factor, to the nearest 125 ps / 256 (R68) (DESIGN CHOICE, log entry 60). -/
def corrected (t factor : Nat) : Nat := roundDiv (t * 256 * factor) (2 ^ 23)

/-- A corrected period scaled to the reference pitch, to the nearest 125 ps / 256 (R54) (DESIGN CHOICE, log entry 60). -/
def normalise (t aRef aInt : Nat) : Nat := if aInt = 0 then (Config.normOut t).toNat else roundDiv (t * aRef) aInt

/-- The factor of R68 for the interval that entry `k` opened; in the cycle of a swap, that of the old front bank (R73). -/
def State.factor (s : State) (d k : Nat) : Nat :=
  if s.flag .AD_TCL_CFG_APPLY_EN d && s.dstate d == stSync && s.present d k && k < s.tlen d && k < 1023 then
    let f := s.fld .AD_TCL_STAT_FRONT d
    s.word (tclAddr d (if (s.dom d).swapAt = some s.tnow then 1 - f else f) k) % 2 ^ 24
  else 2 ^ 23

/-! ### Loads -/

/-- The forward unwrapped accumulator value of angle `au` (48-bit value `v`) seen from accumulator value `c`. -/
def unwrap (c v : Nat) : Nat := c + (v + 2 ^ 48 - c % 2 ^ 48) % 2 ^ 48

/-- The accumulator value of R52 for an edge at angle `au` stamped at `stamp`, under rate `r`, at TNOW `t`. -/
def loadValue (au r stamp t : Nat) : Nat :=
  (au * 65536 + r * (t * 8 - stamp) / 8) % 2 ^ 48

/-- A new segment of the angle starts now; `step` says whether its first word carries a release or a jump (R61). -/
def State.newSeg (s : State) (d : Nat) (g : Seg) (step : Bool) : State :=
  s.modDom d fun x =>
    { x with old := x.seg, seg := { g with accel := x.est.accel }, clampSeen := false
             stepAt := if step then some s.tnow else none }

/-- The first load of the angle, when it becomes valid (R38, R39): it is no step, and it passes no boundary. -/
def State.loadFirst (s : State) (d au r stamp next : Nat) : State :=
  let v := loadValue au r stamp s.tnow
  let e := (v : Int) - (r * (s.tnow * 8 - stamp) / 8 : Nat)
  (s.newSeg d
    { valid := true, base := v, t0 := s.tnow, rate := r, clampAt := some (e + (next * 65536 : Nat)).toNat } false).modDom d
      fun x => { x with turns := 0 }

/-- The load on the return from PHASE-ONLY when the tooth angle lies behind (R47): the angle holds. -/
def State.loadHold (s : State) (d au r stamp next : Nat) : State :=
  let c := s.acc d
  let back : Nat := (c % 2 ^ 48 + 2 ^ 48 - loadValue au r stamp s.tnow) % 2 ^ 48
  let e : Int := (c : Int) - back - ((r * (s.tnow * 8 - stamp) / 8 : Nat) : Int)
  s.newSeg d { valid := true, base := (c : Int) - back, t0 := s.tnow, rate := r, floor := c
               clampAt := some (max (c + 65536) ((e + (next * 65536 : Nat)).toNat)) } false

/-- The load at an accepted edge (R52, R61): angle `au` of the edge, new rate `r`, and the angle `next` to the next
clamp point. The angle moves forwards only: where the present angle has passed the load while the edge was processed, it
holds (R47) (DEDUCED, log entry 23). -/
def State.loadEdge (s : State) (d au r stamp next : Nat) : State :=
  let c := s.acc d
  let v := unwrap c (loadValue au r stamp s.tnow)
  let e := v - r * (s.tnow * 8 - stamp) / 8
  if v < c + 2 ^ 47 then
    s.newSeg d { valid := true, base := v, t0 := s.tnow, rate := r, clampAt := some (e + next * 65536) } (c < v)
  else s.loadHold d au r stamp next

/-- The hold of R47 lasts, and the load of an edge still lies behind it. -/
def State.staysHeld (s : State) (d au r stamp : Nat) : Bool :=
  decide ((s.dom d).seg.raw (s.tnow * 8) < (s.dom d).seg.floor) &&
    (let back := (s.acc d % 2 ^ 48 + 2 ^ 48 - loadValue au r stamp s.tnow) % 2 ^ 48
     back != 0 && decide (back < 2 ^ 47))

/-- The angle stops being valid (R39, R44, R53). -/
def State.dropAngle (s : State) (d : Nat) : State :=
  (s.modDom d fun x =>
    { x with old := x.seg, seg := { t0 := s.tnow }, stepAt := none, est := {}, crank := {}, clampSeen := false }).putFlag
      .AD_SYNC_STAT_ANGLE_VALID d false

end Sys2Proof.Machine
end

