-- ==== Sys2Proof/Machine/Basins.lean ====
section
/-! DEFINITION. Basin windows, the sample path, trackers, latches and feeds (R197 to R226). -/

namespace Sys2Proof.Machine

def State.adc (s : State) (k : Nat) : Adc := Tab.get {} s.adcs k
def State.setAdc (s : State) (k : Nat) (x : Adc) : State := { s with adcs := Tab.set {} s.adcs k x }
def State.modAdc (s : State) (k : Nat) (f : Adc → Adc) : State := s.setAdc k (f (s.adc k))
def State.basin (s : State) (k : Nat) : Basin := Tab.get {} s.basins k
def State.setBasin (s : State) (k : Nat) (x : Basin) : State := { s with basins := Tab.set {} s.basins k x }
def State.modBasin (s : State) (k : Nat) (f : Basin → Basin) : State := s.setBasin k (f (s.basin k))
def State.feed (s : State) (f : Nat) : Feed := Tab.get {} s.feeds f
def State.setFeed (s : State) (f : Nat) (x : Feed) : State := { s with feeds := Tab.set {} s.feeds f x }

/-! ### Windows (R210 to R217) -/

/-- The open window of a basin: the last of its list, if it has not closed. -/
def Basin.open (b : Basin) : Option Window :=
  match b.wins.getLast? with
  | some w => if w.close.isNone then some w else none
  | none => none

/-- Bit OPEN of BAS_STAT follows the windows. -/
def State.putWins (s : State) (k : Nat) (ws : List Window) : State :=
  let s := s.modBasin k fun b => { b with wins := ws }
  s.putFlag .BAS_STAT_OPEN k (s.basin k).open.isSome

/-- An OPEN action with edge time `e` (R210, R211); nothing on a basin that is not enabled. -/
def State.basOpen (s : State) (k e : Nat) : State :=
  if !s.flag .BAS_CFG_EN k then s
  else if (s.basin k).open.isSome then
    (s.modBasin k fun b => { b with dupOpen := some (e, s.flag .BAS_STAT_DUP k) }).raise .BAS_STAT_DUP k
  else
    let th := s.angleAt (s.fld .BAS_CFG_DOMAIN k) e
    if s.fld .BAS_CFG_MODE k = 3 ∧ th.2 = false then s.bump .BAS_CNT_ABORT k
    else s.putWins k ((s.basin k).wins ++ [{ eOpen := e, thPrev := th.1, woffset := s.fld .BAS_WOFFSET k }])

/-- A CLOSE action with edge time `e` (R211, R212): the window waits for its latch. Of the actions with one edge time,
CLOSE comes before OPEN, in whichever order they arrive. -/
def State.basClose (s : State) (k e : Nat) : State :=
  if !s.flag .BAS_CFG_EN k then s
  else match (s.basin k).open with
    | none => s.raise .BAS_STAT_DUP k
    | some w =>
      if w.eOpen = e then s.raise .BAS_STAT_DUP k else
        let dup := (s.basin k).dupOpen
        let w := { w with close := some (e, s.fld .AD_CYC (s.fld .BAS_CFG_DOMAIN k) % 256) }
        let s := s.putWins k ((s.basin k).wins.dropLast ++ [w])
        match dup with
        | some (t, was) => if t = e then (s.putFlag .BAS_STAT_DUP k was).basOpen k e else s
        | none => s

/-- An OPEN, CLOSE or CLOSE_OPEN by a slot or the host: ignored where the markers own the window (R210). -/
def State.basAction (s : State) (k e : Nat) (close opn : Bool) : State :=
  if s.flag .BAS_CFG_WIN_SRC k then s else
    let s := if close then s.basClose k e else s
    if opn then s.basOpen k e else s

/-- The open window is aborted (R217): nothing latches. -/
def State.basAbort (s : State) (k : Nat) : State :=
  if (s.basin k).open.isSome then
    ((s.putWins k (s.basin k).wins.dropLast).raise .BAS_STAT_ABORTED k).bump .BAS_CNT_ABORT k
  else s

/-- The aborts of R217 at a sync loss of domain `d`. -/
def State.basLoss (s : State) (d : Nat) : State :=
  s.basins.foldl (fun t e =>
    if t.fld .BAS_CFG_DOMAIN e.1 = d ∧ (t.flag .BAS_CFG_WIN_SRC e.1 = false ∨ t.fld .BAS_CFG_MODE e.1 = 3)
    then t.basAbort e.1 else t) s

/-! ### The sample path (R197 to R207) -/

/-- One biquad section: its output and next state (R205), and whether it saturated. -/
def Biquad.run (q : Biquad) (c : Nat → Int) (x : Int) : Int × Biquad × Bool :=
  let sum := c 0 * x + c 1 * q.x1 + c 2 * q.x2 - c 3 * q.y1 - c 4 * q.y2
  let r := roundDivI sum (2 ^ 22)
  let y := satI (-(2 ^ 17)) (2 ^ 17 - 1) r
  (y, { x1 := x, x2 := q.x1, y1 := y, y2 := q.y1 }, y != r)

/-- A coefficient in use: b0 of a section that no commit has changed is 1.0 (R205). -/
def Adc.coefOf (a : Adc) (b j : Nat) : Int :=
  sextN 24 ((Tab.find a.coef (5 * b + j)).getD (if j = 0 then 2 ^ 22 else 0))

/-- The filter chain of converter `k` run on a sample of entry 0 (R205, R206). -/
def State.filter (s : State) (k : Nat) (x : Int) : State × Int :=
  let a := s.adc k
  let r0 := if a.bq0 then a.st0.run (a.coefOf 0) x else (x, a.st0, false)
  let r1 := if a.bq1 then a.st1.run (a.coefOf 1) r0.1 else (r0.1, a.st1, false)
  let s := s.setAdc k { a with st0 := r0.2.1, st1 := r1.2.1 }
  (if r0.2.2 || r1.2.2 then s.raise .ADC_STAT_FLT_SAT k else s, r1.1)

/-- The weight at an angle (R219): `inst` is the sampling instant, which chooses the bank (R220). -/
def State.weightAt (s : State) (d th woffset inst : Nat) : Int :=
  let phi := fwd woffset th
  let front := s.fld .WT_STAT_FRONT d
  let b := match Tab.find s.weightSwap d with
    | some t => if inst < t then 1 - front else front
    | none => front
  let w0 := sextN 32 (s.word (weightAddr d b (phi / 2 ^ 20)))
  let w1 := sextN 32 (s.word (weightAddr d b ((phi / 2 ^ 20 + 1) % 4096)))
  w0 + (w1 - w0) * (phi % 2 ^ 20 : Nat) / 2 ^ 20

/-- A value shifted right by `sh` with rounding (R213). -/
def shiftRound (v : Int) (sh : Nat) : Int := if sh = 0 then v else (v + 2 ^ (sh - 1)) / 2 ^ sh

/-- The term that sample `x` adds to a window of basin `k` (R213), under angle `th` of its domain. -/
def State.term (s : State) (k : Nat) (w : Window) (x : Int) (inst : Nat) (th : Nat × Bool) : Int :=
  let sh := s.fld .BAS_CFG_SHIFT k
  match s.fld .BAS_CFG_MODE k with
  | 1 => shiftRound (x * x) sh
  | 2 => if sextN 18 (s.fld .BAS_THR k) ≤ x then 1 else 0
  | 3 => if th.2 then
      shiftRound (x * s.weightAt (s.fld .BAS_CFG_DOMAIN k) th.1 w.woffset inst * (fwd w.thPrev th.1 : Nat)) sh else 0
  | _ => x

/-- The limits of a basin's accumulator (R213, R214). -/
def State.accLimits (s : State) (k : Nat) : Int × Int :=
  match s.fld .BAS_CFG_MODE k with
  | 1 | 2 => (0, 2 ^ 64 - 1)
  | _ => (-(2 ^ 63), 2 ^ 63 - 1)

/-- A tracker's extremes with one more sample: strictly greater or smaller values only (R221). -/
def Ext.take (e : Ext) (mode : Nat) (x : Int) (th : Nat × Bool) : Ext :=
  let new := (x, th.1, th.2)
  let up : Bool := match e.max with | some m => decide (m.1 < x) | none => true
  let dn : Bool := match e.min with | some m => decide (x < m.1) | none => true
  { max := if mode ≠ 1 ∧ up then some new else e.max
    min := if mode ≠ 0 ∧ dn then some new else e.min }

/-- The sample of a conversion: raw and, for entry 0, filtered. -/
structure Sample where
  conv : Nat
  entry : Nat
  raw : Int
  filtered : Option Int
  /-- The sampling instant S (R207). -/
  inst : Nat

/-- The value of a tap of a sample, for a block that selects converter, entry and tap. -/
def Sample.value (m : Sample) (conv entry tap : Nat) : Option Int :=
  if m.conv = conv ∧ m.entry = entry then (if tap = 0 then some m.raw else m.filtered) else none

/-- A sample belongs to a window if E_open ≤ S < E_close (R212) (DEDUCED, log entry 54). -/
def Window.covers (w : Window) (inst : Nat) : Bool :=
  decide (w.eOpen ≤ inst) && (match w.close with | some c => decide (inst < c.1) | none => true)

/-- One window of basin `k` with a sample added, and whether the addition saturated (R213, R214). -/
def State.addSample (s : State) (k : Nat) (w : Window) (x : Int) (inst : Nat) : Window × Bool :=
  let th := s.angleAt (s.fld .BAS_CFG_DOMAIN k) inst
  let lim := s.accLimits k
  let v := w.acc + s.term k w x inst th
  let sat := satI lim.1 lim.2 v != v
  ({ w with acc := satI lim.1 lim.2 v, ovf := w.ovf || sat
            samples := min (2 ^ 32 - 1) (w.samples + 1), thPrev := if th.2 then th.1 else w.thPrev }, sat)

/-- What the trackers of basin `k` hold for a window, with a sample taken (R221). -/
def State.trackSample (s : State) (k : Nat) (m : Sample) (ext : Tab Ext) : Tab Ext :=
  (upto 128).foldl (fun e t =>
    if s.flag .TRK_CFG_EN t && s.fld .TRK_CFG_BASIN t == k then
      match m.value (s.fld .TRK_CFG_CONV t) (s.fld .TRK_CFG_ENTRY t) (s.fld .TRK_CFG_TAP t) with
      | some x =>
        Tab.set {} e t ((Tab.get {} e t).take (s.fld .TRK_CFG_MODE t) x (s.angleAt (s.fld .TRK_CFG_DOMAIN t) m.inst))
      | none => e
    else e) ext

/-- One window of basin `k` offered a sample, for the basin itself and for its trackers; and whether it saturated.
(DEDUCED, log entry 54). -/
def State.offer (s : State) (k : Nat) (m : Sample) (w : Window) : Window × Bool :=
  if w.covers m.inst then
    let r := match m.value (s.fld .BAS_CFG_CONV k) (s.fld .BAS_CFG_ENTRY k) (s.fld .BAS_CFG_TAP k) with
      | some x => s.addSample k w x m.inst
      | none => (w, false)
    ({ r.1 with ext := s.trackSample k m r.1.ext }, r.2)
  else (w, false)

/-- A sample delivered to every basin window and tracker that takes it. -/
def State.deliverSample (s : State) (m : Sample) : State :=
  s.basins.foldl (fun t e =>
    let ws := (t.basin e.1).wins.map (t.offer e.1 m)
    let t := t.putWins e.1 (ws.map (·.1))
    if ws.any (·.2) then t.raise .BAS_STAT_OVF e.1 else t) s

/-! ### Latches, read ports and feeds (R212 to R225) -/

/-- A read of the port of basin `k` is in progress at some source (R216). -/
def State.readInProgress (s : State) (k : Nat) : Bool :=
  (s.basin k).reading.any fun e => decide (s.tnow < e.2 + 10000)

/-- A record appended to a feed, or discarded where it holds 64 (R223). -/
def State.feedAppend (s : State) (f : Nat) (r : List Nat) : State :=
  if (s.feed f).records.length < 64 then
    s.setFeed f { s.feed f with records := (s.feed f).records ++ [r] }
  else (s.raise .BAS_FEED_STAT_OVF f).bump .BAS_FEED_CNT_DROP f

/-- A tracker's latch in its basin's latch cycle (R222). -/
def State.trkLatchResult (s : State) (t seq : Nat) (e : Ext) : State :=
  let val := fun (o : Option (Int × Nat × Bool)) => match o with | some m => wrapI 32 m.1 | none => 0
  let ang := fun (o : Option (Int × Nat × Bool)) => match o with | some m => m.2.1 | none => 0
  let bad := fun (o : Option (Int × Nat × Bool)) => match o with | some m => !m.2.2 | none => false
  let s := s.setFld .TRK_MAX t (val e.max)
  let s := s.setFld .TRK_MAX_ANG t (ang e.max)
  let s := s.setFld .TRK_MIN t (val e.min)
  let s := s.setFld .TRK_MIN_ANG t (ang e.min)
  let s := s.setFld .TRK_TAG_CYC t (s.fld .AD_CYC (s.fld .TRK_CFG_DOMAIN t) % 256)
  let s := s.setFld .TRK_TAG_SEQ t seq
  let s := s.putFlag .TRK_TAG_ANG_INVALID t (bad e.max || bad e.min)
  s.putFlag .TRK_TAG_EMPTY t (e.max.isNone && e.min.isNone)

/-- The TAG word of a result (R215). -/
def tagWord (k cyc seq : Nat) (late ovf : Bool) : Nat :=
  cyc * 2 ^ 24 + seq * 2 ^ 16 + b2n late * 2 ^ 10 + b2n ovf * 2 ^ 9 + k

/-- The read port takes a result (R215). -/
def State.portTake (s : State) (k value samples cyc seq : Nat) (late ovf : Bool) : State :=
  let s := s.setFld .BAS_VALUE k value
  let s := s.setFld .BAS_SAMPLES k samples
  let s := s.setFld .BAS_TAG_CYC k cyc
  let s := s.setFld .BAS_TAG_SEQ k seq
  let s := s.putFlag .BAS_TAG_LATE k late
  s.putFlag .BAS_TAG_OVF k ovf

/-- The latch of a closed window (R212, R215, R216, R222, R223, R225) (DESIGN CHOICE, log entry 4). -/
def State.basLatch (s : State) (k : Nat) (w : Window) (cyc : Nat) : State :=
  let seq := (s.fld .BAS_STAT_SEQ k + 1) % 256
  let s := s.setFld .BAS_STAT_SEQ k seq
  let value := wrapI 64 w.acc
  let busy := s.readInProgress k
  let late := (s.basin k).late
  let s := if busy then
      ((s.raise .BAS_STAT_LATE_READ k).bump .BAS_CNT_LATE k).modBasin k fun b => { b with late := true }
    else (s.portTake k value w.samples cyc seq late w.ovf).modBasin k fun b => { b with late := false }
  let s := (upto 128).foldl (fun t j =>
    if t.flag .TRK_CFG_EN j && t.fld .TRK_CFG_BASIN j == k then t.trkLatchResult j seq (Tab.get {} w.ext j) else t) s
  let s := if s.flag .BAS_CFG_FEED_EN k then
      s.feedAppend (s.fld .BAS_CFG_FEED k)
        [value % 2 ^ 32, value / 2 ^ 32, w.samples, tagWord k cyc seq (!busy && late) w.ovf]
    else s
  if s.flag .BAS_CFG_IRQ k then s.orFld .BAS_CLOSED (k / 32) (2 ^ (k % 32)) else s

/-- One 8-byte unit of a feed: its two words (R224). -/
def State.feedUnit (s : State) (f : Nat) : Nat × Nat :=
  match (s.feed f).records with
  | r :: _ => if (s.feed f).second then (r.getD 2 0, r.getD 3 0) else (r.getD 0 0, r.getD 1 0)
  | [] => (0xFFFFFFFF, 0xFFFFFFFF)

/-- The read of a unit's low word: what it finds in an empty feed is a unit of an empty feed (R224, R326). -/
def State.feedLow (s : State) (src f : Nat) : State :=
  let x := s.feed f
  let rest := x.empties.filter fun n => n != src
  s.setFeed f { x with empties := if x.records.isEmpty then src :: rest else rest }

/-- The read of a unit's high word completes it: the second unit removes the record; a unit of an empty feed sets UNDERRUN and
removes nothing (R224). -/
def State.feedHigh (s : State) (src f : Nat) : State :=
  let x := s.feed f
  let rest := x.empties.filter fun n => n != src
  if x.empties.contains src then (s.setFeed f { x with empties := rest }).raise .BAS_FEED_STAT_UNDERRUN f
  else match x.records with
    | _ :: r => s.setFeed f (if x.second then { x with records := r, second := false } else { x with second := true })
    | [] => s.raise .BAS_FEED_STAT_UNDERRUN f

end Sys2Proof.Machine
end

