-- ==== Sys2Proof/Machine/Pins.lean ====
section
/-! DEFINITION. The pin pool of the I/O engines: levels, and the edge latch of every engine (R268, R269, R275). -/

namespace Sys2Proof.Machine

def State.ioe (s : State) (e : Nat) : Ioe := Tab.get {} s.ioes e
def State.setIoe (s : State) (e : Nat) (x : Ioe) : State := { s with ioes := Tab.set {} s.ioes e x }
def State.modIoe (s : State) (e : Nat) (f : Ioe → Ioe) : State := s.setIoe e (f (s.ioe e))

/-- The peripheral-clock tick of the present instant: one every 4 ns. -/
def State.tick (s : State) : Nat := s.tnow / 4

/-- The filtered level of pin `p` of the pool: GIOp, or OUT of a comparator (R268, R240). -/
def State.pinLevel (s : State) (p : Nat) : Bool :=
  if p < 32 then bitN (s.fld .GIO_IN_LEVEL) p else s.flag .CMP_STAT_OUT (p - 32)

/-- TNOW in ns at or after a 32-bit target, by modular difference, in the span of the present tick (R277). -/
def ttReached (tick tt : Nat) : Bool := (4 * tick + 3 + 2 ^ 32 - tt) % 2 ^ 32 < 2 ^ 31

/-- A 32-bit target lies behind the start of the present tick by modular difference (R277). -/
def ttBehind (tick tt : Nat) : Bool := decide (2 ^ 31 ≤ (tt + 2 ^ 32 - 4 * tick % 2 ^ 32) % 2 ^ 32)

/-- An edge matches code `a` of WAITP, with stamps compared to TT for codes 5 to 7 (R274). -/
def edgeMatches (a tt : Nat) (rising : Bool) (stamp : Nat) : Bool :=
  match a with
  | 2 => rising
  | 3 => !rising
  | 4 => true
  | 5 => rising && decide ((stamp + 2 ^ 32 - tt) % 2 ^ 32 < 2 ^ 31)
  | 6 => !rising && decide ((stamp + 2 ^ 32 - tt) % 2 ^ 32 < 2 ^ 31)
  | 7 => decide ((stamp + 2 ^ 32 - tt) % 2 ^ 32 < 2 ^ 31)
  | _ => false

/-- The pin wait in progress of an engine: its code and pin, and whether it ends at TT (R274). -/
def IoeCur.pinWait (c : IoeCur) : Option (Nat × Nat × Bool) :=
  if bitsN c.word 31 27 = 2 then some (bitsN c.word 25 22, bitsN c.word 21 16, bitN c.word 26) else none

/-- An edge that the latch of an engine keeps; a second one of its direction replaces it and sets EDGE_OVR (R275). -/
def State.latchEdge (s : State) (e : Nat) (rising : Bool) (stamp : Nat) : State :=
  let x := s.ioe e
  if rising then
    let s := if x.rise.isSome then s.raise .IOE_EVT_EDGE_OVR e else s
    s.setIoe e { x with rise := some (stamp, s.tnow) }
  else
    let s := if x.fall.isSome then s.raise .IOE_EVT_EDGE_OVR e else s
    s.setIoe e { x with fall := some (stamp, s.tnow) }

/-- What an edge of pin `p` does to engine `e`: it ends a pin wait that it satisfies, and between edge waits, a level wait
among them, the edge latch keeps it (R274, R275). -/
def State.engineEdge (s : State) (e p : Nat) (rising : Bool) (stamp : Nat) : State :=
  let x := s.ioe e
  let held := if x.pin = some p then s.latchEdge e rising stamp else s
  match x.cur with
  | none => held
  | some c => match c.pinWait with
    | none => held
    | some (a, q, t) =>
      let s := if a ≤ 1 then held else s
      if c.met.isSome || (t && ttReached s.tick (s.fld .IOE_TT e)) then held
      else if q ≠ p then s
      else if (a = 0 ∧ rising = false) ∨ (a = 1 ∧ rising) then
        s.modIoe e fun y => { y with cur := some { c with met := some (stamp, s.tick) } }
      else if edgeMatches a (s.fld .IOE_TT e) rising stamp then
        s.setIoe e { x with cur := some { c with met := some (stamp, s.tick) }, pin := some p, rise := none, fall := none }
      else s

/-- An edge of pin `p` of the pool, offered to every engine (R269, R275). -/
def State.pinEdge (s : State) (p : Nat) (rising : Bool) (stamp : Nat) : State :=
  (upto 16).foldl (fun t e => t.engineEdge e p rising (stamp % 2 ^ 32)) s

end Sys2Proof.Machine
end

