-- ==== Sys2Proof/Machine/Pwm.lean ====
section
/-! DEFINITION. Trip channels and PWM generators (R244 to R264). -/

namespace Sys2Proof.Machine

def State.pwm (s : State) (g : Nat) : Pwm := Tab.get {} s.pwms g
def State.setPwm (s : State) (g : Nat) (x : Pwm) : State := { s with pwms := Tab.set {} s.pwms g x }
def State.modPwm (s : State) (g : Nat) (f : Pwm → Pwm) : State := s.setPwm g (f (s.pwm g))
def State.trip (s : State) (t : Nat) : Trip := Tab.get {} s.trips t
def State.setTrip (s : State) (t : Nat) (x : Trip) : State := { s with trips := Tab.set {} s.trips t x }

/-! ### The counter (R244, R245) -/

/-- PERIOD in use: 0 and 1 act as 2 (R245). -/
def Pwm.top (x : Pwm) : Nat := max 2 x.period

/-- The ticks of a period (R245). -/
def State.pwmLen (s : State) (g : Nat) : Nat :=
  if s.flag .PWM_CTRL_UPDOWN g then 2 * (s.pwm g).top else (s.pwm g).top

/-- The counter advances (R244, R260). -/
def State.pwmRuns (s : State) (g : Nat) : Bool := (s.pwm g).run && (s.pwm g).halted.isNone

/-- The count at a tick, and whether it is falling (R245) (DEDUCED, log entry 32). -/
def State.pwmCountAt (s : State) (g tick : Nat) : Nat × Bool :=
  let x := s.pwm g
  if !x.run then (0, false) else
    let now := x.halted.getD tick
    let pos := (if x.bound ≤ now then now - x.bound else now - x.start) % max 1 (s.pwmLen g)
    if s.flag .PWM_CTRL_UPDOWN g ∧ x.top < pos then (2 * x.top - pos, true) else (pos, false)

/-- The count now. -/
def State.pwmCount (s : State) (g : Nat) : Nat × Bool := s.pwmCountAt g s.tick

/-! ### Outputs (R246 to R255) -/

/-- The computed state of an output with compare value `c` (R246). -/
def State.computed (s : State) (g c : Nat) : Bool :=
  if c = 0 then false else if (s.pwm g).top ≤ c then true else decide ((s.pwmCount g).1 < c)

/-- The forces in effect on outputs A and B (R249); two active forces of a complementary generator are both taken as
inactive. -/
def State.forces (s : State) (g : Nat) : Nat × Nat :=
  let fa := (s.pwm g).fa
  let fb := (s.pwm g).fb
  if s.flag .PWM_CTRL_COMPL g then
    if fa = 2 ∧ fb = 2 then (1, 1) else if fa = 2 then (2, 1) else if fb = 2 then (1, 2) else (fa, fb)
  else (fa, fb)

/-- Both outputs of a complementary generator are forced active (R249). -/
def State.forceBad (s : State) (g : Nat) : Bool :=
  s.flag .PWM_CTRL_COMPL g && (s.pwm g).fa == 2 && (s.pwm g).fb == 2

/-- An output placed: it goes inactive at once, and active only where `may` holds (R247). -/
def Aux.place (x : Aux) (want may : Bool) (force tick : Nat) : Aux :=
  if want then { x with act := x.act || may, forced := force }
  else { x with act := false, forced := force, offAt := if x.act then some tick else x.offAt }

/-- The dead time since the other output went inactive has passed (R247). -/
def deadPassed (other : Aux) (dead tick : Nat) : Bool :=
  match other.offAt with
  | some t => decide (t + dead ≤ tick)
  | none => true

/-- The outputs of a generator follow the computed states and the forces at the present tick (R246, R247, R249).
A generator that is tripped, or that waits for the boundary after a trip, drives nothing active; its forces run on (R251).
While the generator stands every pin keeps its state (R260), and in the tick of a boundary the outputs follow the values that
load there (R248) (DEDUCED, log entry 32). -/
def State.pwmDrive (s : State) (g : Nat) : State :=
  let x := s.pwm g
  if x.halted.isSome || (x.run && decide (x.bound ≤ s.tick)) then s else
    let on := x.run && !s.flag .PWM_STAT_TRIPPED g && !x.leaving
    let f := s.forces g
    let ca := s.computed g x.cmpA
    let cb := if s.flag .PWM_CTRL_COMPL g then !ca else s.computed g x.cmpB
    let wa := on && (if f.1 = 0 then ca else f.1 == 2)
    let wb := on && (if f.2 = 0 then cb else f.2 == 2)
    let compl := s.flag .PWM_CTRL_COMPL g
    let fa := if on then f.1 else 0
    let fb := if on then f.2 else 0
    let a0 := if wa then x.a else x.a.place false false fa s.tick
    let b0 := if wb then x.b else x.b.place false false fb s.tick
    let a1 := if wa then a0.place true (!compl || (!b0.act && deadPassed b0 x.dead s.tick)) fa s.tick else a0
    let b1 := if wb then b0.place true (!compl || (!a1.act && deadPassed a1 x.dead s.tick)) fb s.tick else b0
    let s := s.setPwm g { x with a := a1, b := b1 }
    if x.run && s.forceBad g then s.raise .PWM_STAT_FORCE_BAD g else s

/-- The due change of a generator: EN and the forces as they are written are taken into use, or its outputs leave a cleared
trip (R244, R249, R252). -/
def State.pwmSettle (s : State) (g : Nat) : State :=
  let x := s.pwm g
  if x.halted.isNone && x.due.any (· ≤ s.tick) then
    (s.setPwm g { x with due := none, run := s.flag .PWM_CTRL_EN g
                         fa := s.fld .PWM_FORCE_FA g, fb := s.fld .PWM_FORCE_FB g }).pwmDrive g
  else s

/-- The due changes of every generator (R244, R249). -/
def State.pwmTurn (s : State) : State := s.pwms.foldl (fun t e => t.pwmSettle e.1) s

/-- The change that a write makes due in the next tick. -/
def State.pwmDue (s : State) (g : Nat) : State := s.modPwm g fun x => { x with due := some (s.tick + 1) }

/-- What pin AUX[2g + b] presents: high impedance with its pull-down, or the level that POL gives its state (R255 to R257). A
standing generator keeps what it presented, but for a trip, an overcurrent and the states of R257 (R260, R261). -/
def State.auxPad (s : State) (a : Nat) : Pad :=
  let g := a / 2
  let x := s.pwm g
  let second := a % 2 == 1
  let o := if second then x.b else x.a
  let oe := s.flag (if second then .PWM_OUTCFG_OE_B else .PWM_OUTCFG_OE_A) g
  let pol := s.flag (if second then .PWM_OUTCFG_POL_B else .PWM_OUTCFG_POL_A) g
  let od := s.flag (if second then .PWM_OUTCFG_OD_B else .PWM_OUTCFG_OD_A) g
  let volts := if s.flag (if second then .PWM_OUTCFG_LEVEL_B else .PWM_OUTCFG_LEVEL_A) g then 12 else 5
  let off := Pad.z (if od then .none else .down)
  if s.auxOff || s.flag .PWM_STAT_TRIPPED g || x.leaving || o.short then off
  else match x.frozen with
    | some p => if second then p.2 else p.1
    | none =>
      if !oe || o.forced == 3 then off
      else if o.act == pol then .low
      else if od then .z .none else .high volts

/-! ### Trips (R250 to R252) -/

/-- A TRIP_CLR accepted earlier in the tick of a new trip is refused: the causes that it cleared stay (R253). -/
def State.unclear (s : State) (g : Nat) : State :=
  match (s.pwm g).cleared with
  | some (t, ch, sw, cl) =>
    if t = s.tick then
      (((s.orFld .PWM_STAT_TRIP_CH g ch).orFld .PWM_STAT_BY_SW g sw).orFld .PWM_STAT_BY_CLEARING g cl).raise
        .PWM_STAT_CLR_REFUSED g
    else s
  | none => s

/-- A generator trips (R251): by channels, by software, or by the entry to Clearing. -/
def State.pwmTrip (s : State) (g chans : Nat) (sw clearing : Bool) : State :=
  let s := (s.unclear g).raise .PWM_STAT_TRIPPED g
  let s := s.orFld .PWM_STAT_TRIP_CH g chans
  let s := if sw then s.raise .PWM_STAT_BY_SW g else s
  let s := if clearing then s.raise .PWM_STAT_BY_CLEARING g else s
  let s := s.bump .PWM_CNT_TRIP g
  let off := fun (o : Aux) => { o with act := false, offAt := if o.act then some s.tick else o.offAt }
  s.modPwm g fun x => { x with leaving := false, tripAt := some s.tick, cleared := none, a := off x.a, b := off x.b }

/-- A selected channel is asserted while TRIPPED is 0 (R251). -/
def State.pwmTripCheck (s : State) (g : Nat) : State :=
  let chans := s.fld .TRIP_STAT_FILTERED &&& s.fld .PWM_CTRL_TRIP_MASK g
  if chans ≠ 0 ∧ s.flag .PWM_STAT_TRIPPED g = false then s.pwmTrip g chans false false else s

/-- The trips on entry to Clearing (R258); no trip acts while the peripheral clock stands (R261). -/
def State.pwmClearing (s : State) : State :=
  if s.perStopped then s else (upto 16).foldl (fun t g => if t.flag .PWM_CTRL_CLEAR_TRIP g then t.pwmTrip g 0 false true else t) s

/-- TRIP_CLR (R252, R253) (DEDUCED, log entry 34). -/
def State.tripClear (s : State) (g : Nat) : State :=
  if s.flag .PWM_STAT_TRIPPED g then
    if (s.fld .TRIP_STAT_FILTERED &&& s.fld .PWM_CTRL_TRIP_MASK g) ≠ 0 ∨ (s.pwm g).tripAt = some s.tick then
      s.raise .PWM_STAT_CLR_REFUSED g
    else
      let was := (s.tick, s.fld .PWM_STAT_TRIP_CH g, s.fld .PWM_STAT_BY_SW g, s.fld .PWM_STAT_BY_CLEARING g)
      let s := s.setFld .PWM_STAT_TRIPPED g 0
      let s := s.setFld .PWM_STAT_TRIP_CH g 0
      let s := s.setFld .PWM_STAT_BY_SW g 0
      let s := s.setFld .PWM_STAT_BY_CLEARING g 0
      s.modPwm g fun x => { x with leaving := true, cleared := some was }
  else s

/-- A comparator drives the internal trip channel `t` (R239). -/
def State.cmpTrips (s : State) (t : Nat) : Bool :=
  s.cmps.any fun e => e.2.routed && s.flag .CMP_ROUTE_TRIP_EN e.1 && s.fld .CMP_ROUTE_TRIP e.1 == t

/-- TRIP_STAT.PIN and RAW of a channel follow its pin and its comparators; a change of the OR restarts the filter
count (R250). -/
def State.tripRefresh (s : State) (t : Nat) : State :=
  let pin := (s.trip t).pin != s.flag .TRIP_CFG_PIN_INV t
  let raw := (s.flag .TRIP_CFG_PIN_EN t && pin) || s.cmpTrips t
  let was := bitN (s.fld .TRIP_STAT_RAW) t
  let put := fun (n : Nat) (b : Bool) => if bitN n t == b then n else if b then n + 2 ^ t else n - 2 ^ t
  let s := s.setFld .TRIP_STAT_PIN 0 (put (s.fld .TRIP_STAT_PIN) pin)
  let s := s.setFld .TRIP_STAT_RAW 0 (put (s.fld .TRIP_STAT_RAW) raw)
  if raw == was then s else s.setTrip t { s.trip t with rawAt := s.tnow }

/-- TRIP_PIN_CHANGE: the level at the pin of a trip channel (R250). -/
def State.tripPin (s : State) (t : Nat) (level : Bool) : State :=
  (s.setTrip t { s.trip t with pin := level }).tripRefresh t

def State.tripRefreshAll (s : State) : State := (upto 8).foldl State.tripRefresh s

/-! ### Load points and commands (R248, R254, R259) -/

/-- The shadow values, in the order PERIOD, CMPA, CMPB, MARK1, MARK2, DEADTIME. -/
def shadowFlds : List Fld := [.PWM_PERIOD, .PWM_CMPA, .PWM_CMPB, .PWM_MARK1, .PWM_MARK2, .PWM_DEADTIME]

/-- A write of a shadow value is noted with what the shadow held before its tick (R248). -/
def State.shadowNote (s : State) (g : Nat) : State :=
  s.modPwm g fun x => { x with wrote := match x.wrote with
    | some w => if w.1 = s.tick then some w else some (s.tick, shadowFlds.map fun f => s.fld f g)
    | none => some (s.tick, shadowFlds.map fun f => s.fld f g) }

/-- A shadow value as a load point in tick `at'` transfers it: a write in that tick comes too late (R248). -/
def State.shadow (s : State) (g at' k : Nat) : Nat :=
  match (s.pwm g).wrote with
  | some w => if at' ≤ w.1 then w.2.getD k 0 else s.fld (shadowFlds.getD k .PWM_PERIOD) g
  | none => s.fld (shadowFlds.getD k .PWM_PERIOD) g

/-- The values that load at the mid-period point (R248). -/
def State.loadMid (s : State) (g at' : Nat) : State :=
  s.modPwm g fun x => { x with cmpA := s.shadow g at' 1, cmpB := s.shadow g at' 2
                               mark1 := s.shadow g at' 3, mark2 := s.shadow g at' 4 }

/-- Every shadow value (R248). -/
def State.loadAll (s : State) (g at' : Nat) : State :=
  (s.loadMid g at').modPwm g fun x => { x with period := s.shadow g at' 0, dead := s.shadow g at' 5 }

/-- PWM_BOUNDARY (R248, R252, R255): shadow values load, and outputs leave the high impedance of a cleared trip or
overcurrent, starting inactive. -/
def State.pwmBoundary (s : State) (g : Nat) : State :=
  let x := s.pwm g
  if s.pwmRuns g && decide (x.bound ≤ s.tick) then
    let s := if s.flag .PWM_CTRL_LOCK g then s else s.loadAll g x.bound
    let s := s.modPwm g fun y => { y with start := x.bound }
    let s := s.modPwm g fun y =>
      let rel := y.leaving
      let ra := y.a.short && !s.flag .PWM_STAT_SHORT_A g
      let rb := y.b.short && !s.flag .PWM_STAT_SHORT_B g
      let back := fun (o : Aux) (r : Bool) =>
        { o with short := o.short && !r, act := o.act && !(r || rel), offAt := if r || rel then some s.tick else o.offAt }
      { y with bound := x.bound + s.pwmLen g, leaving := false, a := back y.a ra, b := back y.b rb }
    if x.leaving then s.pwmDue g else s.pwmDrive g
  else s

/-- PWM_MID_LOAD (R248). -/
def State.pwmMid (s : State) (g : Nat) : State :=
  let c := s.pwmCount g
  let top := (s.pwm g).top
  let mid := if s.flag .PWM_CTRL_UPDOWN g then top else top / 2
  if s.pwmRuns g && s.flag .PWM_CTRL_LOAD_MID g && !s.flag .PWM_CTRL_LOCK g && c.1 == mid && !c.2 then
    (s.loadMid g s.tick).pwmDrive g
  else s

/-- The basins whose window the markers of generator `g` own (R210). -/
def State.markerBasins (s : State) (g : Nat) : List Nat :=
  (upto 512).filter fun k => s.flag .BAS_CFG_EN k && s.flag .BAS_CFG_WIN_SRC k && s.fld .BAS_CFG_PWM_SEL k == g

/-- PWM_MARKER (R254): the first marker opens and the second closes; equal markers act as CLOSE_OPEN. -/
def State.pwmMarker (s : State) (g : Nat) (second : Bool) : State :=
  let x := s.pwm g
  let c := s.pwmCount g
  let m := if second then x.mark2 else x.mark1
  if s.pwmRuns g && c.1 == m && !c.2 && decide (m < x.top) then
    let e := 4 * s.tick
    (s.markerBasins g).foldl (fun t k =>
      if x.mark1 = x.mark2 then (if second then t else (t.basClose k e).basOpen k e)
      else if second then t.basClose k e else t.basOpen k e) s
  else s

/-- PWM_SYNC.RESTART (R259): the counters named restart at 0 on the next tick. -/
def State.pwmRestart (s : State) (mask : Nat) : State :=
  (upto 16).foldl (fun t g =>
    if bitN mask g && t.flag .PWM_CTRL_EN g && (t.pwm g).halted.isNone then t.modPwm g fun x => { x with bound := t.tick + 1 } else t) s

/-- AUX_OVERCURRENT (R255). -/
def State.auxOver (s : State) (a : Nat) : State :=
  let g := a / 2
  if a % 2 = 0 then
    (s.raise .PWM_STAT_SHORT_A g).modPwm g fun x =>
      { x with a := { x.a with short := true, act := false, offAt := if x.a.act then some s.tick else x.a.offAt } }
  else
    (s.raise .PWM_STAT_SHORT_B g).modPwm g fun x =>
      { x with b := { x.b with short := true, act := false, offAt := if x.b.act then some s.tick else x.b.offAt } }

/-- A write of PWM_CTRL (R244, R247): UPDOWN and COMPL are unchanged while EN is 1; the counter starts or stops in the next
tick. -/
def State.pwmCtrl (s : State) (src off be g v : Nat) : State :=
  let was := s.flag .PWM_CTRL_EN g
  let ud := b2n (bitN v 28)
  let co := b2n (bitN v 27)
  let s := if was && (ud != s.fld .PWM_CTRL_UPDOWN g || co != s.fld .PWM_CTRL_COMPL g) then
      s.accessErr src off be true .locked else s
  let s := if was then s else (s.setFld .PWM_CTRL_UPDOWN g ud).setFld .PWM_CTRL_COMPL g co
  let s := s.setFld .PWM_CTRL_LOCK g (bitsN v 30 30)
  let s := s.setFld .PWM_CTRL_LOAD_MID g (bitsN v 29 29)
  let s := s.setFld .PWM_CTRL_CLEAR_TRIP g (bitsN v 26 26)
  let s := s.setFld .PWM_CTRL_TRIP_MASK g (bitsN v 7 0)
  let s := s.setFld .PWM_CTRL_EN g (bitsN v 31 31)
  let s := if !was && bitN v 31 then s.modPwm g fun x => { x with bound := x.halted.getD s.tick + 1 } else s
  (if was == bitN v 31 then s else s.pwmDue g).pwmTripCheck g

/-- A write of PWM_OUTCFG (R255): only OE changes while EN is 1. -/
def State.pwmOutcfg (s : State) (src off be g v : Nat) : State :=
  let fs : List (Fld × Nat) := [(.PWM_OUTCFG_POL_B, 10), (.PWM_OUTCFG_LEVEL_B, 9), (.PWM_OUTCFG_OD_B, 8),
    (.PWM_OUTCFG_POL_A, 2), (.PWM_OUTCFG_LEVEL_A, 1), (.PWM_OUTCFG_OD_A, 0)]
  let run := s.flag .PWM_CTRL_EN g
  let s := if run && fs.any (fun e => s.fld e.1 g != bitsN v e.2 e.2) then s.accessErr src off be true .locked else s
  let s := if run then s else fs.foldl (fun t e => t.setFld e.1 g (bitsN v e.2 e.2)) s
  (s.setFld .PWM_OUTCFG_OE_B g (bitsN v 11 11)).setFld .PWM_OUTCFG_OE_A g (bitsN v 3 3)

/-- A write of PWM_FORCE, which takes effect on the next tick (R249). -/
def State.pwmForce (s : State) (g v : Nat) : State :=
  ((s.setFld .PWM_FORCE_FB g (bitsN v 3 2)).setFld .PWM_FORCE_FA g (bitsN v 1 0)).pwmDue g

/-- The counters and pins of every generator stand: in a debug halt, and while the peripheral clock stands (R260, R261). -/
def State.pwmHold (s : State) : State :=
  (upto 16).foldl (fun t g =>
    if (t.pwm g).halted.isSome then t else
      t.modPwm g fun x => { x with halted := some t.tick, frozen := some (t.auxPad (2 * g), t.auxPad (2 * g + 1)) }) s

/-- They go on from their held counts, and what was written meanwhile takes effect on the next tick (R260).
(DEDUCED, log entry 32). -/
def State.pwmResume (s : State) : State :=
  (upto 16).foldl (fun t g =>
    match (t.pwm g).halted with
    | some h => t.modPwm g fun x =>
        let gone := t.tick - h
        { x with halted := none, frozen := none, due := some (t.tick + 1)
                 start := x.start + gone, bound := if x.run then x.bound + gone else t.tick + 1 }
    | none => t) s

end Sys2Proof.Machine
end

