-- ==== Sys2Proof/Machine/Comparators.lean ====
section
/-! DEFINITION. Comparators and window monitors (R229 to R243). -/

namespace Sys2Proof.Machine

def State.cmp (s : State) (k : Nat) : Cmp := Tab.get {} s.cmps k
def State.setCmp (s : State) (k : Nat) (x : Cmp) : State := { s with cmps := Tab.set {} s.cmps k x }
def State.modCmp (s : State) (k : Nat) (f : Cmp → Cmp) : State := s.setCmp k (f (s.cmp k))

/-- A threshold in units of 1.25 V / 1,024 (R230). -/
def State.threshold (s : State) (k : Nat) : Nat :=
  if s.flag .CMP_DAC_RANGE k then 4 * s.fld .CMP_DAC_CODE k else s.fld .CMP_DAC_CODE k

/-- OUT of a comparator: the filtered comparison with INVERT while it is valid, its last value otherwise; a change is
an edge of its pin of the pool (R232 to R234, R240). -/
def State.cmpOut (s : State) (k : Nat) : State :=
  if s.flag .CMP_STAT_VALID k then
    let out := (s.cmp k).filt != s.flag .CMP_CFG_INVERT k
    if out == s.flag .CMP_STAT_OUT k then s else (s.putFlag .CMP_STAT_OUT k out).pinEdge (32 + k) out s.tnow
  else s

/-- OUTSIDE and WIN_BAD of the pair of even comparator `e` (R236, R237). -/
def State.window (s : State) (e : Nat) : State :=
  let valid := s.flag .CMP_CFG_WIN_EN e && s.flag .CMP_STAT_VALID e && s.flag .CMP_STAT_VALID (e + 1)
  let bad := valid && decide (s.threshold (e + 1) ≤ s.threshold e)
  let out := valid && (bad || !(s.cmp e).filt || (s.cmp (e + 1)).filt)
  (s.putFlag .CMP_STAT_WIN_BAD e bad).putFlag .CMP_STAT_OUTSIDE e out

/-- The routed signal of R238. -/
def State.routedNow (s : State) (k : Nat) : Bool :=
  if s.flag .CMP_ROUTE_SRC_WIN k && k % 2 == 0 && s.flag .CMP_CFG_WIN_EN k then s.flag .CMP_STAT_OUTSIDE k
  else s.flag .CMP_STAT_OUT k

/-- A change of the routed signal raises RISE or FALL and counts, unless it is `quiet` (R234, R238). -/
def State.cmpEvent (s : State) (k : Nat) (quiet : Bool) : State :=
  let r := s.routedNow k
  if r == (s.cmp k).routed then s else
    let s := s.modCmp k fun x => { x with routed := r }
    if quiet then s else
      (s.raise (if r then .CMP_STAT_RISE else .CMP_STAT_FALL) k).bump .CMP_CNT_EDGES k

/-- Everything that follows the filtered comparisons of the pair of comparator `k`: OUT, OUTSIDE, events, and the trip
channels. -/
def State.cmpRefresh (s : State) (k : Nat) (quiet : Bool) : State :=
  let e := k / 2 * 2
  let s := ((s.cmpOut e).cmpOut (e + 1)).window e
  ((s.cmpEvent e (quiet && k == e)).cmpEvent (e + 1) (quiet && k != e)).tripRefreshAll

/-- The filtered comparison takes the raw one, and the comparator is valid from now (R232, R234).
(DESIGN CHOICE, log entry 4). -/
def State.cmpPass (s : State) (k : Nat) : State :=
  let x := s.cmp k
  let first := !s.flag .CMP_STAT_VALID k
  let s := s.setCmp k { x with filt := x.raw, quiet := x.quiet && !first }
  (s.raise .CMP_STAT_VALID k).cmpRefresh k (first && x.quiet)

/-- SEL of a comparator: in a window pair, that of the even one for both (R229, R236). -/
def State.cmpSel (s : State) (k : Nat) : Nat :=
  if s.flag .CMP_CFG_WIN_EN (k / 2 * 2) then s.fld .CMP_CFG_SEL (k / 2 * 2) else s.fld .CMP_CFG_SEL k

/-- The input of a comparator in µV, from its least to its greatest, where the module itself makes it: the internal reference
or ground (R229). -/
def State.cmpInput (s : State) (k : Nat) : Option (Nat × Nat) :=
  match s.cmpSel k with
  | 0x30 => some (2498750, 2501250)
  | 0x31 => some (0, 0)
  | _ => none

/-- The threshold in µV, its tolerance and half the hysteresis (R230, R231). -/
def State.cmpBand (s : State) (k : Nat) : Nat × Nat × Nat :=
  let fs := if s.flag .CMP_DAC_RANGE k then 5000000 else 1250000
  (s.fld .CMP_DAC_CODE k * fs / 1024, fs / 400 + fs / 1024 + 1,
    match s.fld .CMP_CFG_HYST k with | 0 => 0 | 1 => 5000 | 2 => 10000 | _ => 20000)

/-- The raw comparison can take a value: an input from outside can lie anywhere, one that the module makes only where the
threshold's tolerance allows (R229 to R231) (DESIGN CHOICE, log entry 57). -/
def State.cmpCan (s : State) (k : Nat) (raw : Bool) : Bool :=
  let b := s.cmpBand k
  match s.cmpInput k with
  | none => true
  | some v => if raw then decide (b.1 + b.2.2 < v.2 + b.2.1) else decide (v.1 + b.2.2 < b.1 + b.2.1)

/-- The raw comparison takes a value, which restarts its count (R231, R232). -/
def State.cmpRaw (s : State) (k : Nat) (raw : Bool) : State :=
  if raw == (s.cmp k).raw then s else s.modCmp k fun x => { x with raw := raw, rawAt := s.tnow }

/-- CMP_CROSSING (R231). -/
def State.cmpCross (s : State) (k : Nat) (raw : Bool) : State := if s.cmpCan k raw then s.cmpRaw k raw else s

/-- After a change of source, threshold or hysteresis: the raw comparison of an input that the module makes takes the other
value where it can no longer have its own (R229 to R231). -/
def State.cmpFollow (s : State) (k : Nat) : State :=
  let r := (s.cmp k).raw
  if s.cmpCan k r then s else s.cmpRaw k !r

/-- CMP_FILTER_PASS (R232): nothing before the raw comparison has held for FILT cycles, in a hold, or with the DAC
disconnected (R233, R234). -/
def State.cmpFilter (s : State) (k : Nat) : State :=
  let x := s.cmp k
  if x.connected && x.hold.isNone && decide (x.rawAt + 4 * max 1 (s.fld .CMP_CFG_FILT k) ≤ s.tnow) then s.cmpPass k else s

/-- CMP_HOLD_END (R234): after 3 µs the filter count restarts; with FILT at 0 the comparator is valid at once. -/
def State.cmpHoldEnd (s : State) (k : Nat) : State :=
  match (s.cmp k).hold with
  | some t =>
    if t ≤ s.tnow then
      let s := s.modCmp k fun x => { x with hold := none, rawAt := max x.rawAt t }
      let s := s.putFlag .CMP_STAT_HOLD k false
      if s.fld .CMP_CFG_FILT k = 0 then s.cmpPass k else s
    else s
  | none => s

/-- A write of CMP_DAC (R233 to R235). -/
def State.cmpDac (s : State) (k v : Nat) : State :=
  let x := s.cmp k
  let range := b2n (bitN v 10)
  let restart := !x.connected || range != s.fld .CMP_DAC_RANGE k
  let moved := bitsN v 9 0 != s.fld .CMP_DAC_CODE k
  let s := (s.setFld .CMP_DAC_RANGE k range).setFld .CMP_DAC_CODE k (bitsN v 9 0)
  let s := if moved then s.modCmp k fun x => { x with dacAt := s.tnow } else s
  let s := if restart then
      ((s.modCmp k fun y =>
        { y with connected := true, hold := some (s.tnow + 3000), quiet := x.quiet || !x.connected }).raise
          .CMP_STAT_HOLD k).putFlag .CMP_STAT_VALID k false
    else s
  (s.cmpFollow k).cmpRefresh k false

/-- A write of CMP_CFG: a SEL that is not assigned discards the write and is logged (R229). -/
def State.cmpCfg (s : State) (src off be k v : Nat) : State :=
  if 0x31 < bitsN v 6 0 then s.accessErr src off be true .refused
  else
    let s := s.setFld .CMP_CFG_FILT k (bitsN v 23 16)
    let s := if k % 2 = 0 then s.setFld .CMP_CFG_WIN_EN k (bitsN v 12 12) else s
    let s := s.setFld .CMP_CFG_HYST k (bitsN v 9 8)
    let s := s.setFld .CMP_CFG_INVERT k (bitsN v 7 7)
    let s := s.setFld .CMP_CFG_SEL k (bitsN v 6 0)
    ((s.cmpFollow (k / 2 * 2)).cmpFollow (k / 2 * 2 + 1)).cmpRefresh k false

/-- A write of CMP_ROUTE (R238, R239). -/
def State.cmpRoute (s : State) (k v : Nat) : State :=
  let s := s.setFld .CMP_ROUTE_TRIP_EN k (bitsN v 11 11)
  let s := s.setFld .CMP_ROUTE_TRIP k (bitsN v 10 8)
  let s := s.setFld .CMP_ROUTE_SRC_WIN k (bitsN v 4 4)
  let s := s.setFld .CMP_ROUTE_IRQ_FALL k (bitsN v 1 1)
  (s.setFld .CMP_ROUTE_IRQ_RISE k (bitsN v 0 0)).cmpRefresh k false

/-- TRIP_FILTER_PASS (R250, R251): the filtered level follows the OR, and generators that select the channel trip. -/
def State.tripPass (s : State) (t : Nat) : State :=
  let raw := bitN (s.fld .TRIP_STAT_RAW) t
  let was := bitN (s.fld .TRIP_STAT_FILTERED) t
  if raw != was && decide ((s.trip t).rawAt + 4 * (s.fld .TRIP_CFG_FILT t + 1) ≤ s.tnow) then
    if raw then
      let s := s.orFld .TRIP_STAT_FILTERED 0 (2 ^ t)
      (upto 16).foldl (fun u g =>
        if bitN (u.fld .PWM_CTRL_TRIP_MASK g) t then u.pwmTrip g (2 ^ t) false false else u) s
    else s.clearBits .TRIP_STAT_FILTERED 0 (2 ^ t)
  else s

end Sys2Proof.Machine
end

