-- ==== Sys2Proof/Machine/Fabric.lean ====
section
/-! DEFINITION. The event-match fabric: slots and the reached test, channels and their edges, ownership, service slots,
safe ends and the spillway's work on channels and slots (R109 to R172). -/

namespace Sys2Proof.Machine

/-! ### Slots (R109, R144 to R149) -/

/-- Codes 0x8 to 0xE of R171: the slot compares TNOW. -/
def SlotKind.timed (k : SlotKind) : Bool := decide (8 ≤ k.ctorIdx)

/-- The action moves a channel. -/
def SlotKind.onChannel : SlotKind → Bool
  | .aSet | .aClear | .pulseStart | .pulseLimit | .tSet | .tClear | .pulseEnd => true
  | _ => false

/-- The action makes its channel active. -/
def SlotKind.sets : SlotKind → Bool
  | .aSet | .pulseStart | .tSet => true
  | _ => false

/-- An angle-defined clear (R62). -/
def SlotKind.angleClear : SlotKind → Bool
  | .aClear | .pulseLimit => true
  | _ => false

/-- The domain that sequencer `n` is bound to (R13). -/
def State.seqDomain (s : State) (n : Nat) : Nat := s.fld .SEQ_CTRL_DOMAIN n

/-- The slots of a sequencer that are armed now: SLOTS.IN_USE. -/
def State.inUse (s : State) (n : Nat) : Nat := ((s.seq n).slots.filter fun e => e.2.armed).length

/-- The free slots of a sequencer, lowest first (R109). -/
def State.freeSlots (s : State) (n : Nat) : List Nat := (upto 64).filter fun k => !(s.slot n k).armed

/-- TNOW of the word that the comparators evaluate now: 24 ns after it was formed (R143). -/
def State.evalWord (s : State) : Nat := s.tnow - 24

/-- What a comparator reads from the word of TNOW `t`: TNOW[31:0], or the angle of domain `d` while it is valid
(R144, R146). -/
def State.reads (s : State) (d : Nat) (timed : Bool) (t : Nat) : Option Nat :=
  if timed then some (t % 2 ^ 32)
  else
    let a := s.angleAt d t
    if a.2 then some a.1 else none

/-- The reference of R145 for a comparator whose first word is that of TNOW `t`: its value, or that of the first later
word in which the angle is valid, with TNOW of that word. -/
def State.firstRead (s : State) (d : Nat) (timed : Bool) (t : Nat) : Option (Nat × Nat) :=
  match s.reads d timed t with
  | some v => some (v, t)
  | none =>
    let u := (s.dom d).seg.t0
    if t ≤ u then (s.reads d timed u).map fun v => (v, u) else none

/-- The reached test of R146. -/
def reachedBy (target ref value : Nat) : Bool := decide (fwd ref target ≤ fwd ref value)

/-- In the cycle in which a domain loses sync none of its angle slots fires (R162). -/
def State.losing (s : State) (d : Nat) : Bool := decide ((s.dom d).lostAt = some s.tnow)

/-- Slot `k` of sequencer `n` passes the reached test on the word of TNOW `t` (R146, R162). -/
def State.slotReached (s : State) (n k t : Nat) : Bool :=
  let x := s.slot n k
  x.armed && !x.waiting && (x.kind.timed || !s.losing (s.seqDomain n)) && (match x.ref, s.reads (s.seqDomain n) x.kind.timed t with
    | some r, some v => decide (r.2 ≤ t) && reachedBy x.target r.1 v
    | _, _ => false)

/-- The vernier position of a firing (R149). -/
def State.vernier (s : State) (n k t : Nat) : Nat :=
  let x := s.slot n k
  if x.kind.timed then (if t % 2 ^ 32 = x.target ∧ x.ref.map (·.2) ≠ some t then x.frac else 0)
  else
    let d := s.dom (s.seqDomain n)
    let g := d.segAt t
    if d.stepAt = some t ∨ x.ref.map (·.2) = some t ∨ g.rate = 0 ∨ (s.angleAt (s.seqDomain n) (t - 1)).2 = false then 0
    else
      let prev := (d.segAt (t - 1)).acc ((t - 1) * 8)
      let f := (x.target * 65536 + 2 ^ 48 - prev % 2 ^ 48) % 2 ^ 48
      if g.rate ≤ f then 0 else min 7 (8 * f / g.rate)

/-- d_t from the read value of the word before (R148). -/
def State.slotDist (s : State) (n k t : Nat) : Nat :=
  let x := s.slot n k
  match s.reads (s.seqDomain n) x.kind.timed (t - 1) with
  | some v => fwd v x.target
  | none => 0

/-- A slot freed: it keeps its arming generation, and a stalled instruction can take it from the following sequencer
cycle (R109, R110). -/
def State.freeSlot (s : State) (n k : Nat) : State :=
  s.setSlot n k { gen := (s.slot n k).gen, freeFrom := s.tnow / 2 + 1 }

/-- The other slot of a pulse, while both slots are armed for it (R115, R116). -/
def State.mate (s : State) (n k : Nat) : Option Nat :=
  (s.slot n k).partner.filter fun p => (s.slot n p).armed && decide ((s.slot n p).partner = some k)

/-- A slot freed together with the other slot of its pulse (R116). -/
def State.freePulse (s : State) (n k : Nat) : State :=
  match s.mate n k with
  | some p => (s.freeSlot n k).freeSlot n p
  | none => s.freeSlot n k

/-- A slot armed: it takes effect in the cycle of the issue, the generation counts on, and the reference is that of the
word evaluated now (R110, R111, R145) (DEDUCED, log entry 9). SLOTS.PEAK follows. -/
def State.armSlot (s : State) (n k : Nat) (x : Slot) : State :=
  let ref := s.firstRead (s.seqDomain n) x.kind.timed s.evalWord
  let s := s.setSlot n k { x with armed := true, gen := ((s.slot n k).gen + 1) % 256, ref }
  s.setFld .SEQ_SLOTS_PEAK n (max (s.fld .SEQ_SLOTS_PEAK n) (s.inUse n))

/-- The handle of R104 that names the present arming of a slot. -/
def State.handle (s : State) (n k : Nat) : Nat := (s.slot n k).gen * 256 + k

/-! ### Channels (R15, R18, R151 to R154, R165, R174) -/

/-- The owner of a channel. -/
def State.owner (s : State) (c : Nat) : Option Nat :=
  if s.flag .OUT_OWNER_OWNED c then some (s.fld .OUT_OWNER_SEQ c) else none

/-- A mode allows the channels of sequencer `n` to drive, by the column of R173. -/
def State.modeAllows (s : State) (m n : Nat) : Bool :=
  m == modeRun || (m == modeLimp && s.flag .SEQ_MODECFG_LIMP_CAPABLE n)

/-- The device hold of paths 2 to 7. -/
def State.deviceHold (s : State) : Bool := s.hold2 || s.hold3

/-- A spillway hold applies to a channel (R161, R164) (DEDUCED, log entry 29). -/
def State.held (s : State) (c : Nat) : Bool :=
  s.deviceHold || (match s.owner c with
    | some n => bitN (s.fld .SPILL_STAT_DOMAIN_HOLD) (s.seqDomain n)
    | none => false)

/-- The device gate, the applied mode of the owner and the holds allow a channel (R174). -/
def State.gateAllows (s : State) (c : Nat) : Bool :=
  match s.owner c with
  | some n => s.modeAllows s.mode n && s.modeAllows (s.fld .SEQ_MODE_STAT_APPLIED n) n && !s.held c
  | none => false

/-- SPILL_STAT.DEN_OK: the module's own DEN has been seen toggling, and path 7 is not met (R161, R172). -/
def Den.ok (x : Den) : Bool := x.seen && !x.silent

/-- Token, DEN and PRESENT (R18). A stopped DEN ends driving where the output stage recognises it, on path 7 (R166). -/
def State.mayDrive (s : State) : Bool := s.pair.token && s.den.ok && s.flag .PAIR_STAT_PRESENT

/-- A module of a pair without the token computes levels as a Lead does (R366). -/
def State.isFollow (s : State) : Bool :=
  !s.pair.token && s.fld .PAIR_STAT_SLOT != 7 && decide (3 ≤ s.fld .PAIR_STAT_STATE)

/-- Firings move a channel's level (R153, R366) (DEDUCED, log entry 10). -/
def State.levelAllowed (s : State) (c : Nat) : Bool := s.gateAllows c && (s.mayDrive || s.isFollow)

def State.level (s : State) (c : Nat) : Bool := s.flag .OUT_STAT_LEVEL c

/-- The line driver of a channel is to be enabled: the channel has an owner, its line may be driven, and R18 holds
(R165, R174). -/
def State.wantsDriver (s : State) (c : Nat) : Bool := s.gateAllows c && s.mayDrive

/-- TNOW up to which a driver disabled under a policy goes on driving an inactive channel: 100 ns from its inactive edge
at J1, or from the disable where the channel was inactive before it (R150, R166). -/
def Chan.driveEnd (x : Chan) : Nat :=
  match x.lastAt with
  | some l => if x.driveAt * 8 ≤ l then (l + 7) / 8 + 180 else x.driveAt + 156
  | none => x.driveAt + 156

/-- The line driver of a channel drives now: an enable and a disable act 56 ns after their decision, and a disable under a
policy after the channel's inactive edge and its interval (R165, R166). A failed fast clock forces the drivers off (R403). -/
def State.driving (s : State) (c : Nat) : Bool :=
  let x := s.chan c
  !s.power.forced &&
    (if x.drive then x.drove || decide (x.driveAt + 56 ≤ s.tnow)
     else x.drove && (if x.abrupt then decide (s.tnow < x.driveAt + 56) else s.level c || decide (s.tnow < x.driveEnd)))

/-- The driver of a channel decided anew in the present cycle (R166): a disable because the token, DEN or PRESENT fails
is abrupt, also for a channel whose driver still drives its policy's end. -/
def State.redriveChan (s : State) (c : Nat) : State :=
  let x := s.chan c
  let w := s.wantsDriver c
  if w != x.drive || (!w && !x.abrupt && !s.mayDrive && s.driving c) then
    s.setChan c { x with drive := w, driveAt := s.tnow, drove := s.driving c, abrupt := !s.mayDrive }
  else s

/-- Every driver decided anew: after a change of the mode, an applied mode, a hold, an owner, the token, DEN or PRESENT
(R166). -/
def State.redrive (s : State) : State := (upto 96).foldl State.redriveChan s

/-- The channels that are active. -/
def State.activeCount (s : State) : Nat := ((upto 96).filter s.level).length

/-- One edge of a channel at a stamp in 125 ps units, 8 ns or more after the edge before it (R150 to R152). -/
def State.edge (s : State) (c : Nat) (rising : Bool) (stamp : Nat) (inWord : Bool) : State :=
  let late := match (s.chan c).lastAt with
    | some l => decide (stamp < l + 64)
    | none => false
  let at' := if late then (s.chan c).lastAt.getD 0 + 64 else stamp
  let s := if late && !inWord then s.bump .OUT_CNT_STRETCH c else s
  let s := (s.bump .OUT_CNT_EDGES c).putFlag .OUT_STAT_LEVEL c rising
  let s := (s.setFld .OUT_LAST_EDGE_STAMP c at').putFlag .OUT_LAST_EDGE_RISING c rising
  s.modChan c fun x => { x with lastAt := some at' }

/-- The end of a completing channel's safe end (R158, R159). -/
def State.endCompleting (s : State) (c : Nat) : State :=
  (s.putFlag .OUT_STAT_COMPLETING c false).modChan c fun x => { x with cap := none }

/-- A channel made inactive now (R151). -/
def State.clearChan (s : State) (c stamp : Nat) : State :=
  (if s.level c then s.edge c false stamp false else s).endCompleting c

/-- A firing on a channel: vernier, order of R148, and what it does. -/
structure Firing where
  v : Nat
  d : Nat
  slot : Nat
  set' : Bool
  angleClear : Bool
  kept : Bool
  deriving DecidableEq, Repr

/-- The edges of one channel on one word, as they build up (R62, R148, R153). -/
structure WordEdges where
  level : Bool
  /-- The edges so far, oldest first: direction and stamp. -/
  edges : List (Bool × Nat) := []
  /-- The newest edge is a set of this word that an angle-defined clear would suppress. -/
  open' : Bool := false
  skips : Nat := 0
  inhibited : Nat := 0
  deriving DecidableEq, Repr

/-- One firing taken into the word (R62, R151, R153): a pulse that EMIT_MIN emits is no suppressed one. -/
def WordEdges.take (w : WordEdges) (allowed emitMin : Bool) (t : Nat) (f : Firing) : WordEdges :=
  let stamp := t * 8 + f.v
  if !allowed && !f.kept then { w with inhibited := w.inhibited + 1 }
  else if f.set' then
    if w.level then w else { w with level := true, edges := w.edges ++ [(true, stamp)], open' := true }
  else if !w.level then w
  else if w.open' && f.angleClear then
    let on := (w.edges.getLastD (true, stamp)).2
    let es := w.edges.dropLast
    { w with level := false, open' := false, skips := if emitMin then w.skips else w.skips + 1
             edges := if emitMin then es ++ [(true, on), (false, on + 64)] else es }
  else { w with level := false, open' := false, edges := w.edges ++ [(false, stamp)] }

/-- The order of R148: vernier position, then distance. -/
def firingInsert (f : Firing) : List Firing → List Firing
  | [] => [f]
  | x :: r => if f.v < x.v || (f.v == x.v && f.d < x.d) then f :: x :: r else x :: firingInsert f r

/-- The edges of a word emitted, 8 ns apart (R62). -/
def State.emitEdges (s : State) (c : Nat) (es : List (Bool × Nat)) : State :=
  (es.foldl (fun (p : State × Option Nat) e =>
    let at' := match p.2 with
      | some l => max e.2 (l + 64)
      | none => e.2
    let t := p.1.edge c e.1 at' p.2.isSome
    (t, (t.chan c).lastAt)) (s, none)).1

/-- Every firing of one channel on one word takes effect (R62, R148, R153). -/
def State.resolve (s : State) (c t : Nat) (fs : List Firing) : State :=
  let ord := fs.foldl (fun l f => firingInsert f l) []
  let w := ord.foldl (fun (w : WordEdges) f => w.take (s.levelAllowed c) (s.flag .OUT_POLICY_EMIT_MIN c) t f) { level := s.level c }
  let s := s.bumpBy .OUT_CNT_INHIBIT c w.inhibited
  let s := s.bumpBy .OUT_STAT_LATE_SKIP c w.skips
  s.emitEdges c w.edges

/-- The firing of slot `k`. -/
def State.firing (s : State) (n t k : Nat) : Firing :=
  let x := s.slot n k
  { v := s.vernier n k t, d := s.slotDist n k t, slot := k, set' := x.kind.sets, angleClear := x.kind.angleClear
    kept := x.kept }

/-- The slots of sequencer `n` on channel `c` that fire on the word of TNOW `t`; the limit slot of a pulse that starts
on the word compares from the same word (R116). -/
def State.channelFires (s : State) (n c t : Nat) : List Nat :=
  let on := (upto 64).filter fun k => (s.slot n k).kind.onChannel && (s.slot n k).arg == c && s.slotReached n k t
  let lims := on.filterMap fun k =>
    if (s.slot n k).kind = .pulseStart then
      match s.mate n k with
      | some p =>
        match (s.slot n p).ref, s.reads (s.seqDomain n) false t with
        | some r, some v => if (s.slot n p).waiting && reachedBy (s.slot n p).target r.1 v then some p else none
        | _, _ => none
      | none => none
    else none
  on ++ lims

/-- What firing does to a slot on a channel: a pulse start becomes the pulse's time slot, with its target at the rising
edge plus the duration, and its limit slot compares from now on; every other slot is freed, an end of a pulse with
both its slots (R109, R116). `rise` is the stamp of the rising edge. -/
def State.afterFire (s : State) (n t rise : Nat) (fired : List Nat) (k : Nat) : State :=
  let x := s.slot n k
  if !x.armed then s
  else match x.kind with
    | .pulseStart =>
      if (s.mate n k).any fun p => fired.contains p then s.freePulse n k
      else
        let e := rise + 8 * x.dur
        let s := match s.mate n k with
          | some p => s.setSlot n p { s.slot n p with waiting := false }
          | none => s
        s.setSlot n k { x with kind := .pulseEnd, target := e / 8 % 2 ^ 32, frac := e % 8, ref := some (t % 2 ^ 32, t) }
    | .pulseEnd | .pulseLimit => s.freePulse n k
    | _ => s.freeSlot n k

/-- The firings of one channel on one word, with what becomes of their slots. -/
def State.fireChannel (s : State) (n c t : Nat) : State :=
  let fired := s.channelFires n c t
  let fs := fired.map (s.firing n t)
  let kept := fs.any (·.kept)
  let s' := s.resolve c t fs
  let rises := fun (k : Nat) =>
    let own := t * 8 + s.vernier n k t
    match (s'.chan c).lastAt with
    | some l => if s'.level c && !s.level c && decide (own ≤ l) then l else own
    | none => own
  let s' := fired.foldl (fun u k => u.afterFire n t (rises k) fired k) s'
  if kept && !s'.level c then s'.endCompleting c else s'

/-- A wait completes with a value: RD takes it one cycle later, when the next instruction can issue (R121 to R124). -/
def State.completeWait (s : State) (n rd value : Nat) : State :=
  let c := s.tnow / 2 + 1
  s.modSeq n fun q =>
    { q with xs := if rd = 0 then q.xs else Tab.set 0 q.xs rd (value % 2 ^ 32)
             ready := if rd = 0 then q.ready else Tab.set 0 q.ready rd c, state := .run, wait := .none
             nextIssue := max q.nextIssue c, counted := max q.counted c }

/-- The wait on slot `k` of sequencer `n`, if it is in progress, completes (R124, R163). -/
def State.wakeSlot (s : State) (n k value : Nat) : State :=
  match (s.seq n).wait with
  | .slot rd j => if j = k then s.completeWait n rd value else s
  | _ => s

/-- Slot `k` of sequencer `n` fires on the word of TNOW `t`, with every slot of its channel that fires on that word
(R11, R62, R104, R148). -/
def State.fireSlot (s : State) (n k t : Nat) : State :=
  let x := s.slot n k
  if s.slotReached n k t then
    match x.kind with
    | .aOpen | .tOpen => (s.freeSlot n k).basAction x.arg t false true
    | .aClose | .tClose => (s.freeSlot n k).basAction x.arg t true false
    | .aFlag | .tFlag => (s.freeSlot n k).orFld .SEQ_FLAGS n (2 ^ (x.arg % 16))
    | .aWake | .tWake => (s.freeSlot n k).wakeSlot n k (t % 2 ^ 32)
    | _ => s.fireChannel n x.arg t
  else s

/-- Every slot of sequencer `n` of angle kind that the word of TNOW `t` reaches, fired (R61). -/
def State.fireAngles (s : State) (n t : Nat) : State :=
  (upto 64).foldl (fun u k => if (u.slot n k).kind.timed then u else u.fireSlot n k t) s

/-! ### Cancelling (R119, R120, R154, R163) -/

/-- Cancelling a slot of a pulse whose start has fired ends the pulse: its channel goes inactive now, or 8 ns after its
last edge (R120). -/
def State.endPulse (s : State) (c : Nat) : State :=
  let t8 := s.tnow * 8
  s.clearChan c (match (s.chan c).lastAt with | some l => max t8 (l + 64) | none => t8)

/-- A slot withdrawn by CANCEL, with the other slot of its pulse (R119, R120); the count of slots cancelled. -/
def State.cancelSlot (s : State) (n k : Nat) : State × Nat :=
  let x := s.slot n k
  if !x.armed then (s, 0) else
    let p := s.mate n k
    let started := x.kind = .pulseEnd ∨ (p.any fun j => (s.slot n j).kind = .pulseEnd)
    let s := if started then s.endPulse x.arg else s
    match p with
    | some j => ((s.freeSlot n k).freeSlot n j, 2)
    | none => (s.freeSlot n k, 1)

/-- Every armed slot of a sequencer that passes a test, withdrawn by CANCEL. -/
def State.cancelWhere (s : State) (n : Nat) (p : Slot → Bool) : State × Nat :=
  (upto 64).foldl (fun r k => if p (r.1.slot n k) then
      let c := r.1.cancelSlot n k
      (c.1, r.2 + c.2)
    else r) (s, 0)

/-- A slot cancelled by the spillway: a wait on it completes with 0xFFFF_FFFF (R163). -/
def State.spillSlot (s : State) (n k : Nat) : State :=
  if (s.slot n k).armed && !(s.slot n k).kept then (s.freeSlot n k).wakeSlot n k 0xFFFFFFFF else s

/-- Every slot of a sequencer that the spillway does not keep, cancelled. -/
def State.spillSlots (s : State) (n : Nat) : State := (upto 64).foldl (fun u k => u.spillSlot n k) s

/-- Armed slots of sequencer `n` that refer to channel `c`. -/
def State.refers (s : State) (n c : Nat) : List Nat :=
  (upto 64).filter fun k => (s.slot n k).armed && (s.slot n k).kind.onChannel && (s.slot n k).arg == c

/-- Every slot that refers to a channel, of any sequencer, cancelled without an effect on the channel's level (R154). -/
def State.dropRefs (s : State) (c : Nat) : State :=
  (upto 24).foldl (fun u n => (u.refers n c).foldl (fun w k => w.freeSlot n k) u) s

/-- A write of OUT_OWNER (R15, R154, R170, R166): a channel left without an owner is inactive. A discarded write that leaves
both fields unchanged is logged as R154 says, where R6 exempts unchanged RWL fields (DESIGN CHOICE, log entry 63). -/
def State.ownerWrite (s : State) (src off be c v : Nat) : State :=
  if (s.mode != modeStandby && s.mode != modeSeek) || s.changing then s.accessErr src off be true .locked
  else if 23 < bitsN v 4 0 then s.accessErr src off be true .refused
  else
    let hit := (upto 24).any fun n => !(s.refers n c).isEmpty
    let s := s.dropRefs c
    let s := if hit then s.raise .OUT_STAT_OWN_CANCEL c else s
    let s := if bitN v 7 then s else s.clearChan c (s.tnow * 8)
    ((s.setFld .OUT_OWNER_OWNED c (bitsN v 7 7)).setFld .OUT_OWNER_SEQ c (bitsN v 4 0)).redriveChan c

/-! ### Safe ends and the spillway (R158 to R164) -/

/-- The slot that holds the time-anchored end of an active channel: the time slot of a pulse or an armed ARMT CLEAR of
its owner; of several, the earliest (R158). -/
def State.timeEnd (s : State) (c : Nat) : Option (Nat × Nat) :=
  match s.owner c with
  | none => none
  | some n =>
    let ends := (s.refers n c).filter fun k => (s.slot n k).kind = .pulseEnd ∨ (s.slot n k).kind = .tClear
    (ends.foldl (fun b k => match b with
      | none => some k
      | some j => if fwd s.tnow (s.slot n k).target < fwd s.tnow (s.slot n j).target then some k else some j) none).map
        fun k => (n, k)

/-- One channel ended by the spillway (R158): by its policy, or under CUT where the path applies none. The slot that is
kept stands alone from now on. A channel that completes already keeps its end and its deadline (R159). -/
def State.endChannel (s : State) (cut : Bool) (c : Nat) : State :=
  if !cut && s.flag .OUT_STAT_COMPLETING c then s else
  let keep := !cut && s.level c && s.flag .OUT_POLICY_END c && s.fld .OUT_CAP_COMPLETE_CAP c != 0
  match if keep then s.timeEnd c else none with
  | some (n, k) =>
    let s := s.setSlot n k { s.slot n k with kept := true, partner := none }
    (s.raise .OUT_STAT_COMPLETING c).modChan c fun x => { x with cap := some (s.tnow + s.fld .OUT_CAP_COMPLETE_CAP c) }
  | none =>
    let s := if cut then (upto 24).foldl (fun u n =>
        (u.refers n c).foldl (fun w k => w.setSlot n k { w.slot n k with kept := false }) u) s else s
    s.clearChan c (s.tnow * 8)

/-- The spillway on a path (R161): recorded, channels ended, slots cancelled, holds set. `act` is the number of channels
active in the trigger cycle; `d` is the domain of path 1 (DEDUCED, log entry 11). -/
def State.spill (s : State) (path d act : Nat) : State :=
  let s := s.setFld .SPILL_STAT_LAST_PATH 0 path
  let s := s.setFld .SPILL_LAST_TNOW 0 s.tnow
  let s := (s.bump .SPILL_CNT).raise .ICU_PLAT_EVT_SPILL
  let s := s.log 2 (if path = 1 then d else 0) path act
  let mine := fun n => path != 1 || s.seqDomain n == d
  let chans := (upto 96).filter fun c => match s.owner c with | some n => mine n | none => path != 1
  let s := chans.foldl (fun u c => u.endChannel (path == 6 || path == 7) c) s
  let s := ((upto 24).filter mine).foldl State.spillSlots s
  (if path = 1 then s.orFld .SPILL_STAT_DOMAIN_HOLD 0 (2 ^ d)
   else if path = 3 then { s with hold3 := true }
   else { s with hold2 := true }).redrive

/-- COMPLETE_CAP_EXPIRY (R158): the cap acts as a time target with vernier position 0, so it fires as the word of its
instant is evaluated. -/
def State.capExpiry (s : State) (c : Nat) : State :=
  match (s.chan c).cap with
  | some t =>
    if t ≤ s.evalWord then
      let s := match s.owner c with
        | some n => (s.refers n c).foldl (fun (u : State) k => if (u.slot n k).kept then u.freePulse n k else u) s
        | none => s
      s.clearChan c (t * 8)
    else s
  | none => s

/-! ### References (R145) and service slots (R147, R156, R157) -/

/-- CYC and the read value of domain `d` at TNOW `t` in one number: the angle counted on through cycles. -/
def State.turnedAt (s : State) (d t : Nat) : Int :=
  (s.fld .AD_CYC d * 2 ^ 32 : Nat) +
    (((((s.dom d).segAt t).acc (t * 8) : Nat) : Int) - ((s.dom d).turns * 2 ^ 48 : Nat)) / 65536

/-- The angle of domain `d` has become valid: armed angle slots without a reference take it from this word (R145). -/
def State.latchRefs (s : State) (d : Nat) : State :=
  match s.reads d false s.tnow with
  | none => s
  | some v =>
    let s := (upto 24).foldl (fun u n => if u.seqDomain n = d then
        (u.seq n).slots.foldl (fun w e =>
          let x := w.slot n e.1
          if x.armed && !x.kind.timed && x.ref.isNone then w.setSlot n e.1 { x with ref := some (v, w.tnow) } else w) u
      else u) s
    (upto 64).foldl (fun u k =>
      if u.flag .SVC_CFG_EN k && u.fld .SVC_CFG_DOMAIN k == d && (u.svc k).ref.isNone && (u.svc k).fired.isNone
      then u.setSvc k { u.svc k with ref := some (v, u.tnow) } else u) s

/-- A service slot armed afresh: it takes effect in the next cycle, and its reference is that of the word evaluated then
(R145, R156). -/
def State.svcArm (s : State) (k : Nat) : State :=
  s.setSvc k { ref := s.firstRead (s.fld .SVC_CFG_DOMAIN k) false (s.evalWord + 1) }

/-- Sequencer `n` is bound to another domain: its armed angle slots read that domain's angle from the next cycle on, and take
their reference from it (R13, R145) (DEDUCED, log entry 9). -/
def State.rebound (s : State) (n : Nat) : State :=
  (s.seq n).slots.foldl (fun w e =>
    let x := w.slot n e.1
    if x.armed && !x.kind.timed then
      w.setSlot n e.1 { x with ref := w.firstRead (w.seqDomain n) false (w.evalWord + 1) }
    else w) s

/-- A service slot after half a turn from its last firing (R147): the first word in which the angle has advanced by 2^31 AU
gives its new reference. Run before every load of the angle, it finds that word in the present segment.
(DEDUCED, log entry 27). -/
def State.svcHalf (s : State) (k : Nat) : State :=
  let x := s.svc k
  let d := s.fld .SVC_CFG_DOMAIN k
  match x.fired with
  | none => s
  | some a =>
    let now := s.turnedAt d s.tnow
    let adv : Int := if (a : Int) ≤ now then now - a else fwd a (now % (2 ^ 32 : Nat)).toNat
    let acc : Int := (s.acc d : Int) + ((2 ^ 31 : Nat) - adv) * 65536
    let v := (acc - acc % 65536).toNat
    match (s.dom d).seg.firstAt v s.tnow with
    | some t => s.setSvc k { x with fired := none, ref := (s.reads d false t).map fun r => (r, t) }
    | none => s

/-- Every service slot of domain `d` brought up to the present word, before a load. -/
def State.svcHalves (s : State) (d : Nat) : State :=
  (upto 64).foldl (fun u k => if (u.svc k).fired.isSome && u.fld .SVC_CFG_DOMAIN k == d then u.svcHalf k else u) s

/-- The action of a service slot on the word of TNOW `t` (R156). -/
def State.svcAct (s : State) (k t : Nat) : State :=
  let b := s.fld .SVC_CFG_BASIN k
  let s := s.setFld .SVC_STAMP k (t % 2 ^ 32)
  match s.fld .SVC_CFG_ACT k with
  | 0 => s.basAction b t false true
  | 1 => s.basAction b t true false
  | 2 => s.orFld .ICU_MARK (k / 32) (2 ^ (k % 32))
  | _ => s.basAction b t true true

/-- A service slot that is armed passes the reached test on the word of TNOW `t` (R146, R147). -/
def State.svcReached (s : State) (k t : Nat) : Bool :=
  let d := s.fld .SVC_CFG_DOMAIN k
  s.flag .SVC_CFG_EN k && !(s.svc k).spent && !s.losing d &&
    (match (s.svc k).ref, s.reads d false t with
     | some r, some v => decide (r.2 ≤ t) && reachedBy (s.fld .SVC_TARGET k) r.1 v
     | _, _ => false)

/-- A service slot on the word of TNOW `t` (R147, R156, R157). -/
def State.svcFire (s : State) (k t : Nat) : State :=
  let s := s.svcHalf k
  if s.svcReached k t then
    let d := s.fld .SVC_CFG_DOMAIN k
    let after := if s.flag .SVC_CFG_REPEAT k then { fired := some (s.turnedAt d t).toNat : Svc } else { spent := true }
    (s.setSvc k after).svcAct k t
  else s

/-- A write of SVC_CFG or SVC_TARGET: the stored fields, and what they do to the slot (R156, R172). `fresh` says that its
target or its domain is written anew, so it takes a new reference (DEDUCED, log entry 9). -/
def State.svcRearm (s : State) (k : Nat) (was : Bool) (fresh : Bool) : State :=
  let en := s.flag .SVC_CFG_EN k
  if !en then s.setSvc k {} else if fresh || !was || (s.svc k).spent then s.svcArm k else s

/-! ### Firing on the word that is evaluated (R61, R143) -/

/-- Every angle slot and service slot of domain `d` that the word of TNOW `t` reaches, fired (R61). -/
def State.fireStep (s : State) (d t : Nat) : State :=
  let s := (upto 24).foldl (fun u n => if u.seqDomain n = d then u.fireAngles n t else u) s
  (upto 64).foldl (fun u k => if u.fld .SVC_CFG_DOMAIN k = d then u.svcFire k t else u) s

/-- SLOT_FIRE: slot `k` of sequencer `n` on the word evaluated now. On a word that carries a release or a jump, every
angle slot of the domain that the step reaches fires in the same cycle (R61, R143). -/
def State.slotFire (s : State) (n k : Nat) : State :=
  let t := s.evalWord
  let d := s.seqDomain n
  if (s.dom d).stepAt = some t ∧ !(s.slot n k).kind.timed ∧ s.slotReached n k t then s.fireStep d t else s.fireSlot n k t

/-- SVC_FIRE: service slot `k` on the word evaluated now, and on a word with a step as for SLOT_FIRE (R61, R156). -/
def State.svcFireNow (s : State) (k : Nat) : State :=
  let t := s.evalWord
  let d := s.fld .SVC_CFG_DOMAIN k
  if (s.dom d).stepAt = some t ∧ (s.svcHalf k).svcReached k t then s.fireStep d t else s.svcFire k t

end Sys2Proof.Machine
end

