-- ==== Sys2Proof/Machine/Operands.lean ====
section
/-! DEFINITION. The instruction words of the block's own processors: the fields and the legality of Phiad words (R92 to
R94, R104) and of I/O-engine words (R270 to R273). -/

namespace Sys2Proof.Machine

/-! ### Phiad (R92 to R104) -/

/-- The Phiad instructions, by mnemonic and form. -/
inductive PhOp where
  | add | sub | and' | or' | xor' | sll | srl | sra | slt | sltu | min' | max' | minu | maxu | clamp | clampu | pack
  | addi | andi | ori | xori | slli | srli | srai | rori | lui
  | mulu | muls | mul | mulq | divu | divs | remu | rems
  | lw | sw | lmu | lms | lmw | map2 | a2t | t2a | rds
  | beq | bne | blt | bge | bltu | bgeu | bmlt | bmge | jal | jalr
  | arm | armt | pulse | cancelHandle | cancelChannel | cancelAll | waita | waitt
  | waiteTooth | waiteIcu | waiteFence | waiteEpoch | waiteFlag
  | safept | fence | budget | yield | halt | handover
  deriving DecidableEq, Repr

/-- Bits [31:26]. -/
def phOpc (w : Nat) : Nat := bitsN w 31 26
/-- Bits [25:22]: RD, and the data, limit or FN field of its place. -/
def phA (w : Nat) : Nat := bitsN w 25 22
/-- Bits [21:18]: RS1. -/
def phB (w : Nat) : Nat := bitsN w 21 18
/-- Bits [17:14]: RS2, and the COND or SRC field of its place. -/
def phC (w : Nat) : Nat := bitsN w 17 14
/-- IMM18. -/
def phImm (w : Nat) : Nat := bitsN w 17 0
/-- IMM14 or OFF14. -/
def phImm14 (w : Nat) : Nat := bitsN w 13 0
/-- IMM22 or OFF22. -/
def phImm22 (w : Nat) : Nat := bitsN w 21 0
/-- CH of formats X and P. -/
def phCh (w : Nat) : Nat := bitsN w 13 7
/-- ACT of format X. -/
def phAct (w : Nat) : Nat := bitsN w 6 4
/-- FL of format X. -/
def phFl (w : Nat) : Nat := bitsN w 3 0

/-- A choice by code, from the codes 0 upwards. -/
def byCode {α : Type} (l : List α) (k : Nat) : Option α := l[k]?

/-- The ALU functions of R96. -/
def aluOps : List PhOp :=
  [.add, .sub, .and', .or', .xor', .sll, .srl, .sra, .slt, .sltu, .min', .max', .minu, .maxu, .clamp, .clampu, .pack]

/-- The conditions of R100. -/
def branchOps : List PhOp := [.beq, .bne, .blt, .bge, .bltu, .bgeu, .bmlt, .bmge]

/-- An instruction kept only if its remaining fields are legal. -/
def PhOp.when (o : PhOp) (ok : Bool) : Option PhOp := if ok then some o else none

/-- The functions of OP 0x08 (R98): MULU and MULS need an even RD. -/
def mulDiv (w : Nat) : Option PhOp :=
  match bitsN w 5 0 with
  | 0 => PhOp.mulu.when (phA w % 2 == 0)
  | 1 => PhOp.muls.when (phA w % 2 == 0)
  | 2 => some .mul
  | 3 => some .mulq
  | 8 => some .divu
  | 9 => some .divs
  | 10 => some .remu
  | 11 => some .rems
  | _ => none

/-- The fields of ARM and ARMT are legal (R93, R104, R113). -/
def armLegal (w : Nat) : Bool :=
  match phAct w with
  | 0 | 1 => decide (phCh w ≤ 95) && phC w == 0 && phFl w == 0
  | 2 | 3 => phCh w == 0 && phFl w == 0
  | 4 => phCh w == 0 && phC w == 0
  | _ => false

/-- CANCEL by its ACT code (R93, R104). -/
def cancelOp (w : Nat) : Option PhOp :=
  match phAct w with
  | 0 => PhOp.cancelHandle.when (phC w == 0 && phFl w == 0 && phCh w == 0)
  | 1 => PhOp.cancelChannel.when (phC w == 0 && phFl w == 0 && phB w == 0 && decide (phCh w ≤ 95))
  | 2 => PhOp.cancelAll.when (phC w == 0 && phFl w == 0 && phB w == 0 && phCh w == 0)
  | _ => none

/-- WAITE by its SRC code (R93, R104). -/
def waiteOp (w : Nat) : Option PhOp :=
  match phC w with
  | 0 => PhOp.waiteTooth.when (phB w == 0 && phImm14 w == 0)
  | 1 => PhOp.waiteIcu.when (phB w == 0 && decide (phImm14 w ≤ 383))
  | 2 => some .waiteFence
  | 3 => PhOp.waiteEpoch.when (phB w == 0 && phImm14 w == 0)
  | 4 => PhOp.waiteFlag.when (phImm14 w == 0)
  | _ => none

/-- SYS by its FN code (R104). -/
def sysOp (w : Nat) : Option PhOp :=
  let bare := phB w == 0 && phImm w == 0
  match phA w with
  | 1 => PhOp.safept.when bare
  | 2 => some .fence
  | 3 => some .budget
  | 4 => PhOp.yield.when bare
  | 5 => PhOp.halt.when bare
  | 6 => PhOp.handover.when (bitsN w 17 7 == 0)
  | _ => none

/-- The Phiad instruction of a word; none where R93 makes it illegal (DEDUCED, log entry 17). -/
def phDecode (w : Nat) : Option PhOp :=
  match phOpc w with
  | 0x01 => if bitsN w 13 6 = 0 then byCode aluOps (bitsN w 5 0) else none
  | 0x02 => some .addi
  | 0x03 => some .andi
  | 0x04 => some .ori
  | 0x05 => some .xori
  | 0x06 => if bitsN w 15 5 = 0 then byCode [.slli, .srli, .srai, .rori] (bitsN w 17 16) else none
  | 0x07 => some .lui
  | 0x08 => if bitsN w 13 6 = 0 then mulDiv w else none
  | 0x09 => some .lw
  | 0x0A => some .sw
  | 0x0B => some .lmu
  | 0x0C => some .lms
  | 0x0D => some .lmw
  | 0x0E => some .map2
  | 0x0F => if bitsN w 17 6 = 0 then byCode [.a2t, .t2a] (bitsN w 5 0) else none
  | 0x10 => PhOp.rds.when (phB w == 0 && decide (phImm w ≤ 4))
  | 0x11 => byCode branchOps (phC w)
  | 0x12 => some .jal
  | 0x13 => some .jalr
  | 0x18 => PhOp.arm.when (armLegal w)
  | 0x19 => PhOp.armt.when (armLegal w)
  | 0x1A => PhOp.pulse.when (decide (phCh w ≤ 95) && bitsN w 6 1 == 0 && (!bitN w 0 || phA w == 0))
  | 0x1B => cancelOp w
  | 0x1C => PhOp.waita.when (phC w == 0 && phImm14 w == 0)
  | 0x1D => PhOp.waitt.when (phC w == 0 && phImm14 w == 0)
  | 0x1E => waiteOp w
  | 0x1F => sysOp w
  | _ => none

/-- The registers an instruction reads, which it waits for (R95). -/
def PhOp.reads (o : PhOp) (w : Nat) : List Nat :=
  match o with
  | .clamp | .clampu => [phB w, phC w, phA w]
  | .add | .sub | .and' | .or' | .xor' | .sll | .srl | .sra | .slt | .sltu | .min' | .max' | .minu | .maxu | .pack
  | .mulu | .muls | .mul | .mulq | .divu | .divs | .remu | .rems | .map2 => [phB w, phC w]
  | .sw | .beq | .bne | .blt | .bge | .bltu | .bgeu | .bmlt | .bmge => [phA w, phB w]
  | .lui | .rds | .jal | .cancelChannel | .cancelAll | .waiteTooth | .waiteIcu | .waiteEpoch | .safept | .yield
  | .halt => []
  | .arm | .armt => if phAct w = 2 ∨ phAct w = 3 then [phB w, phC w] else [phB w]
  | .pulse => if bitN w 0 then [phB w, phC w] else [phB w, phC w, phA w]
  | _ => [phB w]

/-- The register an instruction writes its result to. -/
def PhOp.dest (o : PhOp) (w : Nat) : Option Nat :=
  match o with
  | .sw | .beq | .bne | .blt | .bge | .bltu | .bgeu | .bmlt | .bmge | .pulse | .safept | .fence | .budget | .yield
  | .halt | .handover => none
  | _ => some (phA w)

/-- The instructions that use the divider (R95). -/
def PhOp.divides : PhOp → Bool
  | .divu | .divs | .remu | .rems | .a2t => true
  | _ => false

/-- The instructions that post a MAPM transaction (R90). -/
def PhOp.mapm : PhOp → Bool
  | .lmu | .lms | .lmw | .map2 => true
  | _ => false

/-! ### I/O engines (R270 to R273) -/

/-- The I/O-engine instructions. -/
inductive IoOp where
  | jmp | waitp | waitf | waiti | waitt | pin | shin | shout | mov | add | sub | meas | setu | crc | push | pull
  | post | setf | irq | halt
  deriving DecidableEq, Repr

def ioOpc (w : Nat) : Nat := bitsN w 31 27
/-- The T bit. -/
def ioT (w : Nat) : Bool := bitN w 26
def ioA (w : Nat) : Nat := bitsN w 25 22
def ioB (w : Nat) : Nat := bitsN w 21 16
def ioC (w : Nat) : Nat := bitsN w 15 10
def ioImm (w : Nat) : Nat := bitsN w 9 0

/-- The fields of a JMP (R272). -/
def jmpLegal (w : Nat) : Bool :=
  let pin := ioA w == 7 || ioA w == 8
  let imm := match ioA w with
    | 1 | 2 => 1024
    | 9 => 64
    | 10 => 32
    | 12 => 8
    | 14 | 15 => 4
    | _ => 1
  (pin || ioB w == 0) && decide (ioImm w < imm)

/-- A source code of R273. -/
def ioSource (a : Nat) : Bool := decide (a ≤ 6) || (decide (8 ≤ a) && decide (a ≤ 11))

/-- The fields of SHIN (R271). -/
def shinLegal (w : Nat) : Bool :=
  match ioA w with
  | 0 => ioB w == 0 && decide (ioC w ≤ 1) && decide (1 ≤ ioImm w) && decide (ioImm w ≤ 32)
  | 1 => ioC w == 0 && ioImm w == 0
  | _ => false

/-- An instruction kept only if its remaining fields are legal. -/
def IoOp.when (o : IoOp) (ok : Bool) : Option IoOp := if ok then some o else none

/-- The I/O-engine instruction of a word; none where R270 makes it illegal (DEDUCED, log entry 17). -/
def ioDecode (w : Nat) : Option IoOp :=
  let t := ioT w
  let a := ioA w
  let b := ioB w
  let c := ioC w
  let i := ioImm w
  match ioOpc w with
  | 0x01 => IoOp.jmp.when (!t && jmpLegal w)
  | 0x02 => IoOp.waitp.when (decide (a ≤ 7) && (!t || decide (a ≤ 4)) && c == 0 && i == 0)
  | 0x03 => IoOp.waitf.when (a == 0 && b == 0 && c == 0 && decide (i < 256))
  | 0x04 => IoOp.waiti.when (decide (a ≤ 1) && b == 0 && c == 0 && decide (i ≤ 383))
  | 0x05 => IoOp.waitt.when (!t && a == 0 && b == 0 && c == 0 && i == 0)
  | 0x06 => IoOp.pin.when (decide (a ≤ 3) && c == 0 && i == 0)
  | 0x07 => IoOp.shin.when (!t && shinLegal w)
  | 0x08 => IoOp.shout.when (a == 0 && c == 0 && i == 0)
  | 0x09 => IoOp.mov.when (!t && ioSource a && b == 0 && decide (c ≤ 3))
  | 0x0A => IoOp.add.when (!t && ioSource a && b == 0 && decide (c ≤ 3) && (a == 0 || i == 0))
  | 0x0B => IoOp.sub.when (!t && ioSource a && b == 0 && decide (c ≤ 3) && (a == 0 || i == 0))
  | 0x0C => IoOp.meas.when (!t && a == 0 && b == 0 && decide (c ≤ 1) && i == 0)
  | 0x0D => IoOp.setu.when (!t && a == 0 && b == 0 && decide (c ≤ 1) && (i != 0 || c == 0))
  | 0x0E => IoOp.crc.when (!t && decide (a ≤ 1) && b == 0 && decide (c ≤ 3) && decide (bitsN i 4 0 ≤ bitsN i 9 5))
  | 0x0F => IoOp.push.when (!t && decide (a ≤ 1) && b == 0 && c == 0 && i == 0)
  | 0x10 => IoOp.pull.when (!t && decide (a ≤ 1) && b == 0 && c == 0 && i == 0)
  | 0x11 => IoOp.post.when (!t && decide (a ≤ 1) && b == 0 && decide (c ≤ 2) && i == 0)
  | 0x12 => IoOp.setf.when (!t && a == 0 && decide (b ≤ 15) && c == 0 && decide (i ≤ 7))
  | 0x13 => IoOp.irq.when (!t && a == 0 && b == 0 && c == 0 && i == 0)
  | 0x14 => IoOp.halt.when (!t && a == 0 && b == 0 && c == 0 && i == 0)
  | _ => none

end Sys2Proof.Machine
end

