-- ==== Sys2Proof/Machine/SeqOps.lean ====
section
/-! DEFINITION. What the sequencers' rules share: registers, cycle counts, tasks, completed waits, and bank swaps
(R79, R82, R108, R122 to R129, R139 to R141). -/

namespace Sys2Proof.Machine

/-- The sequencer cycle of the present instant: one every 2 ns. -/
def State.cyc (s : State) : Nat := s.tnow / 2

/-- Register `k` of sequencer `n`; x0 reads 0 (R79). -/
def State.x (s : State) (n k : Nat) : Nat := if k = 0 then 0 else Tab.get 0 (s.seq n).xs k

/-- Register `k` written; a write of x0 is discarded (R79). -/
def State.setX (s : State) (n k v : Nat) : State :=
  if k = 0 then s else s.modSeq n fun q => { q with xs := Tab.set 0 q.xs k (v % 2 ^ 32) }

/-- The entry point of a bank (R83). -/
def State.entry (s : State) (n bank : Nat) : Nat :=
  if bank = 0 then s.fld .SEQ_ENTRY_ENTRY0 n else s.fld .SEQ_ENTRY_ENTRY1 n

/-- IDLE, HALTED or FAULTED. -/
def Seq.stopped (q : Seq) : Bool :=
  match q.state with
  | .idle | .halted | .faulted => true
  | _ => false

/-- RUN or STALL (R82). -/
def Seq.executing (q : Seq) : Bool := q.state == .run || q.state == .stall

/-- Sequencer `n` can issue: it runs, and its clock does (R161). -/
def State.canIssue (s : State) (n : Nat) : Bool := (s.seq n).state == .run && !s.seqStopped

/-! ### Interlocks and cycle counts (R82, R90, R95, R108) -/

/-- The address of the instruction at PC. -/
def State.pcAddr (s : State) (n : Nat) : Nat := progAddr n (s.seq n).bank (s.seq n).pc

/-- A posted MAPM transaction that has not started holds the instruction: a second one stalls at issue (R90), and its
result is not there yet (R95). -/
def Seq.mapBlocks (q : Seq) (o : PhOp) (w : Nat) : Bool :=
  match q.mapReq with
  | none => false
  | some r =>
    o.mapm || (r.rd != 0 && ((o.reads w).contains r.rd || o.dest w == some r.rd ||
      ((o == .mulu || o == .muls) && phA w + 1 == r.rd)))

/-- The cycle up to which an instruction stalls: when its registers are ready, the divider is free, and the MAPM
transaction before its own has started (R90, R95) (DEDUCED, log entry 18). -/
def State.readyCycle (s : State) (n : Nat) (o : PhOp) (w : Nat) : Nat :=
  let q := s.seq n
  let c := (o.reads w).foldl (fun m k => max m (Tab.get 0 q.ready k)) q.nextIssue
  let c := if o.divides then max c q.divFree else c
  if o.mapm then max c q.mapFree else c

/-- The cycle in which an instruction issues: the present one at the earliest. -/
def State.issueCycle (s : State) (n : Nat) (o : PhOp) (w : Nat) : Nat := max s.cyc (s.readyCycle n o w)

/-- The present cycle of the sequencers' clock: it stands where the clock stands. -/
def State.seqCyc (s : State) : Nat := if s.seqStopped then s.clkStopAt / 2 else s.cyc

/-- The cycle in which the stall under way ends; the present one while its end is not known (R82, R90, R95, R133). -/
def State.stallEnd (s : State) (n : Nat) : Nat :=
  let q := s.seq n
  let w := s.word (s.pcAddr n)
  match q.state with
  | .stall => s.seqCyc
  | .run => match phDecode w with
    | some o => if q.mapBlocks o w then s.seqCyc else s.readyCycle n o w
    | none => q.nextIssue
  | _ => 0

/-- The sequencer is in STALL: a slot or HANDOVER stall, an interlock or MAPM arbitration (R82). -/
def State.stalled (s : State) (n : Nat) : Bool :=
  let q := s.seq n
  let w := s.word (s.pcAddr n)
  match q.state with
  | .stall => true
  | .run => decide (q.nextIssue ≤ s.seqCyc) && (match phDecode w with
    | some o => q.mapBlocks o w || decide (s.seqCyc < s.readyCycle n o w)
    | none => false)
  | _ => false

/-- STAT.STATE (R82). -/
def State.stateView (s : State) (n : Nat) : SeqState := if s.stalled n then .stall else (s.seq n).state

/-- Cycles in RUN or STALL that CNT_CYC has yet to count, and stall cycles that CNT_STALL has (R108). -/
def State.cycOwed (s : State) (n : Nat) : Nat := if (s.seq n).executing then s.seqCyc - (s.seq n).counted else 0
def State.stallOwed (s : State) (n : Nat) : Nat :=
  min s.seqCyc (s.stallEnd n) - max (s.seq n).nextIssue (s.seq n).stallCounted

/-- CNT_CYC and CNT_STALL as a read finds them, each holding at its maximum (R108, R417). -/
def State.cycView (s : State) (n : Nat) : Nat := min (2 ^ 32 - 1) (s.fld .SEQ_CNT_CYC n + s.cycOwed n)
def State.stallView (s : State) (n : Nat) : Nat := min (2 ^ 32 - 1) (s.fld .SEQ_CNT_STALL n + s.stallOwed n)

/-- Both counts brought up to the present cycle, which counts in the state that it began in: before RUN or STALL ends
(R108) (DEDUCED, log entry 30). -/
def State.countRun (s : State) (n : Nat) : State :=
  if (s.seq n).executing then
    ((s.bumpBy .SEQ_CNT_STALL n (s.stallOwed n)).bumpBy .SEQ_CNT_CYC n (s.cyc + 1 - (s.seq n).counted)).modSeq n fun q =>
      { q with counted := max q.counted (s.cyc + 1), stallCounted := max q.stallCounted s.cyc }
  else s

/-- Time passes to the beginning of sequencer cycle `c`, where that lies ahead (DESIGN CHOICE, log entry 1). -/
def State.passTo (s : State) (c : Nat) : State :=
  if s.cyc < c then { s with wsNs := s.wsNs + (2 * c - s.tnow), tnow := 2 * c % 2 ^ 64 } else s

/-- The task of sequencer `n` ends in sequencer cycle `c` (R128). -/
def State.endTask (s : State) (n : Nat) (c : Nat := max s.cyc (s.seq n).nextIssue) : State :=
  if s.flag .SEQ_TASK_STAT_IN_TASK n then
    let len := c - (s.seq n).taskStart
    let s := s.setFld .SEQ_TASK_MAX n (max (s.fld .SEQ_TASK_MAX n) (min len (2 ^ 32 - 1)))
    s.putFlag .SEQ_TASK_STAT_IN_TASK n false
  else s

/-- A task begins in sequencer cycle `c` (R128). -/
def State.beginTask (s : State) (n c : Nat) : State :=
  ((s.raise .SEQ_TASK_STAT_IN_TASK n).putFlag .SEQ_TASK_STAT_YIELDED n false).modSeq n fun q =>
    { q with taskStart := c, expired := false }

/-- A WAITE completes with a value (R122): RD can be read and the next instruction issue from cycle `c`. What it consumed
is kept until then (R140). -/
def State.completeWaite (s : State) (n rd value c : Nat) (tooth : Option Nat) (flags : Nat) : State :=
  let old := s.x n rd
  (s.setX n rd value).modSeq n fun q =>
    { q with ready := if rd = 0 then q.ready else Tab.set 0 q.ready rd c, state := .run, wait := .none, woken := false, nextIssue := max q.nextIssue c, counted := max q.counted c
             waite := some { rd, old, tooth, flags } }

/-- The sequencer is in WAIT entered by a WAITE, up to the issue of the next instruction (R140). -/
def Seq.inWaite (q : Seq) : Bool :=
  match q.wait with
  | .none => q.waite.isSome
  | .slot _ _ => false
  | _ => true

/-- A tooth event held for the next WAITE TOOTH, unless a newer one is (R141). -/
def State.holdTooth (s : State) (n word : Nat) : State :=
  if s.flag .SEQ_TASK_STAT_TOOTH_PENDING n then s else
    ((s.raise .SEQ_TASK_STAT_TOOTH_PENDING n).setFld .SEQ_TASK_STAT_COALESCE n (word / 65536 % 256)).modSeq n fun q =>
      { q with tooth := word % 65536 }

/-- BANK toggles and PENDING clears (R139). -/
def State.toggleBank (s : State) (n : Nat) : State :=
  (s.putFlag .SEQ_SWAP_STAT_PENDING n false).modSeq n fun q => { q with bank := 1 - q.bank }

/-- A swap in a stopped sequencer takes effect at once (R139). -/
def State.swapStopped (s : State) (n : Nat) : State :=
  if s.flag .SEQ_SWAP_STAT_PENDING n && (s.seq n).stopped then s.toggleBank n else s

/-- A swap in a running sequencer (R141): a WAITE is abandoned and consumes nothing, the task ends, and execution goes on
at the entry point of the new bank. -/
def State.swapRunning (s : State) (n : Nat) : State :=
  let q := s.seq n
  let s := s.countRun n
  let s := match q.waite with
    | some w =>
      let s := (s.setX n w.rd w.old).orFld .SEQ_FLAGS n w.flags
      (match w.tooth with | some t => s.holdTooth n t | none => s)
    | none => if q.woken then s.holdTooth n q.tooth else s
  let s := (s.endTask n).toggleBank n
  s.modSeq n fun q =>
    { q with wait := .none, woken := false, waite := none, safeAt := none, state := .run, pc := s.entry n q.bank
             nextIssue := s.cyc + 1, counted := max q.counted (s.cyc + 1) }

/-- Without a valid angle a pending swap takes effect as soon as the sequencer is in a WAITE (R140). -/
def State.swapSettle (s : State) (n : Nat) : State :=
  if s.flag .SEQ_SWAP_STAT_PENDING n && (s.seq n).inWaite && !s.angleValid (s.seqDomain n) then s.swapRunning n else s

end Sys2Proof.Machine
end

