-- ==== Sys2Proof/Machine/Edges.lean ====
section
/-! DEFINITION. From crossings to accepted edges: front ends, time filters, blanking, and the edges that the first-edge
catcher kept (R20 to R27, R410). -/

namespace Sys2Proof.Machine

/-- The record of an input of a domain. -/
def Domain.input (x : Domain) (phase : Bool) : InputRec := if phase then x.pha else x.pri

def State.modInput (s : State) (d : Nat) (phase : Bool) (f : InputRec → InputRec) : State :=
  s.modDom d fun x => if phase then { x with pha := f x.pha } else { x with pri := f x.pri }

/-- The front end that an input of a domain uses; none for a phase input that is not used. -/
def State.inputWin (s : State) (d : Nat) (phase : Bool) : Option Nat :=
  if phase then (if s.flag .AD_INPUTS_PH_EN d then some (s.fld .AD_INPUTS_PH_WIN d) else none)
  else some (s.fld .AD_INPUTS_PRI_WIN d)

/-- The filter time of an input, ns (R25). -/
def State.filtNs (s : State) (d : Nat) (phase : Bool) : Nat :=
  s.fld (if phase then .AD_EDGEF_PH_FILT else .AD_EDGEF_PRI_FILT) d

/-- A front end in VR mode. -/
def State.vrMode (s : State) (w : Nat) : Bool := s.fld .WFE_CFG_MODE w == 0

/-- The input of a domain takes crossings of this direction; in VR mode, every one (R23, R50). -/
def State.takesDir (s : State) (d : Nat) (phase : Bool) (w : Nat) (rising : Bool) : Bool :=
  s.vrMode w ||
    (match s.fld (if phase then .AD_INPUTS_PH_EDGE else .AD_INPUTS_PRI_EDGE) d with
      | 0 => !rising
      | 1 => rising
      | _ => true)

/-- The input returns at a stamp: crossings whose filter time has not passed are discarded and counted (R25). -/
def State.filterReturn (s : State) (d : Nat) (phase : Bool) (stamp : Nat) (hits : Edge → Bool) : State :=
  let keep := fun (e : Edge) => !hits e || decide (e.stamp + 8 * s.filtNs d phase ≤ stamp)
  let fs := ((s.dom d).input phase).filt
  (s.bumpBy .AD_CNT_FILT d (fs.filter fun e => !keep e).length).modInput d phase fun r =>
    { r with filt := fs.filter keep }

/-- Every input of every domain that uses front end `w`. -/
def State.usersOf (s : State) (w : Nat) : List (Nat × Bool) :=
  [(0, false), (0, true), (1, false), (1, true), (2, false), (2, true), (3, false), (3, true)].filter fun e =>
    s.inputWin e.1 e.2 == some w

/-- A reported crossing at one input: it ends the crossed side of an opposite transition, and enters the filter. -/
def State.crossAt (s : State) (w stamp : Nat) (rising : Bool) (e : Nat × Bool) : State :=
  let s := if s.vrMode w then s else s.filterReturn e.1 e.2 stamp fun x => x.rising != rising
  if s.takesDir e.1 e.2 w rising then
    s.modInput e.1 e.2 fun r => { r with filt := r.filt ++ [{ stamp, rising }] }
  else s

/-- WFE_CROSSING (R20, R22 to R24): in VR mode only the first negative-going crossing after an arming is reported. -/
def State.wfeCross (s : State) (w stamp : Nat) (rising : Bool) : State :=
  let dir := rising != s.flag .WFE_CFG_INVERT w
  if s.vrMode w && (dir || !s.flag .WFE_STAT_ARMED w) then s
  else
    let s := if s.vrMode w then s.putFlag .WFE_STAT_ARMED w false else s
    let s := (s.setFld .WFE_STAMP w stamp).bump .WFE_CROSS w
    (s.usersOf w).foldl (fun t e => t.crossAt w stamp dir e) s

/-- THR_FRAC in eighths; 0b110 and 0b111 act as 0b101 (R49). -/
def State.thrEighths (s : State) (w : Nat) : Nat := min 5 (s.fld .WFE_CFG_THR_FRAC w) + 1

/-- A half-wave of this peak, in steps of 10 mV, rises above the arming threshold: above THR_FLOOR and above the fraction
THR_FRAC of PEAK (R20, R21, R49). -/
def State.arms (s : State) (w peak : Nat) : Bool :=
  decide (s.fld .WFE_CFG_THR_FLOOR w < peak) && decide (s.thrEighths w * s.fld .WFE_STAT_PEAK w < 8 * peak)

/-- DETECTOR_ARM (R20, R21): a half-wave that rises above the arming threshold. Its peak is kept, and pending crossings of
the input return (R25). -/
def State.detectorArm (s : State) (w peak : Nat) : State :=
  if s.vrMode w && s.arms w peak then
    let s := { s with armAt := Tab.put s.armAt w (some s.tnow) }
    let s := (s.raise .WFE_STAT_ARMED w).setFld .WFE_STAT_PEAK w peak
    (s.usersOf w).foldl (fun t e => t.filterReturn e.1 e.2 (t.tnow * 8) fun _ => true) s
  else s

/-- PEAK_DECAY (R21): 1,000 ms without an arming. -/
def State.peakDecay (s : State) (w : Nat) : State :=
  if (Tab.get 0 s.armAt w) + 1000000000 ≤ s.tnow then s.setFld .WFE_STAT_PEAK w 0 else s

/-! ### Blanking (R26) -/

/-- The shortest interval of the phase map, AU. -/
def State.phShortest (s : State) (d : Nat) : Nat :=
  (upto (s.plen d)).foldl (fun m j => min m (s.phInterval d j)) (2 ^ 32)

/-- The predictor of the crank, wherever it runs (R46, R53). -/
def State.crankPred (s : State) (d : Nat) : Predictor :=
  if s.dstate d = stPhaseOnly then (s.dom d).crank else (s.dom d).est

/-- The blanking limit of an input as a fraction, 125 ps units: numerator and denominator; none while blanking is off. -/
def State.blankLimit (s : State) (d : Nat) (phase : Bool) : Option (Nat × Nat) :=
  let b := s.fld (if phase then .AD_BLANK_PH_BLANK else .AD_BLANK_PRI_BLANK) d
  if b = 0 then none
  else if s.flag .AD_SYNC_STAT_CRANK_LOCK d then
    let a := if phase then s.phShortest d else s.angleNext d (s.fld .AD_SYNC_STAT_POS d)
    some (b * (s.crankPred d).p * a, 256 * 256 * s.aRef d)
  else
    match ((s.dom d).input phase).ivs with
    | i :: j :: _ => some (b * min i j, 256)
    | _ => none

/-- A crossing past its filter is blanked, or becomes an accepted edge that waits for the decoder (R26, R27). -/
def State.acceptEdge (s : State) (d : Nat) (phase : Bool) (e : Edge) : State :=
  let r := (s.dom d).input phase
  let iv := r.last.map fun l => e.stamp - l.stamp
  let blanked := match iv, s.blankLimit d phase with
    | some t, some l => decide (t * l.2 < l.1)
    | _, _ => false
  if blanked then s.bump .AD_CNT_BLANK d
  else
    let e := { e with at' := s.tnow }
    s.modInput d phase fun r =>
      { r with last := some e, accepted := r.accepted ++ [e]
               ivs := match iv with | some t => (t :: r.ivs).take 2 | none => r.ivs }

/-- EDGE_ACCEPT: the filter time of the oldest crossing has passed (R25) (DESIGN CHOICE, log entry 4). -/
def State.edgeAccept (s : State) (d : Nat) (phase : Bool) : State :=
  match ((s.dom d).input phase).filt with
  | [] => s
  | e :: r =>
    if e.stamp / 8 + s.filtNs d phase ≤ s.tnow then
      (s.modInput d phase fun x => { x with filt := r }).acceptEdge d phase e
    else s

/-! ### Kept edges (R410) -/

/-- STALL_MS in force, ns (R50). -/
def State.stallNs (s : State) (d : Nat) : Nat := clampN 1 16000 (s.fld .AD_STALL_STALL_MS d) * 1000000

/-- An edge put in its place of time. -/
def edgeInsert (e : Edge × Nat × Bool) : List (Edge × Nat × Bool) → List (Edge × Nat × Bool)
  | [] => [e]
  | x :: r => if e.1.stamp < x.1.stamp then e :: x :: r else x :: edgeInsert e r

/-- As the device enters Seek, each domain takes the kept edges of its inputs in time order, except those older than its
STALL_MS (DEDUCED, log entry 33). -/
def State.takeKept (s : State) : State :=
  let all := s.power.caught.flatMap fun c =>
    (s.usersOf c.1).flatMap fun u =>
      (c.2.filter fun e => s.takesDir u.1 u.2 c.1 (e.rising != s.flag .WFE_CFG_INVERT c.1) && decide (s.tnow ≤ e.stamp / 8 + s.stallNs u.1)).map
        fun e => (e, u.1, u.2)
  let ord := all.foldl (fun l e => edgeInsert e l) []
  let s := { s with power := { s.power with caught := [] } }
  ord.foldl (fun t e => t.acceptEdge e.2.1 e.2.2 e.1) s

end Sys2Proof.Machine
end

