-- ==== Sys2Proof/Machine/Link.lean ====
section
/-! DEFINITION. Sending on the Berfer link (R374 to R378), and the loss of sync of a domain (R43, R44, R67). -/

namespace Sys2Proof.Machine

/-! ### Sending -/

def stSolo : Nat := 0
def stStart : Nat := 1
def stLead : Nat := 2
def stJoining : Nat := 3
def stMatching : Nat := 4
def stShadow : Nat := 5
def stIsolated : Nat := 6

/-- A single-module installation (R363). -/
def State.isSolo (s : State) : Bool := s.fld .PAIR_STAT_SLOT == 7

/-- The pair state of R365: SOLO by the slot address, whatever the field holds. -/
def State.pstate (s : State) : Nat := if s.isSolo then stSolo else s.fld .PAIR_STAT_STATE

/-- PAIR_EVT bit `b` set (R390). -/
def State.pairEvt (s : State) (b : Nat) : State := s.orFld .PAIR_EVT 0 (2 ^ b)

/-- The link is up (R374). -/
def State.linkUp (s : State) : Bool := s.flag .PAIR_STAT_LINK_UP

/-- The partner's pair state, as its heartbeats carry it. -/
def State.partner (s : State) : Nat := s.fld .PAIR_STAT_PARTNER_STATE

def State.modPair (s : State) (f : Pair → Pair) : State := { s with pair := f s.pair }

/-- A frame leaves the module. -/
def State.sendFrame (s : State) (f : Frame) : State := s.modPair fun p => { p with sent := p.sent ++ [f] }

/-- A reliable frame takes the next SEQ; it leaves at once unless 32 frames are unacknowledged (R376, R378). Nothing is
sent while the link is down. -/
def State.sendReliable (s : State) (mk : Nat → Frame) : State :=
  if s.linkUp then
    let f := mk s.pair.txSeq
    let s := if s.pair.unacked.length < 32 then s.sendFrame f else s
    s.modPair fun p =>
      { p with txSeq := (p.txSeq + 1) % 65536, unacked := p.unacked ++ [f]
               ackAt := if p.unacked.isEmpty then s.tnow else p.ackAt }
  else s

/-- A planned handover ends before the token moves: HO_FAIL, and an ABORT to the partner (R386). -/
def State.hoAbort (s : State) : State :=
  if s.pair.ho.isSome then
    ((s.modPair fun p => { p with ho := none }).pairEvt 3).sendReliable fun q => .token q 4
  else s

/-- A Lead whose partner is in MATCHING or SHADOW (R379), or in JOINING besides (R367). -/
def State.leads (s : State) : Bool := s.pstate == stLead && s.linkUp
def State.partnerFollows (s : State) : Bool :=
  s.leads && (s.partner == stJoining || s.partner == stMatching || s.partner == stShadow)

/-! ### Loss of sync -/

/-- The fault bit of a loss cause (R43). -/
def lossBit : Nat → Option Fld
  | 1 => some .AD_FAULT_UNEXP_GAP
  | 2 => some .AD_FAULT_MISSING_GAP
  | 3 => some .AD_FAULT_STALL
  | 4 => some .AD_FAULT_PHASE_FLIP
  | 6 => some .AD_FAULT_PH_LOST
  | _ => none

/-- The learner drops its run (R71, R72). -/
def State.learnDrop (s : State) (d : Nat) : State :=
  let s := (s.setFld .AD_TCL_STAT_REVS_DONE d 0).setFld .AD_TCL_STAT_WRITING d 0
  s.modDom d fun x => { x with learn := { x.learn with sums := [], avg := [], clean := false } }

/-! ### The phase tracker (R45, R48) -/

/-- The wellspring's time at a stamp: TNOW and the wellspring run together since the fast clocks were released. -/
def State.wsAt (s : State) (stamp : Nat) : Nat := stamp / 8 + s.wsNs - s.tnow

/-- A period under R48, and whether it is coarse: longer than 2^32 units, or begun at an edge that the first-edge catcher
held. A coarse period is counted in wellspring ticks. -/
def State.periodOf (s : State) (e prev : Edge) : Nat × Bool :=
  let t := e.stamp - prev.stamp
  if 2 ^ 32 < t ∨ prev.caught then ((s.wsAt e.stamp / 1000 - s.wsAt prev.stamp / 1000) * 8000, true) else (t, false)

/-- The ratio `t / tp` matches alignment `j` of the phase map, whose newest edge is entry `j` (R45). -/
def State.ratioMatches (s : State) (d j t tp : Nat) : Bool :=
  let dn := s.phInterval d j
  let dp := s.phInterval d (if j = 0 then s.plen d - 1 else j - 1)
  let a := t * dp
  let b := tp * dn
  decide ((if a < b then b - a else a - b) * 256 ≤ s.fld .AD_MAPCFG_PH_RATIO_TOL d * b)

/-- A phase interval taken into the tracker, and whether it lost its lock (R45). -/
def State.track (s : State) (d t : Nat) : State × Bool :=
  let x := s.dom d
  match x.phIv with
  | none => (s.modDom d fun x => { x with phIv := some t }, false)
  | some tp =>
    let ms := (upto (s.plen d)).filter fun j => s.ratioMatches d j t tp
    let al : Tab Nat := ms.map fun j => (j, Tab.get 0 x.align (if j = 0 then s.plen d - 1 else j - 1) + 1)
    let s := s.modDom d fun x => { x with phIv := some t, align := al }
    match x.phEntry with
    | some p =>
      let j := s.phNext d p
      if ms.contains j then
        ((s.modDom d fun x => { x with phEntry := some j }).setFld .AD_SYNC_STAT_PH_POS d j, false)
      else ((s.modDom d fun x => { x with phEntry := none }).putFlag .AD_SYNC_STAT_PH_LOCK d false, true)
    | none =>
      match al.filter fun e => decide (max 2 (s.fld .AD_SYNC_CFG_PH_CONFIRM d) ≤ e.2) with
      | [e] => (((s.modDom d fun x => { x with phEntry := some e.1 }).setFld .AD_SYNC_STAT_PH_POS d e.1).raise
          .AD_SYNC_STAT_PH_LOCK d, false)
      | _ => (s, false)

/-- An accepted phase edge taken into the tracker. -/
def State.trackEdge (s : State) (d : Nat) (e : Edge) : State × Bool :=
  match (s.dom d).pha.done with
  | some p => s.track d (s.periodOf e p).1
  | none => (s, false)

/-- PH_LOCK after every accepted edge that waits has been processed (R44). -/
def State.lockAfter (s : State) (d : Nat) : Bool :=
  match (s.dom d).pha.accepted with
  | e :: _ => (s.trackEdge d e).1.flag .AD_SYNC_STAT_PH_LOCK d
  | [] => s.flag .AD_SYNC_STAT_PH_LOCK d

/-! ### Losses -/

/-- The state after a loss (R44). -/
def State.lossTarget (s : State) (d cause : Nat) : Nat :=
  if cause = 3 ∨ cause = 5 ∨ cause = 7 then stNosync
  else if s.lockAfter d && s.flag .AD_CFG_PHASE_ONLY_EN d then stPhaseOnly
  else stSeeking

/-- The first phase entry ahead of an angle, and the distance to it. -/
def State.phAhead (s : State) (d a : Nat) : Nat × Nat :=
  (upto (s.plen d)).foldl (fun b j =>
    let f := if fwd a (s.phAngle d j) = 0 then 2 ^ 32 else fwd a (s.phAngle d j)
    if f < b.2 then (j, f) else b) (0, 2 ^ 32)

/-- Entry to PHASE-ONLY: the angle goes on without a step, and the history holds the prediction at the phase reference
pitch (R67). -/
def State.enterPhaseOnly (s : State) (d : Nat) : State :=
  let x := s.dom d
  let c := s.acc d
  let p := normalise x.est.p (s.phARef d) (s.aRef d)
  let a := s.phAhead d (c / 65536)
  let s := s.newSeg d
    { valid := true, base := c, t0 := s.tnow, rate := x.seg.rate, clampAt := some ((c / 65536 + a.2) * 65536) } false
  s.modDom d fun x =>
    { x with fresh := true, crank := {}
             est := { hist := List.replicate (min 3 (s.depth d)) p, p, rate := x.seg.rate, accel := x.est.accel } }

/-- What a loss of sync of domain `d` records and changes, outside the mode (R43, R44, R161, R217). `act` is the number
of channels active in the trigger cycle. -/
def State.loss (s : State) (d cause act : Nat) : State :=
  let goal := s.lossTarget d cause
  let s := s.svcHalves d
  let s := (s.setFld .AD_SYNC_STAT_LOSS_CAUSE d cause).bump .AD_CNT_LOSS d
  let s := match lossBit cause with | some f => s.raise f d | none => s
  let s := s.log 1 d cause
    (s.fld .AD_LAST_RATIO d * 65536 + s.fld .AD_SYNC_STAT_REV d * 1024 + s.fld .AD_SYNC_STAT_POS d)
  let s := (s.setFld .AD_SYNC_STAT_STATE d goal).putFlag .AD_SYNC_STAT_CRANK_LOCK d false
  let s := s.modDom d fun x =>
    { x with hyps := [], needSeed := cause == 6, cur := {}, opp := {}, flips := 0, whole := false
             lostAt := some s.tnow }
  let s := if s.critical d then (upto 4).foldl (fun t e => t.modDom e fun x => { x with runRevs := 0 }) s else s
  let s := if s.fld .MODE_CFG_EPOCH_DOM = d then s.modPair fun p => { p with cycOpen := false } else s
  let s := if goal = stPhaseOnly then s.enterPhaseOnly d else s.dropAngle d
  ((s.learnDrop d).basLoss d).spill 1 d act

/-- A domain in SEEKING returns to NOSYNC (R43). -/
def State.seekReturn (s : State) (d : Nat) : State :=
  let s := (s.setFld .AD_SYNC_STAT_STATE d stNosync).putFlag .AD_SYNC_STAT_CRANK_LOCK d false
  s.modDom d fun x => { x with hyps := [], needSeed := false, est := {}, seg := {} }

end Sys2Proof.Machine
end

