-- ==== Sys2Proof/Machine/Modes.lean ====
section
/-! DEFINITION. Operating modes, their epochs, and their application by the sequencers (R173 to R196). -/

namespace Sys2Proof.Machine

/-! ### Application by the sequencers (R184, R185) -/

/-- Sequencer `n` has yet to apply the transition in progress. -/
def State.owes (s : State) (n : Nat) : Bool := s.change.isSome && !bitN (s.fld .MODE_APPLIED) n

/-- The rows of R184 that apply without a boundary, a SAFEPT or a wait. -/
def State.appliesNow (s : State) (n : Nat) : Bool :=
  match (s.seq n).state with
  | .idle | .faulted => true
  | .halted | .wait => !s.angleValid (s.seqDomain n)
  | _ => false

/-- Data-memory word 1,023 of a sequencer, as another source writes it (R87, R185). -/
def State.modeWord (s : State) (n : Nat) : State :=
  (s.noteData (dmemAddr n 1023) 15).setWord (dmemAddr n 1023) (s.fld .SEQ_MODE_STAT_APPLIED n + 256 * s.fld .SEQ_MODE_STAT_APPLY_CNT n)

/-- Both bits of R186 read 0: the change is over, and the mode source asserts. -/
def State.changeDone (s : State) : State :=
  if s.change.isSome && !s.changing then
    { (s.setFld .MODE_STAT_TARGET 0 s.mode).raise .ICU_PLAT_EVT_MODE_DONE with change := none }
  else s

/-- A sequencer applies a mode (R185), and its channels' drivers follow (R166). The mode logic's write of word 1,023 is
one of another source (R87). -/
def State.applyCode (s : State) (n target : Nat) : State :=
  let s := s.setFld .SEQ_MODE_STAT_APPLIED n target
  let s := s.setFld .SEQ_MODE_STAT_APPLY_CNT n (s.fld .SEQ_MODE_STAT_APPLY_CNT n + 1)
  let s := s.orFld .MODE_APPLIED 0 (2 ^ n)
  let s := match (s.seq n).wait with
    | .epoch rd => s.completeWaite n rd target (s.cyc + 1) none 0
    | _ => s
  let s := (s.modeWord n).redrive
  if s.fld .MODE_APPLIED = 2 ^ 24 - 1 then s.putFlag .MODE_STAT_TRANSITION 0 false else s

/-- A sequencer applies the transition in progress, if it has not (R185). -/
def State.modeApply (s : State) (n : Nat) : State :=
  match s.change with
  | some c => if bitN (s.fld .MODE_APPLIED) n then s else (s.applyCode n c.target).changeDone
  | none => s

/-- Sequencer `n` applies if its row of R184 says so now. -/
def State.modeSettle (s : State) (n : Nat) : State := if s.appliesNow n then s.modeApply n else s

/-- Every sequencer of domain `d`, whose angle may have stopped being valid, by its row of R184 and by R140. -/
def State.modeSettleDom (s : State) (d : Nat) : State :=
  if s.angleValid d then s else
    (upto 24).foldl (fun t n => if t.seqDomain n = d then (t.modeSettle n).swapSettle n else t) s

/-- A cycle boundary of domain `d` (R184). -/
def State.modeBoundary (s : State) (d : Nat) : State :=
  (upto 24).foldl (fun t n =>
    if t.seqDomain n = d ∧ (t.seq n).state ≠ .idle ∧ (t.seq n).state ≠ .faulted then t.modeApply n else t) s

/-! ### The device layer (R181 to R183, R192) -/

/-- The spillway path by which a cause brings the device into Clearing (R161). -/
def clearPath : Nat → Nat
  | 6 => 4
  | 7 => 5
  | 8 => 7
  | 10 => 6
  | _ => 2

/-- A transition is accepted (R181, R182, R184): an immediate epoch is reached by the caller (DEDUCED, log entry 51). -/
def State.accept (s : State) (c : Change) : State :=
  let s := if s.changing then s.raise .MODE_FAULT_SUPERSEDED else s
  let s := s.bump .MODE_CNT_TRANS
  let s := s.setFld .MODE_STAT_TARGET 0 c.target
  let s := (s.raise .MODE_STAT_TRANSITION).raise .MODE_STAT_EPOCH_PENDING
  let s := { s.setFld .MODE_APPLIED 0 0 with change := some c }
  let s := ((upto 24).foldl State.modeSettle s).hoAbort
  if s.leads then
    let e := c.epoch.getD (0, 0, 0)
    s.sendReliable fun q => .mode q c.target c.cause e.1 (b2n c.epoch.isNone) e.2.1
  else s

/-- A change with the epoch domain of R187. -/
def State.mkChange (s : State) (target cause : Nat) (epoch : Option (Nat × Nat)) : Change :=
  { target, cause, at' := s.tnow, epoch := epoch.map fun e => (e.1, e.2, s.angle e.1)
    tmoDom := (epoch.map (·.1)).getD (s.fld .MODE_CFG_EPOCH_DOM) }

/-- Holds of paths 2 and 4 to 7 released (R192). -/
def State.releaseHold2 (s : State) : State := { s with hold2 := false }

/-- The domain holds of every critical domain released (R192). -/
def State.releaseCritical (s : State) : State :=
  (upto 4).foldl (fun t d => if t.critical d then t.clearBits .SPILL_STAT_DOMAIN_HOLD 0 (2 ^ d) else t) s

/-- Every domain goes to NOSYNC as the device enters Standby (R43, R177). -/
def State.standbyDomains (s : State) (act : Nat) : State :=
  (upto 4).foldl (fun t d =>
    if t.dstate d = stSync ∨ t.dstate d = stPhaseOnly then (t.loss d 7 act).modeSettleDom d
    else if t.dstate d = stSeeking then t.seekReturn d else t) s

/-- Entry to Clearing: the spillway path if one is still due, the trips of R258, and the counts of R190. -/
def State.enterClearing (s : State) (cause act : Nat) (path : Bool) : State :=
  let s := s.setFld .MODE_STAT_CLEAR_CAUSE 0 cause
  let s := if path then s.spill 2 0 act else s
  let s := (upto 4).foldl (fun t d => t.modDom d fun x => { x with limpEdges := 0 }) s
  s.pwmClearing

/-- The epoch is reached (R183, R192): the gate switches, and the drivers follow (R166). `act` is the number of channels
active at its start. A hold of paths 2 and 4 to 7 that stood through Standby ends with path 3's, since none exists at the
entry to Run (DEDUCED, log entry 29). -/
def State.reachEpoch (s : State) (act : Nat) : State :=
  match s.change with
  | none => s
  | some c =>
    let old := s.mode
    let s := { s.setFld .MODE_STAT_MODE 0 c.target with change := some { c with epoch := none } }
    let s := s.putFlag .MODE_STAT_EPOCH_PENDING 0 false
    let s :=
      if c.target = modeClearing then (if old = modeClearing then s else s.enterClearing c.cause act (clearPath c.cause == 2))
      else if c.target = modeStandby then (s.spill 3 0 act).standbyDomains act
      else if c.target = modeLimp then
        let s := (upto 4).foldl (fun t d => t.modDom d fun x => { x with runRevs := 0 }) s
        if old = modeClearing then s.releaseHold2.releaseCritical else s
      else if c.target = modeSeek then
        (if old = modeClearing then s.releaseHold2 else { s with hold3 := false, hold2 := false }).takeKept
      else s
    s.redrive.changeDone

/-! ### Clearing (R175, R178, R188) -/

/-- A cause of R178 requests Clearing. Causes with a path of their own come with that path already taken.
(DEDUCED, log entry 12). -/
def State.requestClearing (s : State) (cause act : Nat) : State :=
  let m := s.mode
  if m = modeSeek ∨ m = modeRun ∨ m = modeLimp then
    (s.accept (s.mkChange modeClearing cause none)).reachEpoch act
  else if m = modeClearing ∧ cause = 5 ∧ s.changing ∧ (s.change.map (·.target)) ≠ some modeClearing then
    (s.accept (s.mkChange modeClearing (s.fld .MODE_STAT_CLEAR_CAUSE) none)).reachEpoch act
  else s.log 4 0 cause
    (s.fld .MODE_STAT_CLEAR_CAUSE * 65536 + s.fld .MODE_STAT_TARGET * 256 + s.fld .MODE_STAT_EPOCH_PENDING * 32
      + s.fld .MODE_STAT_TRANSITION * 16 + m)

/-- Spillway paths 4 to 7: the path, and the entry to Clearing by it (R161, R178). -/
def State.spillInto (s : State) (path cause : Nat) : State :=
  let act := s.activeCount
  (s.spill path 0 act).requestClearing cause act

/-- A pending angle epoch whose domain's angle is not valid is lost (R188): noted, and the transition discarded, unless
the device is in Clearing, where the next request supersedes it. None where no epoch is lost. -/
def State.epochLostNote (s : State) : Option State :=
  match s.change with
  | some c =>
    match c.epoch with
    | some e =>
      if s.angleValid e.1 then none else
        let s := (s.raise .MODE_FAULT_EPOCH_LOST).log 7 e.1 c.target e.2.1
        if s.mode = modeClearing then some s else
          let s := (s.putFlag .MODE_STAT_TRANSITION 0 false).putFlag .MODE_STAT_EPOCH_PENDING 0 false
          some { s with change := none }
    | none => none
  | none => none

/-- A lost epoch, and the Clearing that it requests (R188). -/
def State.epochLost (s : State) : State :=
  match s.epochLostNote with
  | some t => t.requestClearing 5 t.activeCount
  | none => s

/-- A sync loss of domain `d` with everything that follows it: path 1, Clearing for a critical domain in Run or Limp,
and a lost epoch (R43, R175, R188). The loss gives the cause of Clearing where both arise (DEDUCED, log entry 12). -/
def State.syncLoss (s : State) (d cause : Nat) : State :=
  let act := s.activeCount
  let crit := s.critical d && (s.mode == modeRun || s.mode == modeLimp)
  let s := (s.loss d cause act).modeSettleDom d
  if crit then
    match s.epochLostNote with
    | some t => (t.requestClearing 1 act).requestClearing 5 act
    | none => s.requestClearing 1 act
  else s.epochLost

/-! ### Host requests (R177, R179, R193) -/

/-- A host request refused (R179). -/
def State.refuseMode (s : State) (src target value : Nat) : State :=
  (s.raise .MODE_FAULT_REFUSED).log 5 src target value

/-- The module follows a Lead, so it takes no host request but Clearing and Standby (R193). -/
def State.followsMode (s : State) : Bool :=
  s.pstate == stJoining || s.pstate == stMatching || s.pstate == stShadow || s.pstate == stIsolated

/-- Every critical domain is in SYNC. -/
def State.allSync (s : State) : Bool := s.allCritical fun d => s.dstate d == stSync

/-- PWR_WAKE_CFG enables a wake source (R407). -/
def State.wakeEnabled (s : State) : Bool :=
  s.flag .PWR_WAKE_CFG_TIMER_EN || s.flag .PWR_WAKE_CFG_PIN_EN || s.fld .PWR_WAKE_CFG_WIN_MASK != 0

/-- A supply switches off with its discharge (R396, R407). -/
def State.supOff (s : State) (n : Nat) : State :=
  ((s.clearBits .PWR_STAT_SUP_ON 0 (2 ^ n)).clearBits .PWR_STAT_SUP_LIMIT 0 (2 ^ n)).clearBits .PWR_STAT_SUP_OFF 0 (2 ^ n)

/-- A Dormant request accepted (R405 to R407): copies made, pins and supplies off; the mode follows when the entry is
complete. -/
def State.acceptDormant (s : State) : State :=
  let s := s.accept (s.mkChange modeDormant 0 none)
  let s := { s with
    auxOff := true
    gio := []
    power := { s.power with
      entering := some s.wsNs, wake := none, during := false
      copyTimerEn := s.fld .PWR_WAKE_CFG_TIMER_EN, copyPinEn := s.fld .PWR_WAKE_CFG_PIN_EN
      copyThr := s.fld .PWR_WAKE_CFG_THR, copyMask := s.fld .PWR_WAKE_CFG_WIN_MASK
      copyTimer := s.fld .PWR_WAKE_TIMER_SECONDS, copyDormantOn := s.fld .PWR_SUP_CFG_DORMANT_ON
      keepTnow := s.tnow, keepAt := s.wsNs } }
  (upto 4).foldl (fun t n => if bitN t.power.copyDormantOn n then t else t.supOff n) s

/-- A host request with the value written to MODE_REQ (R177, R179, R181, R182, R407) (DEDUCED, log entry 51). -/
def State.hostMode (s : State) (src value : Nat) : State :=
  let target := bitsN value 2 0
  let m := s.mode
  let refuse := s.refuseMode src target value
  if s.followsMode && target != modeClearing && target != modeStandby then refuse
  else if target = m ∧ s.changing = false then s
  else if target = modeClearing then
    if m = modeSeek ∨ m = modeRun ∨ m = modeLimp then s.requestClearing 2 s.activeCount else refuse
  else if target = modeStandby then
    if m = modeDormant ∨ m = modeStandby then refuse
    else (s.accept (s.mkChange modeStandby 0 none)).reachEpoch s.activeCount
  else if s.changing then refuse
  else if target = modeDormant then
    if m = modeStandby ∧ s.wakeEnabled then s.acceptDormant else refuse
  else if target = modeSeek then
    if m = modeStandby ∨ (m = modeClearing ∧ s.flag .DBG_STAT_HALTED = false)
    then (s.accept (s.mkChange modeSeek 0 none)).reachEpoch s.activeCount else refuse
  else if target = modeRun then
    let d := bitsN value 9 8
    if (m ≠ modeSeek ∧ m ≠ modeLimp) ∨ s.allSync = false then refuse
    else if bitN value 12 then (s.accept (s.mkChange modeRun 0 none)).reachEpoch s.activeCount
    else if s.angleValid d then s.accept (s.mkChange modeRun 0 (some (d, s.fld .MODE_EPOCH_ANGLE)))
    else (s.raise .MODE_FAULT_EPOCH_INVALID).refuseMode src target value
  else refuse

/-! ### Automatic transitions, epochs and the timeout (R182, R187, R190, R191) -/

/-- An automatic transition may be triggered (R180, R182). In a Follow the Lead's transitions rule (R193). -/
def State.autoReady (s : State) : Bool :=
  !s.changing && s.angleValid (s.fld .MODE_CFG_EPOCH_DOM) && !s.followsMode

/-- An automatic transition with its epoch at the next boundary of the epoch domain (R182). -/
def State.autoTo (s : State) (target : Nat) : State :=
  s.accept (s.mkChange target 0 (some (s.fld .MODE_CFG_EPOCH_DOM, 0)))

/-- AUTO_RUN: Seek to Run (R177). -/
def State.autoRun (s : State) : State :=
  if s.mode == modeSeek && s.flag .MODE_CFG_AUTO_RUN && s.allSync && s.autoReady then s.autoTo modeRun else s

/-- What a critical domain needs for Limp (R190). -/
def State.limpReady (s : State) (d : Nat) : Bool :=
  if s.flag .AD_INPUTS_PH_EN d then
    (s.dstate d == stSync || s.dstate d == stPhaseOnly) && s.flag .AD_SYNC_STAT_PH_LOCK d
      && decide (max 1 (s.fld .MODE_CFG_LIMP_TEETH) ≤ (s.dom d).limpEdges)
  else s.dstate d == stSync

/-- AUTO_LIMP: Clearing to Limp (R190). -/
def State.autoLimp (s : State) : State :=
  if s.mode == modeClearing && s.fld .MODE_STAT_CLEAR_CAUSE == 1 && s.flag .MODE_CFG_LIMP_EN && s.allCritical s.limpReady
      && s.autoReady then s.autoTo modeLimp else s

/-- AUTO_LIMP_TO_RUN (R191). -/
def State.autoLimpRun (s : State) : State :=
  if s.mode == modeLimp && s.autoReady && s.allCritical (fun d =>
      s.dstate d == stSync && decide (max 1 (s.fld .MODE_CFG_RUN_REVS) ≤ (s.dom d).runRevs)) then s.autoTo modeRun else s

/-- MODE_EPOCH: the pending angle epoch is reached by the present word (R182, R183) (DEDUCED, log entry 51). -/
def State.modeEpoch (s : State) : State :=
  match s.change with
  | some c =>
    match c.epoch with
    | some e => if s.angleValid e.1 && reachedBy e.2.1 e.2.2 (s.angle e.1) then s.reachEpoch s.activeCount else s
    | none => s
  | none => s

/-- The timeout of the change has expired (R187). -/
def State.timeoutDue (s : State) (c : Change) : Bool :=
  !c.timedOut && s.flag .MODE_STAT_TRANSITION &&
    (decide (max 1 (s.fld .MODE_CFG_TIMEOUT_CYC) ≤ c.bounds) ||
     decide (c.at' + clampN 1 16000 (s.fld .MODE_TMO_TIMEOUT_MS) * 1000000 ≤ s.tnow))

/-- MODE_TIMEOUT (R187). -/
def State.modeTimeout (s : State) : State :=
  match s.change with
  | some c =>
    if s.timeoutDue c then
      let missing := 2 ^ 24 - 1 - s.fld .MODE_APPLIED
      let s := { s with change := some { c with timedOut := true } }
      let s := ((s.setFld .MODE_LAG 0 missing).raise .MODE_FAULT_TIMEOUT).log 6 0 c.target missing
      if c.target = modeClearing then
        (upto 24).foldl (fun t n => if bitN missing n then t.modeApply n else t) s
      else s.requestClearing 5 s.activeCount
    else s
  | none => s

/-- A cycle boundary of domain `d` counts towards the timeout (R187). -/
def State.modeCount (s : State) (d : Nat) : State :=
  match s.change with
  | some c => if c.tmoDom = d then { s with change := some { c with bounds := c.bounds + 1 } } else s
  | none => s

end Sys2Proof.Machine
end

