-- ==== Sys2Proof/Machine/Digest.lean ====
section
/-! DEFINITION. Digests of a pair, and their comparison (R379, R380, R194). -/

namespace Sys2Proof.Machine

/-- One byte taken into the CRC-32 of IEEE 802.3. -/
def crc32Byte (c b : Nat) : Nat :=
  (upto 8).foldl (fun c _ => if c % 2 = 1 then c / 2 ^^^ 0xEDB88320 else c / 2) (c ^^^ b)

/-- The CRC-32 of IEEE 802.3 over a list of bytes. -/
def crc32 (bs : List Nat) : Nat := bs.foldl crc32Byte 0xFFFFFFFF ^^^ 0xFFFFFFFF

/-- The `n` bytes of a number, most significant first (R375). -/
def bytesBE (n v : Nat) : List Nat := ((upto n).map fun k => v / 256 ^ k % 256).reverse

/-- The armed slots of the sequencers bound to domain `d`, in ascending order. -/
def State.domainSlots (s : State) (d : Nat) : List (Nat × Nat) :=
  ((upto 24).filter fun n => s.seqDomain n == d).flatMap fun n =>
    ((upto 64).filter fun k => (s.slot n k).armed).map fun k => (n, k)

/-- The six bytes that a slot contributes (R379). -/
def State.slotBytes (s : State) (n k : Nat) : List Nat :=
  let x := s.slot n k
  let t := x.target / 2 ^ s.fld .PAIR_CFG_DIG_SHIFT
  [n, k, x.kind.ctorIdx, x.arg % 256, t / 256 % 256, t % 256]

/-- The digest of a domain (R379). -/
def State.digestBytes (s : State) (d : Nat) : List Nat :=
  let st := s.dstate d
  let pos := if st = stPhaseOnly then s.fld .AD_SYNC_STAT_PH_POS d else s.fld .AD_SYNC_STAT_POS d
  let applied := (upto 24).foldl (fun a n => a + s.fld .SEQ_MODE_STAT_APPLIED n * 8 ^ n) 0
  let levels := (upto 96).foldl (fun a c =>
    if s.level c && (s.owner c).any (fun n => s.seqDomain n == d) then a + 2 ^ c else a) 0
  let slots := s.domainSlots d
  [d + 4 * st + 16 * (if st = stPhaseOnly then 0 else s.fld .AD_SYNC_STAT_REV d)] ++ bytesBE 2 pos ++
    bytesBE 2 (s.fld .AD_CYC d % 65536) ++ bytesBE 9 applied ++ bytesBE 12 levels ++
    bytesBE 4 (crc32 (slots.flatMap fun e => s.slotBytes e.1 e.2)) ++ bytesBE 2 slots.length

/-- The domain of a digest. -/
def digDomain (b : List Nat) : Nat := b.getD 0 0 % 4

/-- Two digests are counterparts: domain, CYC[15:0], REV and POS (R380). -/
def digPairs (a b : List Nat) : Bool :=
  digDomain a == digDomain b && bitN (a.getD 0 0) 4 == bitN (b.getD 0 0) 4 && (a.drop 1).take 4 == (b.drop 1).take 4

/-- A Follow that loses its match goes back to MATCHING, and its clean cycles start again (R380, R389). -/
def State.unmatch (s : State) : State :=
  let s := s.modPair fun p => { p with cleanCyc := 0, cycOpen := false }
  if s.pstate = stShadow then s.setFld .PAIR_STAT_STATE 0 stMatching else s

/-- PAIR_DIG records a digest that differs from its counterpart, or that has none. -/
def State.recordDig (s : State) (a b : List Nat) (missing : Bool) : State :=
  let s := s.setFld .PAIR_DIG_CYC 0 (a.getD 3 0 * 256 + a.getD 4 0)
  let s := s.setFld .PAIR_DIG_POS 0 (a.getD 1 0 * 256 + a.getD 2 0)
  let s := s.putFlag .PAIR_DIG_MISSING 0 missing
  let s := s.putFlag .PAIR_DIG_SLOTS 0 (!missing && a.drop 26 != b.drop 26)
  let s := s.putFlag .PAIR_DIG_LEVELS 0 (!missing && (a.drop 14).take 12 != (b.drop 14).take 12)
  let s := s.putFlag .PAIR_DIG_POSITION 0 (!missing && a.take 1 != b.take 1)
  (s.setFld .PAIR_DIG_DOMAIN 0 (digDomain a)).pairEvt 5

/-- A pair of digests compared (R380, R194). -/
def State.compareDig (s : State) (own rx : List Nat) : State :=
  if (own.drop 5).take 9 ≠ (rx.drop 5).take 9 then s.bump .PAIR_CNT_DIG_SUSP
  else if own = rx then s.bump .PAIR_CNT_DIG_MATCH
  else ((s.bump .PAIR_CNT_DIG_MISMATCH).recordDig own rx false).unmatch

/-- A digest without a counterpart (R380). -/
def State.missDig (s : State) (a : List Nat) : State :=
  ((s.bump .PAIR_CNT_DIG_MISSING).recordDig a [] true).unmatch

/-- A list of held digests with the first counterpart of `b` taken out. -/
def takeDig (b : List Nat) : List (Nat × List Nat) → Option (List Nat × List (Nat × List Nat))
  | [] => none
  | e :: r => if digPairs e.2 b then some (e.2, r) else (takeDig b r).map fun x => (x.1, e :: x.2)

/-- The digests of domain `d` that have waited for 16 tooth events count as missing (DEDUCED, log entry 53). -/
def State.expireDig (s : State) (d : Nat) : State :=
  let now := (s.dom d).digests
  let old := fun (e : Nat × List Nat) => decide (e.1 + 16 ≤ now)
  let own := Tab.get [] s.pair.ownDig d
  let rx := Tab.get [] s.pair.rxDig d
  let s := s.modPair fun p =>
    { p with ownDig := Tab.set [] p.ownDig d (own.filter fun e => !old e)
             rxDig := Tab.set [] p.rxDig d (rx.filter fun e => !old e) }
  ((own ++ rx).filter old).foldl (fun t e => t.missDig e.2) s

/-- The module forms and compares digests (R379). -/
def State.digesting (s : State) : Bool :=
  (s.leads && (s.partner == stMatching || s.partner == stShadow)) || s.pstate == stMatching || s.pstate == stShadow

/-- DIGEST_FORM at a tooth event of domain `d` (R379, R380); digests that wait go on ageing when no more are formed.
(DEDUCED, log entry 53). -/
def State.formDigest (s : State) (d : Nat) : State :=
  if s.digesting then
    let b := s.digestBytes d
    let s := s.modDom d fun x => { x with digests := x.digests + 1 }
    let s := if s.linkUp then s.sendFrame (.digest b) else s
    let s := match takeDig b (Tab.get [] s.pair.rxDig d) with
      | some r => (s.modPair fun p => { p with rxDig := Tab.set [] p.rxDig d r.2 }).compareDig b r.1
      | none => s.modPair fun p =>
          { p with ownDig := Tab.set [] p.ownDig d (Tab.get [] p.ownDig d ++ [((s.dom d).digests, b)]) }
    s.expireDig d
  else if (Tab.get [] s.pair.ownDig d).isEmpty && (Tab.get [] s.pair.rxDig d).isEmpty then s
  else (s.modDom d fun x => { x with digests := x.digests + 1 }).expireDig d

/-- A received digest (R380) (DEDUCED, log entry 53). -/
def State.receiveDigest (s : State) (b : List Nat) : State :=
  if s.digesting then
    let d := digDomain b
    match takeDig b (Tab.get [] s.pair.ownDig d) with
    | some r => (s.modPair fun p => { p with ownDig := Tab.set [] p.ownDig d r.2 }).compareDig r.1 b
    | none =>
      let held := Tab.get [] s.pair.rxDig d
      let s := match held with
        | e :: _ => if 16 ≤ held.length then s.missDig e.2 else s
        | [] => s
      s.modPair fun p =>
        { p with rxDig := Tab.set [] p.rxDig d ((if 16 ≤ held.length then held.drop 1 else held) ++ [((s.dom d).digests, b)]) }
  else s

end Sys2Proof.Machine
end

