-- ==== Sys2Proof/Machine/Tasks.lean ====
section
/-! DEFINITION. Sequencer life: tooth events and overruns, waits entered, faults, halts, resets and starts (R82, R105 to
R107, R125 to R137). -/

namespace Sys2Proof.Machine

/-- A task fault: its bit and its counter (R130, R133, R138, R142). -/
def State.taskFault (s : State) (n : Nat) (f : Fld) (cnt : Option Fld) : State :=
  let s := s.raise f n
  match cnt with
  | some c => s.bump c n
  | none => s

/-- A tooth event that arrives while a task runs, or that replaces a pending one (R130, R132) (DEDUCED, log entry 16). -/
def State.toothHeld (s : State) (n word : Nat) : State :=
  let put := fun (s : State) => s.modSeq n fun q => { q with tooth := word }
  if s.flag .SEQ_TASK_STAT_TOOTH_PENDING n then
    put ((s.bump .SEQ_TASK_STAT_COALESCE n).bump .SEQ_CNT_COALESCED n)
  else
    let task := s.flag .SEQ_TASK_STAT_IN_TASK n
    let s := put ((s.raise .SEQ_TASK_STAT_TOOTH_PENDING n).setFld .SEQ_TASK_STAT_COALESCE n 0)
    if task then
      let s := s.taskFault n .SEQ_TASK_FLT_OVERRUN (some .SEQ_CNT_OVERRUN)
      if s.flag .SEQ_TASK_CFG_OVERRUN_CLEAR n then s.requestClearing 4 s.activeCount else s
    else s

/-- A tooth event at sequencer `n` (R125, R128, R130, R132, R137): a stopped one discards it; a WAITE TOOTH in progress
begins its task; any other holds it (DEDUCED, log entry 16). -/
def State.toothAt (s : State) (word n : Nat) : State :=
  let q := s.seq n
  if q.stopped then s
  else match q.wait with
    | .tooth _ =>
      if q.woken then s.toothHeld n word
      else (s.beginTask n s.cyc).modSeq n fun q => { q with woken := true, tooth := word }
    | _ => s.toothHeld n word

/-- A tooth event of domain `d` with its word of R125. -/
def State.toothEvent (s : State) (d word : Nat) : State :=
  let w := word + (if (s.dom d).fresh then 2 ^ 12 else 0)
  let s := s.modDom d fun x => { x with fresh := false }
  (upto 24).foldl (fun t n => if t.seqDomain n = d then t.toothAt w n else t) s

/-- A pending tooth event is discarded (R137). -/
def State.dropTooth (s : State) (n : Nat) : State :=
  ((s.putFlag .SEQ_TASK_STAT_TOOTH_PENDING n false).setFld .SEQ_TASK_STAT_COALESCE n 0).modSeq n fun q =>
    { q with tooth := 0 }

/-- A sequencer stops in HALTED or FAULTED (R128, R137, R139): its mode follows R184. -/
def State.stopSeq (s : State) (n : Nat) (st : SeqState) : State :=
  let s := ((s.countRun n).endTask n).dropTooth n
  let s := s.modSeq n fun q =>
    { q with state := st, wait := .none, woken := false, waite := none, safeAt := none, handover := none
             slotStall := false }
  (s.swapStopped n).modeSettle n

/-- The cause codes of R105, with their fault bits. -/
inductive CoreFault where
  | illegal | progEcc | addr | mapFmt | mapEcc | div0 | norate
  deriving DecidableEq, Repr

/-- The bit of a core fault. -/
def CoreFault.bit : CoreFault → Fld
  | .illegal => .SEQ_FAULT_ILLEGAL
  | .progEcc => .SEQ_FAULT_PROG_ECC
  | .addr => .SEQ_FAULT_ADDR
  | .mapFmt => .SEQ_FAULT_MAP_FMT
  | .mapEcc => .SEQ_FAULT_MAP_ECC
  | .div0 => .SEQ_FAULT_DIV0
  | .norate => .SEQ_FAULT_NORATE

/-- A core fault stops the sequencer (R105, R106). -/
def State.faultStops (s : State) (n : Nat) (f : CoreFault) : Bool :=
  match f with
  | .illegal | .progEcc => true
  | .addr | .mapFmt | .mapEcc => s.flag .SEQ_CTRL_FAULT_HALT n
  | _ => false

/-- A core fault of the instruction at `pc` of `bank` (R105, R106). -/
def State.coreFault (s : State) (n pc bank : Nat) (f : CoreFault) : State :=
  let code := f.ctorIdx + 1
  let s := s.raise f.bit n
  let s := s.setFld .SEQ_FAULT_PC_CAUSE n code
  let s := (s.setFld .SEQ_FAULT_PC_BANK n bank).setFld .SEQ_FAULT_PC n pc
  let s := s.log 3 n code (code * 65536 + bank * 4096 + pc)
  if s.faultStops n f then s.stopSeq n .faulted else s

/-- Every slot of a sequencer cleared, as after power-on (R107, R109). -/
def State.clearSlots (s : State) (n : Nat) : State :=
  (upto 64).foldl (fun t k => if (t.slot n k).armed then t.freeSlot n k else t) s

/-- A sequencer reset (R79, R107, R139). -/
def State.resetSeq (s : State) (n : Nat) : State :=
  let s := ((s.countRun n).endTask n).dropTooth n
  let s := s.clearSlots n
  let s := ((s.setFld .SEQ_FAULT_NORATE n 0).setFld .SEQ_FAULT_DIV0 n 0).setFld .SEQ_FAULT_MAP_ECC n 0
  let s := ((s.setFld .SEQ_FAULT_MAP_FMT n 0).setFld .SEQ_FAULT_ADDR n 0).setFld .SEQ_FAULT_PROG_ECC n 0
  let s := s.setFld .SEQ_FAULT_ILLEGAL n 0
  let s := taskFaults.foldl (fun t f => t.setFld f n 0) s
  let s := ((s.setFld .SEQ_FLAGS n 0).setFld .SEQ_BUDGET_ALLOW n 0).putFlag .SEQ_TASK_STAT_YIELDED n false
  let s := s.modSeq n fun q =>
    { q with xs := [], state := .idle, wait := .none, woken := false, waite := none, safeAt := none, handover := none
             slotStall := false, mapReq := none, expired := false, ready := [], divFree := 0, mapFree := 0 }
  let s := s.swapStopped n
  let s := s.modSeq n fun q => { q with pc := s.entry n q.bank }
  s.modeSettle n

/-- A START that the state allows (R82). -/
def State.startSeq (s : State) (n : Nat) : State :=
  s.modSeq n fun q =>
    { q with state := .run, pc := s.entry n q.bank, wait := .none, nextIssue := max q.nextIssue s.cyc
             counted := max q.counted s.cyc }

/-- A write of SEQ[n]_CMD (R82, R107): a RESET that is discarded leaves START to the state, and one write is logged once
(DEDUCED, log entry 38). -/
def State.seqCmd (s : State) (src off be n v : Nat) : State :=
  let noReset := bitN v 1 && !s.rwlOpen
  let s := if bitN v 1 && s.rwlOpen then s.resetSeq n else s
  let noStart := bitN v 0 && !(s.seq n).stopped
  let s := if bitN v 0 && (s.seq n).stopped then s.startSeq n else s
  if noReset || noStart then s.accessErr src off be true .locked else s

/-- A write of SEQ[n]_SWAP.REQ (R139, R140) (DEDUCED, log entry 52). -/
def State.swapReq (s : State) (n : Nat) : State :=
  if s.flag .SEQ_SWAP_STAT_PENDING n then s
  else ((s.raise .SEQ_SWAP_STAT_PENDING n).swapStopped n).swapSettle n

/-- A cycle boundary of domain `d` meets the pending swap of sequencer `n` (R140): a SAFEPT that issues in the boundary
cycle takes it, wherever its command stands (DEDUCED, log entry 52). -/
def State.swapBoundary (s : State) (n : Nat) : State :=
  let q := s.seq n
  if !s.flag .SEQ_SWAP_STAT_PENDING n || q.stopped then s
  else if q.inWaite || q.safeAt == some s.cyc then s.swapRunning n
  else if q.state == .run && q.nextIssue == s.cyc
      && s.word (progAddr n q.bank q.pc) == 0x7C400000 then s
  else s.bump .SEQ_SWAP_STAT_MISSED n

end Sys2Proof.Machine
end

