-- ==== Sys2Proof/Machine/Learner.lean ====
section
/-! DEFINITION. The tooth-correction learner and its two banks (R68 to R75). -/

namespace Sys2Proof.Machine

/-- The sum of two fractions. -/
def Frac.add (a b : Frac) : Frac := (a.1 * b.2 + b.1 * a.2, a.2 * b.2)

/-- Condition 1 and 4 of R70 hold now. -/
def State.learnOpen (s : State) (d : Nat) : Bool :=
  s.flag .AD_TCL_CFG_LEARN_EN d && (!s.flag .AD_TCL_CFG_GATE_EN d || s.flag .AD_TCL_CFG_GATE d)

def State.modLearn (s : State) (d : Nat) (f : Learner → Learner) : State :=
  s.modDom d fun x => { x with learn := f x.learn }

/-- Revolutions of a run: 2^LEARN_REVS, with 11 to 15 as 10 (R71, R77). -/
def State.runLength (s : State) (d : Nat) : Nat := 2 ^ min 10 (s.fld .AD_TCL_CFG_LEARN_REVS d)

/-- The back bank of a domain. -/
def State.backBank (s : State) (d : Nat) : Nat := 1 - s.fld .AD_TCL_STAT_FRONT d

/-- The check of R72 on the back bank: every present entry lies within BOUND of 1.0. -/
def State.bankOk (s : State) (d : Nat) : Bool :=
  (upto (s.tlen d)).all fun k =>
    !s.present d k ||
      (let f := s.word (tclAddr d (s.backBank d) k) % 2 ^ 24
       decide ((if f < 2 ^ 23 then 2 ^ 23 - f else f - 2 ^ 23) ≤ s.fld .AD_TCL_BOUND d * 128))

/-- BACK_COMPLETE is set, and with AUTO_SWAP a swap is pending (R72, R73). -/
def State.bankDone (s : State) (d : Nat) : State :=
  let s := s.raise .AD_TCL_STAT_BACK_COMPLETE d
  if s.flag .AD_TCL_CFG_AUTO_SWAP d then s.raise .AD_TCL_STAT_SWAP_PENDING d else s

/-- An interval closed in SYNC: the raw period opened by entry `k` (R70, R71). -/
def State.learnInterval (s : State) (d k t : Nat) (coarse : Bool) : State :=
  s.modLearn d fun l =>
    { l with raw := Tab.put l.raw k (some t), clean := l.clean && s.learnOpen d && !coarse }

/-- The revolution that ends meets every condition of R70. -/
def State.revOk (s : State) (d tRev : Nat) : Bool :=
  let l := (s.dom d).learn
  l.clean && s.learnOpen d &&
    (match l.prevRev with
      | some p => decide ((if p < tRev then tRev - p else p - tRev) * 65536 ≤ s.fld .AD_TCL_CFG_ACC_BAND d * tRev)
      | none => false)

/-- The f_k of an accepted revolution added to the run (R71). -/
def State.learnAdd (s : State) (d tRev : Nat) : State :=
  s.modLearn d fun l =>
    { l with sums := (upto (s.tlen d)).foldl (fun a k =>
        match Tab.find l.raw k with
        | some t => Tab.put a k (some (Frac.add (Tab.get (0, 1) a k) (tRev * (s.interval d k).2, s.span d * t)))
        | none => a) l.sums }

/-- A revolution ends at the edge of entry 0 stamped `stamp`, and another begins (R70 to R72). One that fails a condition of
R70 is counted. While a finished run waits for its bank or its swap, the others are left alone (DEDUCED, log entry 24). -/
def State.learnRev (s : State) (d stamp : Nat) : State :=
  let busy := s.flag .AD_TCL_STAT_WRITING d || s.flag .AD_TCL_STAT_BACK_COMPLETE d
  let s := match (s.dom d).learn.revStart with
    | some a =>
      let tRev := stamp - a
      let s :=
        if !s.revOk d tRev then s.bump .AD_TCL_CNT_REJREV d
        else if busy then s
        else
          let s := (s.learnAdd d tRev).bump .AD_TCL_STAT_REVS_DONE d
          if s.runLength d ≤ s.fld .AD_TCL_STAT_REVS_DONE d then
            (s.raise .AD_TCL_STAT_WRITING d).modLearn d fun l => { l with avg := l.sums, sums := [] }
          else s
      s.modLearn d fun l => { l with prevRev := some tRev }
    | none => s
  s.modLearn d fun l => { l with revStart := some stamp, raw := [], clean := s.learnOpen d }

/-- An average rounded to Q1.23; a value beyond the format takes its largest number, which no BOUND admits (R72). -/
def factorOf (sum : Frac) (n : Nat) : Nat := min (2 ^ 24 - 1) (roundDiv (sum.1 * 2 ^ 23) (max 1 (sum.2 * n)))

/-- The missing entries from `k` up to the next present one are written as 1.0, over at most `n` positions (R72). -/
def State.writeMissing (s : State) (d k : Nat) : Nat → State
  | 0 => s
  | n + 1 =>
    if k < s.tlen d ∧ s.present d k = false then
      (s.setWord (tclAddr d (s.backBank d) k) (2 ^ 23)).writeMissing d (k + 1) n
    else s

/-- TCL_BANK_WRITE at the accepted edge of entry `k` (R72). -/
def State.learnWrite (s : State) (d k : Nat) : State :=
  if s.flag .AD_TCL_STAT_WRITING d then
    let n := s.runLength d
    let s := s.setWord (tclAddr d (s.backBank d) k) (factorOf (Tab.get (0, 1) (s.dom d).learn.avg k) n)
    let s := s.writeMissing d (k + 1) (s.tlen d)
    if (s.interval d k).1 ≤ k then
      let s := (s.putFlag .AD_TCL_STAT_WRITING d false).modLearn d fun l => { l with avg := [] }
      if s.bankOk d then s.bankDone d
      else (s.raise .AD_TCL_FAULT_OUT_OF_BOUND d).setFld .AD_TCL_STAT_REVS_DONE d 0
    else s
  else s

/-- TCL_SWAP (R73, R74): with LEARN_EN at 0 the back bank is checked as SWAP is written, whatever it was before
(DEDUCED, log entry 24). -/
def State.tclSwapReq (s : State) (d : Nat) : State :=
  let s := s.raise .AD_TCL_STAT_SWAP_PENDING d
  if s.flag .AD_TCL_CFG_LEARN_EN d || s.flag .AD_TCL_STAT_WRITING d then s
  else if s.bankOk d then s.raise .AD_TCL_STAT_BACK_COMPLETE d
  else ((s.raise .AD_TCL_FAULT_SWAP_REFUSED d).putFlag .AD_TCL_STAT_SWAP_PENDING d false).putFlag
    .AD_TCL_STAT_BACK_COMPLETE d false

/-- A cycle boundary takes a pending swap into a complete bank (R73). -/
def State.tclBoundary (s : State) (d : Nat) : State :=
  if s.flag .AD_TCL_STAT_SWAP_PENDING d && s.flag .AD_TCL_STAT_BACK_COMPLETE d then
    let s := s.setFld .AD_TCL_STAT_FRONT d (s.backBank d)
    let s := (s.putFlag .AD_TCL_STAT_SWAP_PENDING d false).putFlag .AD_TCL_STAT_BACK_COMPLETE d false
    let s := (s.bump .AD_TCL_CNT_SWAP d).setFld .AD_TCL_STAT_REVS_DONE d 0
    s.modDom d fun x => { x with swapAt := some s.tnow, learn := { x.learn with sums := [] } }
  else s

/-- A write of TCL_CFG that closes the learner's conditions spoils the revolution under way (R70). -/
def State.learnCfg (s : State) (d : Nat) : State :=
  if s.learnOpen d then s else s.modLearn d fun l => { l with clean := false }

end Sys2Proof.Machine
end

