-- ==== Sys2Proof/Machine/Decoder.lean ====
section
/-! DEFINITION. The decoder and the estimator at accepted edges: the map check, acquisition, gap ratios, phase windows,
loads, and what ends a domain's sync (R31 to R67). -/

namespace Sys2Proof.Machine

/-! ### The map check (R31, R32) -/

/-- The windows of a phase map: strictly ascending angles, and no two neighbours share an angle (R32). -/
def State.phaseMapOk (s : State) (d : Nat) : Bool :=
  (upto (s.plen d)).all fun j =>
    let a := s.phAngle d j
    let k := s.phNext d j
    let b := s.phAngle d k + (if j + 1 < s.plen d then 0 else 2 ^ 32)
    decide (a < b) && decide (a + s.phTol d j * 65536 + s.phTol d k * 65536 < b)

/-- The check of R31. -/
def State.mapOk (s : State) (d : Nat) : Bool :=
  let ks := upto (s.tlen d)
  let crank := s.crank720 d
  let phase := s.flag .AD_INPUTS_PH_EN d
  decide (2 ≤ (ks.filter (s.present d)).length)
    && ks.any (fun k => s.present d k && s.syncMark d k)
    && ks.all (fun k => s.present d k || !s.syncMark d k)
    && ks.all (fun k => s.angleNext d k != 0)
    && (ks.foldl (fun a k => a + s.angleNext d k) 0) % 2 ^ 32 == (if crank then 2 ^ 31 else 0)
    && ks.all (fun k => !s.present d k || decide (s.nogapMax d k < s.gapMin d k))
    && (!crank || (phase && s.plen d != 0))
    && (!phase || s.phaseMapOk d)

/-! ### Phase windows (R37, R41, R42) -/

/-- The windows that are open at angle `a` and opened before it. -/
def State.openWindows (s : State) (d a : Nat) : List Nat :=
  (upto (s.plen d)).filter fun j =>
    let f := fwd (s.winStart d j) a
    decide (0 < f) && decide (f < 2 * (s.phTol d j * 65536))

/-- A judgement that begins at angle `a`: the windows open there are exempt. -/
def State.freshJudge (s : State) (d a : Nat) : Judge := { exempt := s.openWindows d a }

/-- A primary edge moves a hypothesis from angle `a0` to `a1`: the windows that ended on the way are judged, and may
match afresh. The number of contradictions comes with it (R37, third test). -/
def State.judgeWindows (s : State) (d a0 a1 : Nat) (x : Judge) : Judge × Nat :=
  let ended := (upto (s.plen d)).filter fun j =>
    let f := fwd a0 (s.winEnd d j)
    decide (0 < f) && decide (f ≤ fwd a0 a1)
  let miss := ended.filter fun j => !x.matched.contains j && !x.exempt.contains j
  ({ matched := x.matched.filter fun j => !ended.contains j
     exempt := x.exempt.filter fun j => !ended.contains j
     closed := x.matched.filter ended.contains ++ x.closed.filter fun j => !ended.contains j
     bad := x.bad || !miss.isEmpty }, miss.length)

/-- A phase edge at angle `a` is judged (R37, first and second test), and whether it contradicts. `last` is the angle of
the newest primary edge, where the phase edge's stamp is older than it: the edge's window may have ended there. -/
def State.judgeEdge (s : State) (d a : Nat) (last : Option Nat) (x : Judge) : Judge × Bool :=
  match s.windowOf d a with
  | none => ({ x with bad := true }, true)
  | some j =>
    let ended := last.any fun l => decide (fwd a (s.winEnd d j) ≤ fwd a l)
    let seen := if ended then x.closed else x.matched
    if seen.contains j then ({ x with bad := true }, true)
    else if ended then ({ x with closed := j :: x.closed }, false)
    else ({ x with matched := j :: x.matched }, false)

/-- The angle `a` of the newest primary edge, for a phase edge whose stamp is older than that edge's. -/
def State.lastAngle (s : State) (d stamp a : Nat) : Option Nat :=
  if (s.dom d).pri.done.any fun e => decide (stamp < e.stamp) then some a else none

/-! ### Ratios (R33, R34) -/

/-- A ratio as a fraction. The manual states no result over a prediction of 0: a free value. -/
def ratio (num den : Nat) : Frac := if den = 0 then ((Config.ratioOut num).toNat, 256) else (num, den)

/-- What R34 makes of the interval opened by entry `k`: whether it is no gap, and whether its classification
contradicts the map. -/
def State.classify (s : State) (d k : Nat) (r : Frac) : Bool × Bool :=
  let noGap := decide (r.1 * 16 ≤ s.nogapMax d k * r.2)
  let gap := decide (s.gapMin d k * r.2 ≤ r.1 * 16)
  (noGap, if s.present d (s.nextEntry d k) then !noGap else !gap)

/-- LAST_RATIO: Q8.8, truncated and saturated. -/
def State.putRatio (s : State) (d : Nat) (r : Frac) : State :=
  s.setFld .AD_LAST_RATIO d (min 0xFFFF (r.1 * 256 / r.2))

/-- LAST_ERR of R76: the corrected period minus the prediction for its interval, both in 125 ps / 256, to the nearest unit
of 125 ps (DESIGN CHOICE, log entry 60). -/
def State.putErr (s : State) (d t p aInt aRef : Nat) : State :=
  let e := roundDivI ((t : Int) - (roundDiv (p * aInt) (max 1 aRef) : Nat)) 256
  s.setFld .AD_LAST_ERR d (wrapI 32 (satI (-(2 ^ 31)) (2 ^ 31 - 1) e))

/-! ### Hypotheses (R35 to R38, R40, R46) -/

/-- The accumulator that the angle held at a stamp, by the segment in force then. -/
def State.accAt (s : State) (d stamp : Nat) : Nat :=
  let x := s.dom d
  (if stamp < x.seg.t0 * 8 ∧ x.old.valid then x.old else x.seg).acc stamp

/-- The angle at a stamp. -/
def State.angleStamp (s : State) (d stamp : Nat) : Nat := s.accAt d stamp / 65536 % 2 ^ 32

/-- The revolutions that R29 permits; in PHASE-ONLY, the one of the phase-only angle (R46). -/
def State.revsFor (s : State) (d stamp : Nat) : List Nat :=
  if s.crank720 d then
    if s.dstate d = stPhaseOnly then
      [if fwd (s.fld .AD_TMAP_OFFSET d) (s.angleStamp d stamp) < 2 ^ 31 then 0 else 1]
    else [0, 1]
  else [0]

/-- A fresh set of hypotheses at an edge (R35). -/
def State.seedHyps (s : State) (d stamp : Nat) : State :=
  let revs := s.revsFor d stamp
  let hs := ((upto (s.tlen d)).filter (s.present d)).flatMap fun c =>
    revs.map fun v => ({ entry := c, rev := v } : Hyp)
  s.modDom d fun x => { x with hyps := hs, needSeed := false }

/-- The crank's predictor stored where it runs. -/
def State.putCrank (s : State) (d : Nat) (q : Predictor) : State :=
  s.modDom d fun x => if s.dstate d = stPhaseOnly then { x with crank := q } else { x with est := q }

/-- The last hypothesis is gone, or RESEED discards them (R40). -/
def State.restartAcq (s : State) (d : Nat) : State :=
  let s := ((s.raise .AD_FAULT_ACQ_RESTART d).bump .AD_CNT_RESTART d).putFlag .AD_SYNC_STAT_CRANK_LOCK d false
  (s.putCrank d {}).modDom d fun x => { x with hyps := [], needSeed := true }

/-- P_next of a hypothesis as the ratio of a period to it: numerator and denominator (R33, R36). With crank lock the
estimator supplies it, unrounded (R58) (DESIGN CHOICE, log entry 60). -/
def State.hypRatio (s : State) (d : Nat) (locked : Bool) (h : Hyp) (base : Nat × Nat) (t : Nat) : Frac :=
  if locked then ratio (t * 256 * s.aRef d) ((s.crankPred d).p * s.angleNext d h.entry)
  else ratio (t * base.2) (base.1 * s.angleNext d h.entry)

/-- A hypothesis at an accepted primary edge that closes an interval of `t`; none where R36 or R37 removes it. -/
def State.advanceHyp (s : State) (d t : Nat) (locked windows : Bool) (h : Hyp) : Option Hyp :=
  let n := s.interval d h.entry
  let v := s.nextRev d h.entry n.1 h.rev
  let a1 := s.entryAngle d n.1 v
  match h.base with
  | none => some { entry := n.1, rev := v, base := some (t, n.2), judge := s.freshJudge d a1 }
  | some b =>
    let c := s.classify d h.entry (s.hypRatio d locked h b t)
    let w := s.judgeWindows d (s.entryAngle d h.entry h.rev) a1 h.judge
    if c.2 || (windows && w.2 != 0) then none
    else some { entry := n.1, rev := v, base := some (if c.1 then (t, s.angleNext d h.entry) else b)
                classified := h.classified + 1, judge := w.1 }

/-- All remaining hypotheses agree on the entry, and one interval at least has closed (R38). -/
def agreed : List Hyp → Option (Nat × Nat × Nat)
  | [] => none
  | h :: r => match h.base with
    | some b => if r.all fun g => g.entry == h.entry then some (h.entry, b) else none
    | none => none

/-- The predictor and the lock after the hypotheses advanced (R38, R53): with crank lock every interval enters the
history, raw; without it, an agreement on the entry sets the lock and starts the predictor, from the survivor's first
interval over its whole angle where it has classified none as no gap (DESIGN CHOICE, log entry 60). In PHASE-ONLY the
crank's edges write LAST_ERR and PRED_LIMIT too, beside the phase edges (DESIGN CHOICE, log entry 61). -/
def State.lockStep (s : State) (d t k : Nat) (locked : Bool) : State :=
  let q := s.crankPred d
  let aRef := s.aRef d
  match agreed (s.dom d).hyps with
  | none => s
  | some a =>
    let s := s.setFld .AD_SYNC_STAT_POS d a.1
    if locked then
      let n := s.interval d k
      let p := s.pushPred d q aRef (normalise (t * 256) aRef n.2)
      (((s.putErr d (t * 256) q.p n.2 aRef).putCrank d p.1).limited d p.2)
    else
      let p := s.startPred d q aRef (normalise (a.2.1 * 256) aRef a.2.2)
      ((s.raise .AD_SYNC_STAT_CRANK_LOCK d).putCrank d p.1).limited d p.2

/-! ### Loads and their steps (R47, R52, R60 to R64) -/

/-- A jump: LAST_JUMP, CNT_JUMP, and the threshold of R64 against the opening entry's angle (DEDUCED, log entry 23). -/
def State.jump (s : State) (d shortfall opening : Nat) : State :=
  let s := (s.setFld .AD_LAST_JUMP d shortfall).bump .AD_CNT_JUMP d
  if s.fld .AD_EST_CFG_JUMP_WARN d * opening < shortfall * 256 then
    (s.raise .AD_EST_FAULT_JUMP_WARN d).bump .AD_CNT_JUMP_WARN d
  else s

/-- The load at an edge while the angle is valid, with its release or jump (R52, R61): every slot that the step passes fires
on its word, as the comparators evaluate it (R143). `au` is the edge's angle, `opening` the angle of the position that opened the interval, `next` the angle to the next
clamp point. A hold of R47 that the edge does not reach goes on, and is neither. -/
def State.loadStep (s : State) (d au rate stamp opening next : Nat) (always : Bool) : State :=
  let s := s.svcHalves d
  if s.staysHeld d au rate stamp then s.loadHold d au rate stamp next else
  let x := s.dom d
  let clamped := (if stamp < x.seg.t0 * 8 then x.old else x.seg).clamped stamp
  let s := if clamped && !always then s else s.jump d (fwd (s.angleStamp d stamp) au) opening
  s.loadEdge d au rate stamp next

/-! ### Sync gain (R38, R47) -/

/-- The surviving hypothesis, where R38 is met (DEDUCED, log entry 24). -/
def State.gainHyp (s : State) (d : Nat) : Option Hyp :=
  match (s.dom d).hyps with
  | [h] => if s.flag .AD_SYNC_STAT_CRANK_LOCK d && s.syncMark d h.entry && decide (s.fld .AD_SYNC_CFG_ACQ_CONFIRM d ≤ h.classified)
      then some h else none
  | _ => none

/-- What sync gain sets beside the angle: state, position, judgements, the end of the domain hold with the drivers that it
lets go (R164, R166), and the learner's start. -/
def State.gainState (s : State) (d stamp : Nat) (h : Hyp) (j : Judge) : State :=
  let s := s.setFld .AD_SYNC_STAT_STATE d stSync
  let s := (s.raise .AD_SYNC_STAT_ANGLE_VALID d).setFld .AD_SYNC_STAT_POS d h.entry
  let s := s.setFld .AD_SYNC_STAT_REV d h.rev
  let s := (s.clearBits .SPILL_STAT_DOMAIN_HOLD 0 (2 ^ d)).redrive
  let opp := (s.entryAngle d h.entry h.rev + 2 ^ 31) % 2 ^ 32
  let s := s.modDom d fun x =>
    { x with hyps := [], needSeed := false, cur := { j with bad := false }, opp := s.freshJudge d opp, flips := 0
             whole := h.entry == 0, fresh := true, learn := { x.learn with revStart := none, prevRev := none, raw := [] } }
  if h.entry = 0 then (s.learnRev d stamp).learnWrite d 0 else s

/-- The word of a tooth event at a primary edge (R125). -/
def State.toothWord (s : State) (d : Nat) : Nat :=
  s.fld .AD_SYNC_STAT_POS d + 1024 * s.fld .AD_SYNC_STAT_REV d

/-- Sync gain from SEEKING (R38, R39, R145). -/
def State.gainSeek (s : State) (d stamp : Nat) (h : Hyp) : State :=
  let s := (s.gainState d stamp h h.judge).formDigest d
  let au := s.entryAngle d h.entry h.rev
  let s := s.loadFirst d au (s.dom d).est.rate stamp (s.interval d h.entry).2
  (s.latchRefs d).toothEvent d (s.toothWord d)

/-- Sync gain from PHASE-ONLY (R47): a jump forwards, or a hold where the tooth angle lies behind. A tooth angle equal to the
phase-only angle counts as ahead, a jump of 0 (DESIGN CHOICE, log entry 59). `opening` is the angle of R64's test. -/
def State.gainPhase (s : State) (d stamp opening : Nat) (h : Hyp) : State :=
  let au := s.entryAngle d h.entry h.rev
  let ahead := decide ((au * 65536 + 2 ^ 48 - s.accAt d stamp % 2 ^ 48) % 2 ^ 48 < 2 ^ 47)
  let s := (s.gainState d stamp h (s.freshJudge d au)).formDigest d
  let s := s.modDom d fun x => { x with est := x.crank, crank := {} }
  let rate := (s.dom d).est.rate
  let next := (s.interval d h.entry).2
  let s := if ahead then s.loadStep d au rate stamp opening next true else (s.svcHalves d).loadHold d au rate stamp next
  s.toothEvent d (s.toothWord d)

/-! ### Primary edges -/

/-- An accepted primary edge in NOSYNC (R31, R35): the modes of R35, and no repeat of a failed check. -/
def State.edgeNosync (s : State) (d stamp : Nat) : State :=
  let m := s.mode
  if (m == modeSeek || m == modeRun || m == modeLimp || m == modeClearing) && !(s.dom d).invalid then
    if s.mapOk d then
      let s := s.setFld .AD_SYNC_STAT_STATE d stSeeking
      let used := (s.inputWin d false).toList ++ (s.inputWin d true).toList
      let s := { s with power := { s.power with
        caught := s.power.caught.filter fun c => !used.contains c.1
        catching := used.foldl (fun m w => if bitN m w then m - 2 ^ w else m) s.power.catching } }
      s.seedHyps d stamp
    else (s.raise .AD_FAULT_MAP_INVALID d).modDom d fun x => { x with invalid := true }
  else s

/-- The present entry whose interval ends at entry `k`: where a hypothesis on `k` was one primary edge earlier (R47). -/
def State.entryBefore (s : State) (d k : Nat) : Nat :=
  ((upto (s.tlen d)).find? fun j => s.present d j && (s.interval d j).1 == k).getD k

/-- Acquisition at an accepted primary edge, in SEEKING and in PHASE-ONLY (R36 to R40, R46, R47). -/
def State.edgeAcquire (s : State) (d stamp t : Nat) : State :=
  let x := s.dom d
  if x.needSeed || x.hyps.isEmpty then s.seedHyps d stamp
  else
    let locked := s.flag .AD_SYNC_STAT_CRANK_LOCK d
    let windows := s.flag .AD_INPUTS_PH_EN d && s.dstate d == stSeeking
    let k := (x.hyps.head?.map (·.entry)).getD 0
    let s := if locked then s.putRatio d (s.hypRatio d true { entry := k, rev := 0 } (0, 0) t) else s
    let hs := x.hyps.filterMap (s.advanceHyp d t locked windows)
    let s := s.modDom d fun x => { x with hyps := hs }
    if hs.isEmpty then s.restartAcq d
    else
      let s := s.lockStep d t k locked
      match s.gainHyp d with
      | some h =>
        if s.dstate d = stPhaseOnly then s.gainPhase d stamp (s.angleNext d (s.entryBefore d h.entry)) h
        else s.gainSeek d stamp h
      | none => s

/-- The map position that lies nearest to `r` positions' angle past entry `k`, with its revolution.
(DEDUCED, log entry 23). -/
def State.nearest (s : State) (d k v : Nat) (r : Frac) : Nat × Nat :=
  let goal := r.1 * s.angleNext d k
  let best := (upto (s.tlen d)).foldl (fun (b : Nat × Nat × Nat × Nat × Nat) _ =>
    let j := s.nextEntry d b.1
    let w := s.nextRev d b.1 j b.2.1
    let c := b.2.2.1 + s.angleNext d b.1
    let e := if c * r.2 < goal then goal - c * r.2 else c * r.2 - goal
    if e < b.2.2.2.1 then (j, w, c, e, j + 1024 * w) else (j, w, c, b.2.2.2.1, b.2.2.2.2))
    (k, v, 0, goal + 2 ^ 64 * r.2, k + 1024 * v)
  (best.2.2.2.2 % 1024, best.2.2.2.2 / 1024)

/-- The phase windows at a primary edge in SYNC (R41, R42): from angle `a0` to `a1`. -/
def State.syncWindows (s : State) (d a0 a1 : Nat) : State :=
  if s.crank720 d then
    let x := s.dom d
    let c := s.judgeWindows d a0 a1 x.cur
    let o := s.judgeWindows d ((a0 + 2 ^ 31) % 2 ^ 32) ((a1 + 2 ^ 31) % 2 ^ 32) x.opp
    let s := if c.2 = 0 then s else (s.raise .AD_FAULT_PHASE_MISMATCH d).bumpBy .AD_CNT_PHMIS d c.2
    s.modDom d fun x => { x with cur := c.1, opp := o.1 }
  else s

/-- The judgement of R42 at an accepted edge of entry 0, and whether it takes sync away. -/
def State.flipStep (s : State) (d : Nat) : State × Bool :=
  let x := s.dom d
  let n := if x.whole && x.cur.bad && !x.opp.bad then x.flips + 1 else 0
  (s.modDom d fun x =>
    { x with flips := n, whole := true, cur := { x.cur with bad := false }, opp := { x.opp with bad := false } },
   s.crank720 d && decide (max 1 (s.fld .AD_SYNC_CFG_PH_FLIP_REVS d) ≤ n))

/-- What an accepted edge of entry 0 in SYNC counts for Limp and the learner (R70, R191). -/
def State.turnStep (s : State) (d stamp : Nat) : State :=
  let s := if s.mode = modeLimp then s.modDom d fun x => { x with runRevs := x.runRevs + 1 } else s
  s.learnRev d stamp

/-- The edge in SYNC agrees with the map: position, prediction, learner, load, firings and tooth event (R52 to R61). -/
def State.syncLoad (s : State) (d stamp t tc k j v aInt : Nat) (coarse : Bool) : State :=
  let x := s.dom d
  let aRef := s.aRef d
  let s := s.putErr d tc x.est.p aInt aRef
  let p := s.pushPred d x.est aRef (normalise tc aRef aInt)
  let s := (s.limited d p.2).modDom d fun x => { x with est := p.1 }
  let s := s.learnInterval d k t coarse
  let s := if j = 0 then s.turnStep d stamp else s
  let s := (s.learnWrite d j).formDigest d
  let s := s.loadStep d (s.entryAngle d j v) p.1.rate stamp (s.angleNext d k) (s.interval d j).2 false
  s.toothEvent d (s.toothWord d)

/-- A loss that this primary edge reveals: it seeds the new hypotheses (R44). -/
def State.edgeLoss (s : State) (d cause stamp : Nat) : State :=
  let s := s.syncLoss d cause
  if s.dstate d = stSeeking ∨ s.dstate d = stPhaseOnly then s.seedHyps d stamp else s

/-- An accepted primary edge in SYNC that closes a period `t` (R33, R34, R41, R42); P_next of R58 is the exact quotient
(DESIGN CHOICE, log entry 60). -/
def State.edgeSync (s : State) (d stamp t : Nat) (coarse : Bool) : State :=
  let k := s.fld .AD_SYNC_STAT_POS d
  let v := s.fld .AD_SYNC_STAT_REV d
  let n := s.interval d k
  let w := s.nextRev d k n.1 v
  let tc := corrected t (s.factor d k)
  let r := ratio (tc * s.aRef d) ((s.dom d).est.p * s.angleNext d k)
  let s := s.putRatio d r
  if (s.classify d k r).2 then
    let a := s.nearest d k v r
    let s := (s.setFld .AD_SYNC_STAT_POS d a.1).setFld .AD_SYNC_STAT_REV d a.2
    s.edgeLoss d (if s.present d (s.nextEntry d k) then 1 else 2) stamp
  else
    let s := s.syncWindows d (s.entryAngle d k v) (s.entryAngle d n.1 w)
    let s := (s.setFld .AD_SYNC_STAT_POS d n.1).setFld .AD_SYNC_STAT_REV d w
    let f := if n.1 = 0 then s.flipStep d else (s, false)
    if f.2 then f.1.edgeLoss d 4 stamp
    else f.1.syncLoad d stamp t tc k n.1 w n.2 coarse

/-- The period of a primary edge, recorded (R48, R53). -/
def State.putPeriod (s : State) (d t : Nat) (coarse : Bool) : State :=
  let s := s.setFld .AD_LAST_PERIOD d (if coarse then 0xFFFFFFFF else min t 0xFFFFFFFF)
  let s := if coarse then s.raise .AD_FAULT_COARSE d else s
  s.modDom d fun x => { x with diagIv := some t }

/-- PRIMARY_EDGE: the oldest accepted primary edge, unless an older phase edge waits (R27). A failed map check stops the
decoder, not the record of periods: LAST_PERIOD and FAULT.COARSE still follow (R31) (DESIGN CHOICE, log entry 61). -/
def State.primaryEdge (s : State) (d : Nat) : State :=
  let x := s.dom d
  match x.pri.accepted with
  | [] => s
  | e :: rest =>
    if x.pha.accepted.any fun p => decide (p.at' < e.at') then s
    else
      let s := s.modInput d false fun r => { r with accepted := rest, done := some e }
      match x.pri.done with
      | none => if s.dstate d = stNosync then s.edgeNosync d e.stamp else s
      | some prev =>
        let t := s.periodOf e prev
        let s := s.putPeriod d t.1 t.2
        if s.dstate d = stNosync then s.edgeNosync d e.stamp
        else if s.dstate d = stSync then s.edgeSync d e.stamp t.1 t.2
        else s.edgeAcquire d e.stamp t.1

/-! ### Phase edges (R37, R41, R45, R46, R66) -/

/-- The angle of a phase edge under a hypothesis: the last primary edge's angle plus its progress (R37). -/
def State.hypAngle (s : State) (d stamp : Nat) (locked : Bool) (h : Hyp) (b : Nat × Nat) : Nat :=
  let from' := ((s.dom d).pri.done.map (·.stamp)).getD stamp
  let dt : Int := (stamp : Int) - from'
  let num : Int := if locked then dt * 256 * s.aRef d else dt * b.2
  let den : Nat := if locked then (s.crankPred d).p else b.1
  let off : Int := if den = 0 then ((Config.offsetOut num).toNat : Int) else num / den
  wrapI 32 ((s.entryAngle d h.entry h.rev : Int) + off)

/-- A phase edge in SEEKING judges every hypothesis that has a prediction (R37). -/
def State.phaseSeek (s : State) (d stamp : Nat) : State :=
  let x := s.dom d
  let locked := s.flag .AD_SYNC_STAT_CRANK_LOCK d
  let hs := x.hyps.filterMap fun h =>
    match h.base with
    | none => some h
    | some b =>
      let last := s.lastAngle d stamp (s.entryAngle d h.entry h.rev)
      let j := s.judgeEdge d (s.hypAngle d stamp locked h b) last h.judge
      if j.2 then none else some { h with judge := j.1 }
  let s := s.modDom d fun x => { x with hyps := hs }
  if hs.isEmpty && !x.hyps.isEmpty then s.restartAcq d else s

/-- A phase edge in SYNC on a 720° crank domain is checked against the angle (R41, R42). -/
def State.phaseSync (s : State) (d stamp : Nat) : State :=
  if s.crank720 d then
    let a := s.angleStamp d stamp
    let x := s.dom d
    let at' := s.entryAngle d (s.fld .AD_SYNC_STAT_POS d) (s.fld .AD_SYNC_STAT_REV d)
    let c := s.judgeEdge d a (s.lastAngle d stamp at') x.cur
    let o := s.judgeEdge d ((a + 2 ^ 31) % 2 ^ 32) (s.lastAngle d stamp ((at' + 2 ^ 31) % 2 ^ 32)) x.opp
    let s := if c.2 then (s.raise .AD_FAULT_PHASE_MISMATCH d).bump .AD_CNT_PHMIS d else s
    s.modDom d fun x => { x with cur := c.1, opp := o.1 }
  else s

/-- A phase edge on entry `j` in PHASE-ONLY that closes a period `t` (R46, R66); its jumps meet the test of R64 too
(DESIGN CHOICE, log entry 61). -/
def State.phaseOnly (s : State) (d stamp t j : Nat) : State :=
  let x := s.dom d
  let aRef := s.phARef d
  let aInt := s.phInterval d j
  let s := s.putErr d (t * 256) x.est.p aInt aRef
  let p := s.pushPred d x.est aRef (normalise (t * 256) aRef aInt)
  let s := (s.limited d p.2).modDom d fun x => { x with est := p.1 }
  let s := s.formDigest d
  let s := s.loadStep d (s.phAngle d j) p.1.rate stamp aInt (s.phInterval d (s.phNext d j)) false
  s.toothEvent d (s.fld .AD_SYNC_STAT_PH_POS d + 2048)

/-- The count of R190 in Clearing. -/
def State.limpEdge (s : State) (d : Nat) : State :=
  if s.mode = modeClearing then
    s.modDom d fun x =>
      { x with limpEdges := if s.flag .AD_SYNC_STAT_PH_LOCK d then x.limpEdges + 1 else 0 }
  else s

/-- PHASE_EDGE: the oldest accepted phase edge, unless a primary edge of its cycle or an older one waits (R27). -/
def State.phaseEdge (s : State) (d : Nat) : State :=
  let x := s.dom d
  match x.pha.accepted with
  | [] => s
  | e :: rest =>
    if x.pri.accepted.any fun p => decide (p.at' ≤ e.at') then s
    else
      let per := x.pha.done.map fun p => s.periodOf e p
      let tr := if s.flag .AD_INPUTS_PH_EN d then s.trackEdge d e else (s, false)
      let s := tr.1.modInput d true fun r => { r with accepted := rest, done := some e }
      let s := if per.any (·.2) then (s.raise .AD_FAULT_COARSE d).setFld .AD_LAST_PERIOD d 0xFFFFFFFF else s
      let s := s.limpEdge d
      if s.dstate d = stSeeking then s.phaseSeek d e.stamp
      else if s.dstate d = stSync then s.phaseSync d e.stamp
      else if s.dstate d = stPhaseOnly then
        if tr.2 then s.syncLoss d 6
        else match per, (s.dom d).phEntry with
          | some t, some j => s.phaseOnly d e.stamp t.1 j
          | _, _ => s
      else s

/-! ### Stalls and host commands (R40, R43) -/

/-- STALL_MS has passed since the last accepted edge of the input that defines the angle (R43, R44). -/
def State.stallDue (s : State) (d : Nat) : Bool :=
  match ((s.dom d).input (s.dstate d == stPhaseOnly)).last with
  | some e => decide (e.at' + s.stallNs d ≤ s.tnow)
  | none => false

/-- STALL. -/
def State.stallEvent (s : State) (d : Nat) : State :=
  if s.stallDue d then
    if s.dstate d = stSeeking then s.seekReturn d
    else if s.dstate d = stSync ∨ s.dstate d = stPhaseOnly then s.syncLoss d 3
    else s
  else s

/-- AD_CMD.DESYNC (R43). -/
def State.desyncCmd (s : State) (d : Nat) : State :=
  if s.dstate d = stSeeking then s.seekReturn d
  else if s.dstate d = stSync ∨ s.dstate d = stPhaseOnly then s.syncLoss d 5
  else s

/-- AD_CMD.RESEED (R40). -/
def State.reseedCmd (s : State) (d : Nat) : State := if s.dstate d = stSeeking then s.restartAcq d else s

/-- ANGLE_CLAMP (R60): a hold counts once. -/
def State.clampEvent (s : State) (d : Nat) : State :=
  let x := s.dom d
  if x.seg.clamped (s.tnow * 8) && !x.clampSeen then
    (s.bump .AD_CNT_CLAMP d).modDom d fun x => { x with clampSeen := true }
  else s

end Sys2Proof.Machine
end

