-- ==== Sys2Proof/Machine/Measure.lean ====
section
/-! DEFINITION. What the commands of converters, basins, trackers, feeds and weight banks do (R197 to R228). -/

namespace Sys2Proof.Machine

/-- The maps and the front banks of domain `d` accept writes (R30). -/
def State.mapsOpen (s : State) (d : Nat) : Bool := s.rwlOpen && s.dstate d == stNosync

/-! ### Converters (R197 to R206) -/

/-- The pair of converter `k` interleaves (R202). -/
def State.ilv (s : State) (k : Nat) : Bool := s.flag .ADC_CFG_ILV (k / 2 * 2)

/-- A source code that R200 assigns. -/
def sourceAssigned (c : Nat) : Bool := decide (c ≤ 0x2F) || (decide (0x40 ≤ c) && decide (c ≤ 0x61))

/-- Converter `k` runs its own list: it is no odd member of an interleaving pair (R202). -/
def State.ownList (s : State) (k : Nat) : Bool := k % 2 == 0 || !s.ilv k

/-- The entry of converter `k`'s conversion and its source: of an interleaving pair always entry 0 (R202). -/
def State.convNow (s : State) (k : Nat) : Nat × Nat :=
  let a := s.adc k
  a.running.getD (if s.ilv k then (0, Tab.get 0x60 a.list 0) else (a.entry, Tab.get 0x60 a.list a.entry))

/-- A conversion in progress keeps its entry and source while the list changes under it (R201). -/
def State.keepConv (s : State) (k : Nat) : State :=
  if s.flag .ADC_STAT_RUNNING k then s.modAdc k fun a => { a with running := some (s.convNow k) } else s

/-- The end of a pending COMMIT: the shadow as it stands is taken into use, or refused (R201, R206). LEN of an interleaving
pair is 1 (R202). -/
def State.commitTransfer (s : State) (k : Nat) : State :=
  let s := s.putFlag .ADC_STAT_COMMIT_PENDING k false
  let len := if s.ilv k && k % 2 == 0 then 1 else s.fld .ADC_CFG_LEN_M1 k + 1
  if (upto len).all fun e => sourceAssigned (s.fld .ADC_SEQ_SRC (16 * k + e)) then
    s.modAdc k fun a =>
      { a with
        list := (upto 16).foldl (fun t e => Tab.set 0x60 t e (s.fld .ADC_SEQ_SRC (16 * k + e))) a.list
        lenM1 := s.fld .ADC_CFG_LEN_M1 k, entry := 0
        bq0 := s.flag .ADC_FLT_CFG_BQ0_EN k, bq1 := s.flag .ADC_FLT_CFG_BQ1_EN k
        coef := (upto 10).foldl (fun t j =>
          Tab.set (if j % 5 = 0 then 2 ^ 22 else 0) t j (s.fld .ADC_COEF (10 * k + j))) a.coef }
  else s.raise .ADC_STAT_COMMIT_REFUSED k

/-- ADC_CMD.COMMIT (R201): at once while the converter does not run its list (DEDUCED, log entry 25). -/
def State.adcCommit (s : State) (k : Nat) : State :=
  if s.flag .ADC_STAT_COMMIT_PENDING k then s
  else if s.flag .ADC_CFG_EN k && s.ownList k then s.raise .ADC_STAT_COMMIT_PENDING k
  else (s.keepConv k).commitTransfer k

/-- The pair of even converter `k` begins a calibration (R203) (DEDUCED, log entry 25). -/
def State.calStart (s : State) (k : Nat) : State :=
  ((s.raise .ADC_STAT_CAL_BUSY k).putFlag .ADC_STAT_ILV_ACTIVE k false).modAdc k fun a => { a with calAt := s.tnow }

/-- ADC_CMD.CAL: even converters only (R203, R227). -/
def State.adcCal (s : State) (k : Nat) : State := if k % 2 = 0 then s.calStart k else s

/-- ADC_CMD.FLT_RESET (R206). -/
def State.adcFltReset (s : State) (k : Nat) : State := s.modAdc k fun a => { a with st0 := {}, st1 := {} }

/-- The step of the skew trim nearest to a skew in ps (R203). -/
def trimStep (v : Int) : Nat := wrapI 16 (roundDivI v 10 * 10)

/-- ADC_CAL_DONE (R203, R204): `skew` is the trim that the calibration needs; none where offset or gain cannot be matched.
A trim beyond 2 ns is a failure. -/
def State.calDone (s : State) (p : Nat) (skew : Option (BitVec 16)) : State :=
  let k := 2 * p
  if s.flag .ADC_STAT_CAL_BUSY k && decide ((s.adc k).calAt + 200000 ≤ s.tnow) then
    let s := s.putFlag .ADC_STAT_CAL_BUSY k false
    let ok := skew.filter fun v => decide (v.toInt ≤ 2000) && decide (-2000 ≤ v.toInt)
    match ok with
    | some v => (s.setFld .ADC_ILV_SKEW k (trimStep v.toInt)).putFlag .ADC_STAT_ILV_ACTIVE k (s.ilv k && s.flag .ADC_CFG_EN k)
    | none => s.raise .ADC_STAT_CAL_FAIL k
  else s

/-- ILV of even converter `k` changes (R202): the odd member of an interleaving pair runs no list, whatever its EN; as the
pair parts, it runs its own list again if its EN is 1 (DEDUCED, log entry 25). -/
def State.setIlv (s : State) (k : Nat) (b : Bool) : State :=
  let s := (s.putFlag .ADC_CFG_ILV k b).putFlag .ADC_STAT_RUNNING (k + 1) (!b && s.flag .ADC_CFG_EN (k + 1))
  s.modAdc (k + 1) fun a => { a with running := none, entry := 0 }

/-- A write of ADC_CFG (R199, R201 to R203). -/
def State.adcCfg (s : State) (src off be k v : Nat) : State :=
  let was := s.flag .ADC_CFG_EN k
  let ilv := bitsN v 30 30
  let even := k % 2 == 0
  let s := if even && was && ilv != s.fld .ADC_CFG_ILV k then s.accessErr src off be true .locked else s
  let s := if even && !was && ilv != s.fld .ADC_CFG_ILV k then s.setIlv k (bitN v 30) else s
  let s := s.setFld .ADC_CFG_LEN_M1 k (bitsN v 3 0)
  let s := s.setFld .ADC_CFG_EN k (bitsN v 31 31)
  if !s.ownList k then s
  else if bitN v 31 && !was then
    let s := ((s.keepConv k).raise .ADC_STAT_RUNNING k).modAdc k fun a => { a with entry := 0 }
    if even && s.ilv k then s.calStart k else s
  else if was && !bitN v 31 && even then s.putFlag .ADC_STAT_ILV_ACTIVE k false
  else s

/-- A write of AIN_CFG that changes a field discards the input's samples for 5 µs (R197). -/
def State.ainCfg (s : State) (a v : Nat) : State :=
  if bitsN v 1 1 ≠ s.fld .AIN_CFG_AAF a ∨ bitsN v 0 0 ≠ s.fld .AIN_CFG_RANGE a then
    let s := (s.setFld .AIN_CFG_AAF a (bitsN v 1 1)).setFld .AIN_CFG_RANGE a (bitsN v 0 0)
    let start := match Tab.find s.settle a with
      | some t => if s.tnow < t.2 then t.1 else s.tnow
      | none => s.tnow
    { s with settle := Tab.put s.settle a (some (start, s.tnow + 5000)) }
  else s

/-- The sample value of a code from a source (R198): two's complement only from an input in its bipolar range.
(DEDUCED, log entry 25). -/
def State.sampleValue (s : State) (source code : Nat) : Int :=
  if source < 0x30 ∧ s.flag .AIN_CFG_RANGE source then sextN 16 code else (code : Int)

/-- A conversion at instant `inst` falls into the interval after a change of its input, so no sample is taken (R197). -/
def State.settling (s : State) (source inst : Nat) : Bool :=
  decide (source < 0x30) && (match Tab.find s.settle source with
    | some t => decide (t.1 ≤ inst) && decide (inst < t.2)
    | none => false)

/-- The bounds of the code of a source whose voltage the module fixes: internal ground and reference, and the threshold DAC of
a comparator, at 0 V while it is disconnected and settled 1 µs after a change of its code (R198, R200, R230, R233, R235, R241,
R450). None for any other source, and for a DAC that settles or whose range has changed (DEDUCED, log entry 25). -/
def State.codeBounds (s : State) (source inst : Nat) : Option (Nat × Nat) :=
  let around := fun (v tol : Nat) => some (v - (tol + 7 + v / 2000), v + (tol + 7 + v / 2000))
  if source = 0x60 then around 0 0
  else if source = 0x61 then around 32768 17
  else if 0x40 ≤ source ∧ source < 0x60 then
    let x : Cmp := Tab.get {} s.cmps (source - 0x40)
    if !x.connected then around 0 0
    else if x.hold.isSome || decide (inst < x.dacAt + 1000) then none
    else if s.flag .CMP_DAC_RANGE (source - 0x40) then around (64 * s.fld .CMP_DAC_CODE (source - 0x40)) 227
    else around (16 * s.fld .CMP_DAC_CODE (source - 0x40)) 56
  else none

/-- The code of a conversion, within what its source allows. -/
def State.codeOf (s : State) (source code inst : Nat) : Nat :=
  match s.codeBounds source inst with
  | some b => min 65535 (clampN b.1 b.2 code)
  | none => code

/-- The sample of converter `k`, as entry `e` of the stream of converter `c`, from a source (R202, R205, R207).
(DEDUCED, log entry 54). -/
def State.takeSample (s : State) (k c e source code inst : Nat) : State :=
  if s.settling source inst then s.raise .ADC_STAT_SETTLE_DROP k
  else
    let raw := s.sampleValue source (s.codeOf source code inst)
    if e = 0 then
      let r := s.filter c raw
      r.1.deliverSample { conv := c, entry := 0, raw, filtered := some r.2, inst }
    else s.deliverSample { conv := c, entry := e, raw, filtered := none, inst }

/-- The end of a conversion of converter `k` on its own list: the next entry, a pending COMMIT at the end of the pass,
and the stop of a converter that was disabled (R199, R201). -/
def State.convEnd (s : State) (k : Nat) : State :=
  let a := s.adc k
  let len := if s.ilv k then 1 else a.lenM1 + 1
  let last := decide (len ≤ a.entry + 1)
  let s := s.modAdc k fun a =>
    { a with running := none, entry := if a.running.isSome then a.entry else if last then 0 else a.entry + 1 }
  let stop := !s.flag .ADC_CFG_EN k
  let s := if stop then s.putFlag .ADC_STAT_RUNNING k false else s
  if (last || stop) && s.flag .ADC_STAT_COMMIT_PENDING k then s.commitTransfer k else s

/-- ADC_CONVERSION (R199, R202 to R204): a conversion of converter `k` with its sampling instant. -/
def State.adcConvert (s : State) (k code inst : Nat) : State :=
  let e := k / 2 * 2
  let busy := s.flag .ADC_STAT_CAL_BUSY e
  if s.ownList k then
    if s.flag .ADC_STAT_RUNNING k then
      let c := s.convNow k
      (if busy then s else s.takeSample k k c.1 c.2 code inst).convEnd k
    else s
  else if s.flag .ADC_STAT_ILV_ACTIVE e && !busy then
    s.takeSample k e 0 (Tab.get 0x60 (s.adc e).list 0) code inst
  else s

/-! ### Basins (R208 to R216) -/

/-- What refuses EN of a basin with the configuration `v` (R208, R228). -/
def State.basRefused (s : State) (k v : Nat) : Bool :=
  let conv := bitsN v 8 4
  (bitN v 9 && bitsN v 3 0 != 0) || decide (24 ≤ conv) || (conv % 2 == 1 && s.ilv conv) ||
    decide (8 ≤ ((upto 512).filter fun j => j != k && s.flag .BAS_CFG_EN j && s.fld .BAS_CFG_CONV j == conv).length)

/-- The fields of BAS_CFG beside EN, with their bits. -/
def basCfgFields : List (Fld × Nat × Nat) :=
  [(.BAS_CFG_MODE, 30, 28), (.BAS_CFG_DOMAIN, 27, 26), (.BAS_CFG_WIN_SRC, 25, 25), (.BAS_CFG_PWM_SEL, 24, 21),
   (.BAS_CFG_IRQ, 20, 20), (.BAS_CFG_FEED_EN, 19, 19), (.BAS_CFG_FEED, 18, 17), (.BAS_CFG_SHIFT, 15, 10),
   (.BAS_CFG_TAP, 9, 9), (.BAS_CFG_CONV, 8, 4), (.BAS_CFG_ENTRY, 3, 0)]

/-- A write of BAS_CFG (R208, R209, R217). -/
def State.basCfg (s : State) (src off be k v : Nat) : State :=
  if s.flag .BAS_CFG_EN k then
    let s := if basCfgFields.any fun f => s.fld f.1 k != bitsN v f.2.1 f.2.2 then s.accessErr src off be true .locked else s
    if bitN v 31 then s else (s.basAbort k).putFlag .BAS_CFG_EN k false
  else
    let s := basCfgFields.foldl (fun t f => t.setFld f.1 k (bitsN v f.2.1 f.2.2)) s
    if bitN v 31 then
      if s.basRefused k v then s.raise .BAS_STAT_REFUSED k
      else (s.raise .BAS_CFG_EN k).modBasin k fun b => { b with dupOpen := none }
    else s

/-- A write of BAS_CMD (R210, R211): CLOSE before OPEN. -/
def State.basCmd (s : State) (k v : Nat) : State :=
  s.basAction k s.tnow (bitN v 1 || bitN v 2) (bitN v 0 || bitN v 2)

/-- BASIN_LATCH: the oldest closed window, 600 ns after its close (R212). -/
def State.basinLatch (s : State) (k : Nat) : State :=
  match (s.basin k).wins with
  | w :: r => match w.close with
    | some c => if c.1 + 600 ≤ s.tnow then (s.putWins k r).basLatch k w c.2 else s
    | none => s
  | [] => s

/-- A read of VALUE_LO begins a read in progress at its source (R216). -/
def State.readBegin (s : State) (src k : Nat) : State :=
  s.modBasin k fun b => { b with reading := Tab.put b.reading src (some s.tnow) }

/-- A read of TAG ends it (R216). -/
def State.readEnd (s : State) (src k : Nat) : State :=
  s.modBasin k fun b => { b with reading := Tab.put b.reading src none }

/-- READ_IN_PROGRESS_TIMEOUT (R216): 10 µs have passed. -/
def State.readTimeout (s : State) (src k : Nat) : State :=
  match Tab.find (s.basin k).reading src with
  | some t => if t + 10000 ≤ s.tnow then s.readEnd src k else s
  | none => s

/-- A read of TRK_MAX latches the tracker's other words for its source (R222). -/
def State.trkRead (s : State) (src k : Nat) : State :=
  let tag := s.fld .TRK_TAG_CYC k * 2 ^ 24 + s.fld .TRK_TAG_SEQ k * 2 ^ 16 + s.fld .TRK_TAG_ANG_INVALID k * 2
    + s.fld .TRK_TAG_EMPTY k
  let held := [s.fld .TRK_MAX_ANG k, s.fld .TRK_MIN k, s.fld .TRK_MIN_ANG k, tag]
  { s with trkLatch := Tab.put s.trkLatch (128 * src + k) (some held) }

/-- A write of TRK_CFG (R221): as for a basin, EN with the filtered tap of another entry than 0 is refused and stays 0.
(DEDUCED, log entry 54). -/
def State.trkCfg (s : State) (k v : Nat) : State :=
  let fs : List (Fld × Nat × Nat) := [(.TRK_CFG_MODE, 30, 29), (.TRK_CFG_DOMAIN, 27, 26), (.TRK_CFG_BASIN, 24, 16),
    (.TRK_CFG_TAP, 9, 9), (.TRK_CFG_CONV, 8, 4), (.TRK_CFG_ENTRY, 3, 0)]
  (fs.foldl (fun t f => t.setFld f.1 k (bitsN v f.2.1 f.2.2)) s).putFlag .TRK_CFG_EN k
    (bitN v 31 && !(bitN v 9 && bitsN v 3 0 != 0))

/-! ### Weight banks (R220) -/

/-- WT_CMD.SWAP. -/
def State.wtSwap (s : State) (d : Nat) : State := s.raise .WT_STAT_SWAP_PENDING d

/-- A write to bank `b` of domain `d` takes effect. -/
def State.weightOpen (s : State) (d b : Nat) : Bool :=
  if b = s.fld .WT_STAT_FRONT d then s.mapsOpen d
  else !s.flag .WT_STAT_SWAP_PENDING d && !s.flag .WT_STAT_SETTLING d

/-- A pending swap at a cycle boundary. -/
def State.weightBoundary (s : State) (d : Nat) : State :=
  if s.flag .WT_STAT_SWAP_PENDING d then
    let s := s.setFld .WT_STAT_FRONT d (1 - s.fld .WT_STAT_FRONT d)
    let s := (s.putFlag .WT_STAT_SWAP_PENDING d false).raise .WT_STAT_SETTLING d
    { s with weightSwap := Tab.put s.weightSwap d (some s.tnow) }
  else s

/-- SETTLING_END: 2 µs after the swap. -/
def State.settleEnd (s : State) (d : Nat) : State :=
  match Tab.find s.weightSwap d with
  | some t => if t + 2000 ≤ s.tnow then s.putFlag .WT_STAT_SETTLING d false else s
  | none => s

end Sys2Proof.Machine
end

