-- ==== Sys2Proof/Machine/Phiad.lean ====
section
/-! DEFINITION. What the Phiad instructions share: issue and its interlocks, results, map memory, and the
angle-program instructions (R78 to R138). -/

namespace Sys2Proof.Machine

/-! ### Issue (R78, R85, R95, R108) -/

/-- An instruction as it issues: sequencer, place, word and sequencer cycle. -/
structure Issue where
  n : Nat
  pc : Nat
  bank : Nat
  word : Nat
  c : Nat

/-- The issue of an instruction: its stall counted, a single-bit program error corrected (R85), PC and the earliest next
issue advanced (R95, R108). -/
def State.begin (s : State) (i : Issue) (ready : Nat) : State :=
  let s := s.bumpBy .SEQ_CNT_STALL i.n (ready - max (s.seq i.n).nextIssue (s.seq i.n).stallCounted)
  let s := if Tab.get 0 s.progErr (progAddr i.n i.bank i.pc) = 1 then s.bump .SEQ_CNT_ECC i.n else s
  s.modSeq i.n fun q =>
    { q with pc := (i.pc + 1) % 2048, nextIssue := i.c + 1, waite := none, safeAt := none }

/-- The instant of an issue: time passes to the issue cycle where the instruction stalls up to it (R95).
(DESIGN CHOICE, log entry 1). -/
def State.atIssue (s : State) (n : Nat) (o : PhOp) (w : Nat) : State := s.passTo (s.issueCycle n o w)

/-- The instruction at PC of sequencer `n` issues if it is `o`, and does `body` in its issue cycle. -/
def State.phiad (s : State) (n : Nat) (o : PhOp) (body : State → Issue → State) : State :=
  let q := s.seq n
  let w := s.word (s.pcAddr n)
  if s.canIssue n && Tab.get 0 s.progErr (s.pcAddr n) != 2 && phDecode w == some o && !q.mapBlocks o w then
    let i : Issue := { n, pc := q.pc, bank := q.bank, word := w, c := s.issueCycle n o w }
    body ((s.atIssue n o w).begin i (s.readyCycle n o w)) i
  else s

/-- A result written to RD, readable `lat` cycles after issue (R95). -/
def State.result (s : State) (i : Issue) (rd v lat : Nat) : State :=
  (s.setX i.n rd v).modSeq i.n fun q =>
    { q with ready := if rd = 0 then q.ready else Tab.put q.ready rd (some (i.c + lat)) }

/-- The values of RS1 and RS2, and of the register named in bits [25:22]. -/
def State.rs1 (s : State) (i : Issue) : Nat := s.x i.n (phB i.word)
def State.rs2 (s : State) (i : Issue) : Nat := s.x i.n (phC i.word)
def State.rd (s : State) (i : Issue) : Nat := s.x i.n (phA i.word)

/-! ### Arithmetic (R96 to R98, R103) -/

/-- A register value read as signed. -/
def sgn (v : Nat) : Int := sextN 32 v

/-- An ALU instruction: RD takes a function of rs1, rs2 and rd (R96). -/
def State.alu (s : State) (i : Issue) (f : Nat → Nat → Nat → Nat) : State :=
  s.result i (phA i.word) (f (s.rs1 i) (s.rs2 i) (s.rd i)) 1

/-- A comparison as a register value. -/
def truth (b : Bool) : Nat := b2n b

/-- An immediate instruction: RD takes a function of rs1 and IMM18 (R97). -/
def State.aluImm (s : State) (i : Issue) (f : Nat → Nat → Nat) : State :=
  s.result i (phA i.word) (f (s.rs1 i) (phImm i.word)) 1

/-- A 32-bit value rotated right. -/
def rotr (v k : Nat) : Nat := v / 2 ^ k + v % 2 ^ k * 2 ^ (32 - k)

/-- A product written over RD and RD + 1 (R98). -/
def State.wide (s : State) (i : Issue) (p : Nat) : State :=
  let rd := phA i.word
  (s.result i rd (p % 2 ^ 32) 3).result i (rd + 1) (p / 2 ^ 32) 3

/-- The signed product of R98. -/
def State.sprod (s : State) (i : Issue) : Int := sgn (s.rs1 i) * sgn (s.rs2 i)

/-- The divider is busy for `lat` cycles (R95). -/
def State.divBusy (s : State) (i : Issue) (lat : Nat) : State := s.modSeq i.n fun q => { q with divFree := i.c + lat }

/-- A division: a divisor of 0 gives `over0` and sets DIV0 (R98). -/
def State.divide (s : State) (i : Issue) (f : Nat → Nat → Nat) (over0 : Nat) : State :=
  let b := s.rs2 i
  let s' := (s.divBusy i 16).result i (phA i.word) (if b = 0 then over0 else f (s.rs1 i) b) 16
  if b = 0 then s'.coreFault i.n i.pc i.bank .div0 else s'

/-- RATE in the word of TNOW `t` (R57, R81). -/
def State.rateAt (s : State) (d t : Nat) : Nat :=
  let g := (s.dom d).segAt t
  if g.valid then g.rate else 0

/-- RATE as an instruction samples it: in the first event-clock cycle of its issue (R81). -/
def State.rateOfIssue (s : State) (i : Issue) : Nat := s.rateAt (s.seqDomain i.n) (2 * i.c)

/-- A2T (R103). -/
def State.a2t (s : State) (i : Issue) : State :=
  let r := s.rateOfIssue i
  let v := if r = 0 then 2 ^ 32 - 1 else min (2 ^ 32 - 1) (roundDiv (s.rs1 i * 65536) r)
  let s := (s.divBusy i 18).result i (phA i.word) v 18
  if r = 0 then s.coreFault i.n i.pc i.bank .norate else s

/-- T2A (R103). -/
def State.t2a (s : State) (i : Issue) : State :=
  let r := s.rateOfIssue i
  let v := if r = 0 then 0 else min (2 ^ 32 - 1) (roundDiv (s.rs1 i * r) 65536)
  let s := s.result i (phA i.word) v 4
  if r = 0 then s.coreFault i.n i.pc i.bank .norate else s

/-- A special register sampled in the word of TNOW `t` (R80, R81). -/
def State.special (s : State) (d k t : Nat) : Nat :=
  match k with
  | 0 => (s.angleAt d t).1
  | 1 => s.rateAt d t
  | 2 => s.accelAt d t
  | 3 => s.cycAt d t
  | _ => t % 2 ^ 32

/-! ### Branches (R100) -/

/-- PC set by a taken branch or a jump, which costs 3 cycles. -/
def State.jumpTo (s : State) (i : Issue) (target : Int) : State :=
  s.modSeq i.n fun q => { q with pc := wrapI 11 target, nextIssue := i.c + 3 }

/-- A branch: the condition compares the registers in bits [25:22] and [21:18]. -/
def State.branch (s : State) (i : Issue) (p : Nat → Nat → Bool) : State :=
  if p (s.rd i) (s.rs1 i) then s.jumpTo i ((i.pc : Int) + sextN 14 (phImm14 i.word)) else s

/-- The modular comparison of R100. -/
def modLess (a b : Nat) : Bool := decide (2 ^ 31 ≤ (a + 2 ^ 32 - b) % 2 ^ 32)

/-! ### Data and map memory (R86 to R91, R99 to R102) -/

/-- The effective address of R99. -/
def State.effAddr (s : State) (i : Issue) : Nat := wrapI 32 ((s.rs1 i : Int) + sextN 18 (phImm i.word))

/-- An ADDR fault of a load: its result is 0 (R99, R105). -/
def State.addrFault (s : State) (i : Issue) : State :=
  (s.result i (phA i.word) 0 2).coreFault i.n i.pc i.bank .addr

/-- LW. -/
def State.loadWord (s : State) (i : Issue) : State :=
  let a := s.effAddr i
  if a < 1024 then s.result i (phA i.word) (s.word (dmemAddr i.n a)) 2 else s.addrFault i

/-- SW: a byte that another source has written in the same sequencer cycle keeps that value, as after the store (R87). The
store is discarded on a fault (R99). -/
def State.storeWord (s : State) (i : Issue) : State :=
  let a := s.effAddr i
  if a < 1024 then s.setBytes (dmemAddr i.n a) (s.openBytes i.c (dmemAddr i.n a) 0) (s.rd i)
  else s.coreFault i.n i.pc i.bank .addr

/-- A MAPM transaction posted (R90). -/
def State.postMap (s : State) (i : Issue) (kind : MapKind) (addr input : Nat) : State :=
  s.modSeq i.n fun q =>
    { q with mapReq := some { kind, rd := phA i.word, addr, input, pc := i.pc, bank := i.bank, cycle := i.c } }

/-- LMU, LMS and LMW: `align` bytes, aligned, inside MAPM (R99). -/
def State.loadMap (s : State) (i : Issue) (kind : MapKind) (align : Nat) : State :=
  let a := s.effAddr i
  if a % align = 0 ∧ a < 0x40000 then s.postMap i kind a 0 else s.addrFault i

/-- MAP2 at issue: the alignment of its base; a base outside MAPM has no header to read (R102) (DEDUCED, log entry 18). -/
def State.issueMap2 (s : State) (i : Issue) : State :=
  let base := (s.rs2 i + 16 * phImm14 i.word) % 2 ^ 32
  if base % 16 = 0 ∧ base < 0x40000 then s.postMap i .map2 base (s.rs1 i) else s.addrFault i

/-- A half-word of MAPM. -/
def State.mapHalf (s : State) (a : Nat) : Nat := s.half (mapmAddr a)

/-- The segment of an axis for a clamped input, and the fraction in it: base of the breakpoints, their number, the input,
and the clamped input where the first breakpoint exceeds the last, for which the manual states none (R102). None where
the chosen segment does not ascend (DEDUCED, log entry 18). -/
def State.segment (s : State) (a n x free : Nat) : Option (Nat × Nat) :=
  let bp := fun k => s.mapHalf (a + 2 * k)
  let v := if bp (n - 1) < bp 0 then free else clampN (bp 0) (bp (n - 1)) x
  let i := (upto (n - 1)).foldl (fun b k => if bp k ≤ v then k else b) 0
  if bp (i + 1) ≤ bp i then none else some (i, (v - bp i) * 65536 / (bp (i + 1) - bp i))

/-- The interpolation of R102 between four corners. -/
def bilinear (p00 p10 p01 p11 : Int) (fx fy : Nat) : Int :=
  let r0 := p00 * (65536 - fx : Int) + p10 * fx
  let r1 := p01 * (65536 - fx : Int) + p11 * fx
  (r0 * (65536 - fy : Int) + r1 * fy + 32768) / 65536

/-- The header of a descriptor is legal (R101, R102). -/
def State.mapHeader (s : State) (base : Nat) : Bool :=
  let nx := s.mapHalf base
  let ny := s.mapHalf (base + 2)
  decide (2 ≤ nx) && decide (nx ≤ 64) && decide (2 ≤ ny) && decide (ny ≤ 64) && decide (s.mapHalf (base + 4) ≤ 1)
    && (upto 5).all fun k => s.mapHalf (base + 6 + 2 * k) == 0

/-- MAP2 (R102): its result or the fault of its first failing check. -/
def State.map2 (s : State) (base input : Nat) : CoreFault ⊕ Nat :=
  if !s.mapHeader base then .inl .mapFmt
  else
    let nx := s.mapHalf base
    let ny := s.mapHalf (base + 2)
    let xs := base + 16
    let ys := xs + 2 * nx
    let ps := ys + 2 * ny
    if 0x40000 < ps + 2 * nx * ny then .inl .addr
    else
      let free := (Config.mapOut base input).toNat
      match s.segment xs nx (input % 65536) (free % 65536), s.segment ys ny (input / 65536) (free / 65536) with
      | some x, some y =>
        let signed := s.mapHalf (base + 4) == 1
        let pt := fun i j =>
          let h := s.mapHalf (ps + 2 * (j * nx + i))
          if signed then sextN 16 h else (h : Int)
        .inr (wrapI 32 (bilinear (pt x.1 y.1) (pt (x.1 + 1) y.1) (pt x.1 (y.1 + 1)) (pt (x.1 + 1) (y.1 + 1)) x.2 y.2))
      | _, _ => .inl .mapFmt

/-- The result of a transaction: a value or a core fault. -/
def State.mapRead (s : State) (r : MapReq) : CoreFault ⊕ Nat :=
  match r.kind with
  | .lmu => .inr (s.mapHalf r.addr)
  | .lms => .inr (wrapI 32 (sextN 16 (s.mapHalf r.addr)))
  | .lmw => .inr (s.word (mapmAddr r.addr))
  | .map2 => s.map2 r.addr r.input

/-- The cycles from the start of a transaction to its result (R90). -/
def MapKind.lat : MapKind → Nat
  | .map2 => 12
  | _ => 2

/-- The sequencer that MAPM starts next: the first that waits, in round-robin order (R90). -/
def State.mapTurn (s : State) : Option Nat :=
  ((upto 24).map fun k => (s.mapm.next + k) % 24).find? fun n => (s.seq n).mapReq.isSome

/-- What the ECC of the words read reports: corrections counted, a double-bit error recorded (R91). -/
def State.mapEcc (s : State) (r : MapReq) (e : Ecc) : State :=
  match e with
  | .clean => s
  | .corrected k => s.bumpBy .MAPM_ECC_CNT_CORR 0 k
  | .double a k =>
    (s.bumpBy .MAPM_ECC_CNT_CORR 0 k).setFld .MAPM_ECC_ADDR 0 ((if r.kind = .map2 then a.toNat else r.addr) / 8 * 8)

/-- The sequencer cycle in which a transaction starts: one starts in each cycle (R90). -/
def State.mapStart (s : State) (r : MapReq) : Nat := max (max r.cycle s.mapm.free) s.cyc

/-- MAPM_TRANSACTION of sequencer `n`, in its turn: it starts, and its result is there after its latency
(R89 to R91, R102). -/
def State.mapTransaction (s : State) (n : Nat) (e : Ecc) : State :=
  match (s.seq n).mapReq with
  | some r =>
    if s.mapTurn = some n then
      let c := s.mapStart r
      let s := s.passTo c
      let v : CoreFault ⊕ Nat := match e with
        | .double _ _ => .inl .mapEcc
        | _ => s.mapRead r
      let t := s.mapEcc r e
      let s := { t with mapm := { t.mapm with next := (n + 1) % 24, free := c + 1 } }
      let s := s.modSeq n fun q => { q with mapReq := none, mapFree := c + 1 }
      let i : Issue := { n, pc := r.pc, bank := r.bank, word := 0, c }
      match v with
      | .inr x => s.result i r.rd x r.kind.lat
      | .inl f => (s.result i r.rd 0 r.kind.lat).coreFault n r.pc r.bank f
    else s
  | none => s

/-! ### Faults of the fetch (R85, R93) -/

/-- A halting fault of the fetched instruction, which has no effect. -/
def State.fetchFault (s : State) (n : Nat) (f : CoreFault) : State :=
  let q := s.seq n
  let s := s.passTo q.nextIssue
  (s.modSeq n fun q => { q with waite := none, safeAt := none }).coreFault n q.pc q.bank f

/-- ILLEGAL: the fetched word is no instruction. -/
def State.illegalStep (s : State) (n : Nat) : State :=
  if s.canIssue n && Tab.get 0 s.progErr (s.pcAddr n) != 2 && (phDecode (s.word (s.pcAddr n))).isNone
  then s.fetchFault n .illegal else s

/-- PROG_ECC: the fetch meets an error, which stays in the word until a host write. A double-bit error is a fault; a
single-bit error is corrected and counted at every fetch of the word, as the instruction issues. -/
def State.progEccStep (s : State) (n : Nat) (double : Bool) : State :=
  if s.canIssue n then
    if double then ({ s with progErr := Tab.put s.progErr (s.pcAddr n) (some 2) } : State).fetchFault n .progEcc
    else { s with progErr := Tab.put s.progErr (s.pcAddr n) (some (max 1 (Tab.get 0 s.progErr (s.pcAddr n)))) }
  else s

/-! ### Slots (R109 to R120, R133, R134) -/

/-- The budget clock runs, which it does in every task, and has not expired by cycle `c`; under an allowance of 0 it never
does (R128, R129, R133). -/
def State.budgetLeft (s : State) (n c : Nat) : Bool :=
  s.flag .SEQ_TASK_STAT_IN_TASK n && (!s.flag .SEQ_BUDGET_ALLOW n || (!(s.seq n).expired
    && decide (c < (s.seq n).taskStart + s.fld .SEQ_BUDGET_ALLOW n)))

/-- An arming instruction is skipped whole (R133): `rd` receives 0xFFFF_FFFF where the instruction has one. -/
def State.skipSlot (s : State) (i : Issue) (o : PhOp) : State :=
  let s := s.taskFault i.n .SEQ_TASK_FLT_SLOT_EXHAUST (some .SEQ_CNT_EXHAUST)
  match o.dest i.word with
  | some rd => s.result i rd 0xFFFFFFFF 1
  | none => s

/-- The instruction at PC stays where it is, in STALL. -/
def State.stallAt (s : State) (i : Issue) (f : Seq → Seq) : State :=
  s.modSeq i.n fun q => f { q with state := .stall, pc := i.pc, nextIssue := i.c }

/-- An instruction that needs `k` free slots proceeds, stalls or is skipped (R133). -/
def State.withSlots (s : State) (i : Issue) (o : PhOp) (k : Nat) (go : State → State) : State :=
  if k ≤ (s.freeSlots i.n).length then go s
  else if s.budgetLeft i.n i.c then s.stallAt i fun q => { q with slotStall := true }
  else s.skipSlot i o

/-- The lowest free slot. -/
def State.firstFree (s : State) (n : Nat) : Nat := (s.freeSlots n).headD 0

/-- The kind of slot that an ACT code arms (R104). -/
def armKind (timed : Bool) (act : Nat) : SlotKind :=
  match act, timed with
  | 0, false => .aSet
  | 1, false => .aClear
  | 2, false => .aOpen
  | 3, false => .aClose
  | 0, true => .tSet
  | 1, true => .tClear
  | 2, true => .tOpen
  | 3, true => .tClose
  | _, false => .aFlag
  | _, true => .tFlag

/-- The channel, basin or flag that an ARM names (R104). -/
def State.armArg (s : State) (i : Issue) : Nat :=
  match phAct i.word with
  | 0 | 1 => phCh i.word
  | 2 | 3 => s.rs2 i % 512
  | _ => phFl i.word

/-- ARM and ARMT (R112 to R114). -/
def State.armBody (s : State) (i : Issue) (timed : Bool) : State :=
  let rd := phA i.word
  if phAct i.word ≤ 1 ∧ s.owner (phCh i.word) ≠ some i.n then
    (s.taskFault i.n .SEQ_TASK_FLT_BAD_CHANNEL none).result i rd 0xFFFFFFFF 1
  else s.withSlots i (if timed then .armt else .arm) 1 fun s =>
    let k := s.firstFree i.n
    let s' := s.armSlot i.n k { kind := armKind timed (phAct i.word), target := s.rs1 i, arg := s.armArg i }
    s'.result i rd (s'.handle i.n k) 1

/-- The limit of a PULSE is at least 1 AU and less than 2^31 AU ahead of its start (R117). -/
def limitOk (start limit : Nat) : Bool :=
  decide (1 ≤ fwd start limit) && decide (fwd start limit < 2 ^ 31)

/-- PULSE (R112, R115 to R118). -/
def State.pulseBody (s : State) (i : Issue) : State :=
  let noLimit := bitN i.word 0
  let ch := phCh i.word
  let badCh := s.owner ch != some i.n
  let badLim := !noLimit && !limitOk (s.rs1 i) (s.rd i)
  if badCh || badLim then
    let s := if badCh then s.taskFault i.n .SEQ_TASK_FLT_BAD_CHANNEL none else s
    if badLim then s.taskFault i.n .SEQ_TASK_FLT_BAD_LIMIT none else s
  else s.withSlots i .pulse (if noLimit then 1 else 2) fun s =>
    let k := s.firstFree i.n
    let dur := max 8 (s.rs2 i)
    let start := s.rs1 i
    if noLimit then s.armSlot i.n k { kind := .pulseStart, target := start, arg := ch, dur }
    else
      let lim := s.rd i
      let s := s.armSlot i.n k { kind := .pulseStart, target := start, arg := ch, dur }
      let j := s.firstFree i.n
      let s := s.armSlot i.n j { kind := .pulseLimit, target := lim, arg := ch, partner := some k, waiting := true }
      s.setSlot i.n k { s.slot i.n k with partner := some j }

/-- CANCEL (R119, R120): RD receives the number of slots cancelled (DEDUCED, log entry 17). -/
def State.cancelBody (s : State) (i : Issue) (p : State → Slot → Nat → Bool) : State :=
  let r := (upto 64).foldl (fun (r : State × Nat) k =>
    if p r.1 (r.1.slot i.n k) k then
      let c := r.1.cancelSlot i.n k
      (c.1, r.2 + c.2)
    else r) (s, 0)
  r.1.result i (phA i.word) r.2 4

/-! ### Waits (R122 to R127) -/

/-- The sequencer enters WAIT: the mode follows R184. -/
def State.enterWait (s : State) (n : Nat) (w : Wait) : State :=
  ((s.countRun n).modSeq n fun q => { q with state := .wait, wait := w }).modeSettle n

/-- WAITA and WAITT (R124). -/
def State.waitSlot (s : State) (i : Issue) (timed : Bool) : State :=
  s.withSlots i (if timed then .waitt else .waita) 1 fun s =>
    let k := s.firstFree i.n
    let s := s.armSlot i.n k { kind := if timed then .tWake else .aWake, target := s.rs1 i }
    s.enterWait i.n (.slot (phA i.word) k)

/-- A WAITE whose condition does not hold yet; a pending swap without boundaries takes it (R140). -/
def State.enterWaite (s : State) (n : Nat) (w : Wait) : State := (s.enterWait n w).swapSettle n

/-- A WAITE whose condition holds at issue completes at once (R122, R140). -/
def State.waiteNow (s : State) (i : Issue) (v : Nat) (tooth : Option Nat) (flags : Nat) : State :=
  (s.completeWaite i.n (phA i.word) v (i.c + 1) tooth flags).swapSettle i.n

/-- WAITE TOOTH (R125, R128, R130). -/
def State.waiteToothBody (s : State) (i : Issue) : State :=
  let s := s.endTask i.n i.c
  if s.flag .SEQ_TASK_STAT_TOOTH_PENDING i.n then
    let v := (s.seq i.n).tooth + 65536 * s.fld .SEQ_TASK_STAT_COALESCE i.n
    ((s.dropTooth i.n).beginTask i.n i.c).waiteNow i v (some v) 0
  else s.enterWaite i.n (.tooth (phA i.word))

/-- The target of source `k` names sequencer `n` (R126). -/
def State.lineTargets (s : State) (k n : Nat) : Bool := s.fld .ICU_TGT_TYPE k == 6 && s.fld .ICU_TGT_IDX k == n

/-- WAITE on an ICU line (R126). -/
def State.waiteIcuBody (s : State) (i : Issue) : State :=
  let k := phImm14 i.word
  if !s.lineTargets k i.n then (s.taskFault i.n .SEQ_TASK_FLT_BAD_WAIT none).waiteNow i 0 none 0
  else if s.source k then s.waiteNow i 1 none 0
  else s.enterWaite i.n (.icu (phA i.word) k)

/-- FENCE_DONE of a source; a number that names none reads 0 (R331) (DEDUCED, log entry 50). -/
def State.fenceDone (s : State) (src : Nat) : Nat := if src < 56 then s.fld .FENCE_DONE src else 0

/-- FENCE_DONE lies at or past a token (R127). -/
def fenceReached (done token : Nat) : Bool := decide ((done + 65536 - token) % 65536 < 2 ^ 15)

/-- WAITE FENCE (R127). -/
def State.waiteFenceBody (s : State) (i : Issue) : State :=
  let k := phImm14 i.word
  let tok := s.rs1 i % 65536
  if fenceReached (s.fenceDone k) tok then s.waiteNow i (s.fenceDone k) none 0
  else s.enterWaite i.n (.fence (phA i.word) k tok)

/-- WAITE FLAG (R127). -/
def State.waiteFlagBody (s : State) (i : Issue) : State :=
  let m := s.rs1 i % 65536
  let got := s.fld .SEQ_FLAGS i.n &&& m
  if m = 0 ∨ got ≠ 0 then (s.clearBits .SEQ_FLAGS i.n got).waiteNow i got none got
  else s.enterWaite i.n (.flag (phA i.word) m)

/-- WAITE_WAKE: the condition of a wait on a line, a fence or flags has become true (R123, R126, R127). The application of
a mode ends a wait for an epoch itself. -/
def State.waiteWake (s : State) (n : Nat) : State :=
  match (s.seq n).wait with
  | .icu rd k => if s.source k && s.lineTargets k n then s.completeWaite n rd 1 (s.cyc + 1) none 0 else s
  | .fence rd k tok =>
    if fenceReached (s.fenceDone k) tok then s.completeWaite n rd (s.fenceDone k) (s.cyc + 1) none 0 else s
  | .flag rd m =>
    let got := s.fld .SEQ_FLAGS n &&& m
    if got = 0 then s else (s.clearBits .SEQ_FLAGS n got).completeWaite n rd got (s.cyc + 1) none got
  | _ => s

/-- TASK_START: a WAITE TOOTH that a tooth event has ended completes (R123, R125, R128). -/
def State.taskStart (s : State) (n : Nat) : State :=
  let q := s.seq n
  match q.wait with
  | .tooth rd => if q.woken then s.completeWaite n rd q.tooth (s.cyc + 1) (some q.tooth) 0 else s
  | _ => s

/-! ### SYS (R104, R129, R132, R135 to R138) -/

/-- SAFEPT (R135, R140). -/
def State.safeptBody (s : State) (i : Issue) : State :=
  let s := (s.modSeq i.n fun q => { q with safeAt := some i.c }).modeApply i.n
  if s.flag .SEQ_SWAP_STAT_PENDING i.n && (s.dom (s.seqDomain i.n)).boundAt.any (fun t => t / 2 == i.c)
  then s.swapRunning i.n else s

/-- A token of a source (R332): everything the source sent before it has taken effect. -/
def State.fenceToken (s : State) (src tok : Nat) : State := s.setFld .FENCE_DONE src tok

/-- BUDGET's allowance in sequencer cycles (R104). -/
def allowance (sum : Nat) : Nat := min (sum * 8) (2 ^ 32 - 8)

/-- BUDGET (R129): a clock that has not reached the new allowance has not expired (DEDUCED, log entry 15). -/
def State.budgetBody (s : State) (i : Issue) : State :=
  let a := allowance ((s.rs1 i + phImm i.word) % 2 ^ 32)
  (s.setFld .SEQ_BUDGET_ALLOW i.n a).modSeq i.n fun q => { q with expired := q.expired && decide (a ≤ i.c - q.taskStart) }

/-- YIELD (R132). -/
def State.yieldBody (s : State) (i : Issue) : State :=
  if s.flag .SEQ_TASK_STAT_IN_TASK i.n then (s.endTask i.n i.c).raise .SEQ_TASK_STAT_YIELDED i.n else s

/-- What refuses a HANDOVER at once (R138). -/
def State.handoverBad (s : State) (n ch dst : Nat) : Bool :=
  decide (95 < ch) || s.owner ch != some n || decide (23 < dst) || dst == n || s.seqDomain dst != s.seqDomain n

/-- Ownership passes; the channel keeps its level, and its driver follows the new owner (R138, R166). -/
def State.passOwner (s : State) (ch dst : Nat) : State := (s.setFld .OUT_OWNER_SEQ ch dst).redriveChan ch

/-- HANDOVER (R121, R138) (DEDUCED, log entry 28). -/
def State.handoverBody (s : State) (i : Issue) : State :=
  let ch := phImm i.word % 128
  let dst := s.rs1 i % 32
  let s := s.modSeq i.n fun q => { q with nextIssue := i.c + 4 }
  if s.handoverBad i.n ch dst then s.taskFault i.n .SEQ_TASK_FLT_HANDOVER_FAIL none
  else if (s.refers i.n ch).isEmpty then s.passOwner ch dst
  else if s.budgetLeft i.n i.c then s.stallAt i fun q => { q with handover := some (ch, dst) }
  else s.taskFault i.n .SEQ_TASK_FLT_HANDOVER_FAIL none

/-- A stalled instruction goes on in the present cycle: its stall counted, its issue as at first (R108, R133). -/
def State.unstall (s : State) (n cost : Nat) : State × Issue :=
  let q := s.seq n
  let c := max s.cyc q.nextIssue
  let i : Issue := { n, pc := q.pc, bank := q.bank, word := s.word (s.pcAddr n), c }
  let s := s.bumpBy .SEQ_CNT_STALL n (c - max q.nextIssue q.stallCounted)
  (s.modSeq n fun q =>
    { q with state := .run, slotStall := false, handover := none, pc := (i.pc + 1) % 2048
             nextIssue := max (c + 1) (q.nextIssue + cost) }, i)

/-- HANDOVER_TRANSFER: no armed slot refers to the channel any more (R138) (DEDUCED, log entry 28). -/
def State.handoverDone (s : State) (n : Nat) : State :=
  match (s.seq n).handover with
  | some h =>
    if (s.refers n h.1).isEmpty then
      let s := (s.unstall n 4).1
      if s.handoverBad n h.1 h.2 then s.taskFault n .SEQ_TASK_FLT_HANDOVER_FAIL none else s.passOwner h.1 h.2
    else s
  | none => s

/-- What an arming instruction needs and does (R133), for its issue and its resumption. -/
def State.slotBody (s : State) (o : PhOp) (i : Issue) : State :=
  match o with
  | .arm => s.armBody i false
  | .armt => s.armBody i true
  | .pulse => s.pulseBody i
  | .waita => s.waitSlot i false
  | .waitt => s.waitSlot i true
  | _ => s

/-- The free slots that a stalled instruction waits for. -/
def slotNeed (o : PhOp) (w : Nat) : Nat := if o = .pulse ∧ bitN w 0 = false then 2 else 1

/-- The cycle from which a stalled instruction can take `k` slots: the one after the lowest of them came free (R109). -/
def State.slotsFrom (s : State) (n k : Nat) : Nat :=
  ((s.freeSlots n).take k).foldl (fun c j => max c (s.slot n j).freeFrom) 0

/-- SLOT_STALL_RESUME: enough slots are free (R109, R133). -/
def State.slotResume (s : State) (n : Nat) : State :=
  let w := s.word (s.pcAddr n)
  match phDecode w with
  | some o =>
    if (s.seq n).slotStall && decide (slotNeed o w ≤ (s.freeSlots n).length) then
      let u := (s.passTo (s.slotsFrom n (slotNeed o w))).unstall n 1
      u.1.slotBody o u.2
    else s
  | none => s

/-- BUDGET_EXPIRY (R129, R133, R138): the clock has reached the allowance (DEDUCED, log entry 15). -/
def State.budgetExpiry (s : State) (n : Nat) : State :=
  let q := s.seq n
  let a := s.fld .SEQ_BUDGET_ALLOW n
  if s.flag .SEQ_TASK_STAT_IN_TASK n && a != 0 && !q.expired && decide (q.taskStart + a ≤ max s.cyc q.nextIssue) then
    let s := s.taskFault n .SEQ_TASK_FLT_BUDGET_OVER (some .SEQ_CNT_BUDGET)
    let s := s.modSeq n fun q => { q with expired := true }
    if q.slotStall then
      let u := s.unstall n 1
      match phDecode u.2.word with
      | some o => u.1.skipSlot u.2 o
      | none => u.1
    else if q.handover.isSome then (s.unstall n 4).1.taskFault n .SEQ_TASK_FLT_HANDOVER_FAIL none
    else s
  else s

end Sys2Proof.Machine
end

