-- ==== Sys2Proof/Machine/Pair.lean ====
section
/-! DEFINITION. The redundant pair: DEN and the recovery manager, the LEAD token, heartbeats and reliable frames,
takeover, planned handover and the course of a join (R363 to R391). -/

namespace Sys2Proof.Machine

/-- A pair state entered; a SOLO module keeps its own (R365). -/
def State.setPstate (s : State) (st : Nat) : State := if s.isSolo then s else s.setFld .PAIR_STAT_STATE 0 st

/-! ### Heartbeats (R377) -/

/-- ACK of a heartbeat: the last reliable frame received in order. -/
def State.ackNow (s : State) : Nat := (s.pair.rxSeq + 65535) % 65536

/-- STATE of a heartbeat. -/
def State.hbState (s : State) : Nat :=
  s.mode + 8 * s.fld .MODE_STAT_TRANSITION + (upto 4).foldl (fun a d => a + s.dstate d * 2 ^ (4 + 2 * d)) 0 + 4096 * s.pstate

/-- A heartbeat sent now; `rel` says whether this one carries RELEASED. -/
def State.sendHb (s : State) (rel : Bool) : State :=
  let flags := b2n s.pair.token + 2 * b2n (rel || s.pair.released) + 4 * b2n s.den.ok
  (s.sendFrame (.heartbeat flags s.ackNow s.hbState)).modPair fun p => { p with hbSentAt := s.tnow }

/-- HEARTBEAT_SEND: one every 1 µs ± 0.1 µs. -/
def State.hbSend (s : State) : State := if s.pair.hbSentAt + 900 ≤ s.tnow then s.sendHb false else s

/-! ### The token (R365, R369, R382) -/

/-- A change of the token recorded in PAIR_TAKE, PAIR_TAKE_TIME and the error log. -/
def State.recordTake (s : State) (took : Bool) (cause : Nat) : State :=
  let s := (s.putFlag .PAIR_TAKE_TOOK 0 took).setFld .PAIR_TAKE_CAUSE 0 cause
  (s.setFld .PAIR_TAKE_TIME_TNOW 0 s.tnow).log 9 0 cause (if took then 2 ^ 31 else 0)

/-- The module takes the token: the Lead, whose drivers may then drive (R18, R166). -/
def State.takeToken (s : State) (cause : Nat) : State :=
  let s := (s.recordTake true cause).raise .PAIR_STAT_ROLE
  ((s.modPair fun p =>
    { p with token := true, leadPin := s.den.on, sentAccept := false, joinOpen := false, joinStarted := false, aim := none
             aimSent := none, ho := none }).setPstate stLead).redrive

/-- The module releases the token into a pair state, with LEAD deasserted and its drivers disabled (R18, R166).
(DEDUCED, log entry 44). -/
def State.releaseToken (s : State) (cause st : Nat) : State :=
  let s := (s.recordTake false cause).putFlag .PAIR_STAT_ROLE 0 false
  ((s.modPair fun p => { p with token := false, leadPin := false }).setPstate st).redrive

/-- What paths 6 and 7 do to the token: a module of a pair releases it, is ISOLATED and says so in a heartbeat; a SOLO
module keeps it, with LEAD deasserted (R161, R365, R377, R384, R387) (DESIGN CHOICE, log entry 14). -/
def State.pathRelease (s : State) (cause : Nat) : State :=
  let s := s.hoAbort
  if s.pair.token && !s.isSolo then
    let s := (s.releaseToken cause stIsolated).pairEvt 1
    (s.modPair fun p => { p with released := true }).sendHb true
  else s.modPair fun p => { p with leadPin := false }

/-- LEAD_CONFLICT (R369): the module whose slot address has bit 0 at 1 gives way. -/
def State.leadConflict (s : State) : State :=
  let s := (s.raise .PAIR_STAT_PEER_LEAD).raise .PAIR_STAT_PEER_DEN_OK
  if s.pair.token && !s.isSolo && s.fld .PAIR_STAT_SLOT % 2 == 1 then (s.hoAbort.releaseToken 12 stIsolated).pairEvt 1 else s

/-! ### Joining: entry and end (R388, R389) -/

/-- Entry to JOINING: Standby requested, every sequencer reset, JOIN REQ sent. -/
def State.enterJoining (s : State) : State :=
  let s := (s.setPstate stJoining).modPair fun p =>
    { p with joinOpen := true, joinStarted := false, joinLen := 0, joinCrc := 0xFFFFFFFF, joinRun := [], aim := none, aimSent := none }
  let s := if s.mode = modeSeek ∨ s.mode = modeRun ∨ s.mode = modeLimp ∨ s.mode = modeClearing
    then (s.accept (s.mkChange modeStandby 0 none)).reachEpoch s.activeCount else s
  ((upto 24).foldl State.resetSeq s).sendReliable fun q => .join q 1 0 0

/-- A Follow in ISOLATED whose DEN toggles joins once the link is up. -/
def State.tryJoin (s : State) : State :=
  if s.pstate == stIsolated && s.linkUp && s.den.on && !s.pair.joinWait then s.enterJoining else s

/-- A join in progress ends without SHADOW: ISOLATED, until the link is next up. -/
def State.joinFail (s : State) : State :=
  ((s.setPstate stIsolated).modPair fun p =>
    { p with joinOpen := false, joinStarted := false, joinWait := true, aim := none, aimSent := none }).pairEvt 7

/-- The Follow passes to MATCHING; `edge` says whether a whole engine cycle begins with it. -/
def State.toMatching (s : State) (edge : Bool) : State :=
  (s.setPstate stMatching).modPair fun p => { p with aim := none, aimSent := none, cleanCyc := 0, cycOpen := edge }

/-- The Follow goes after the mode of the Lead: Standby is reached at once, every other mode by way of Seek (R389). -/
def State.joinFollow (s : State) : State :=
  match s.pair.aim with
  | none => s
  | some m =>
    if m = modeStandby then
      let s := if s.mode = modeStandby then s else (s.accept (s.mkChange modeStandby 0 none)).reachEpoch s.activeCount
      s.toMatching false
    else if s.mode = modeStandby ∧ m ≠ modeDormant then (s.accept (s.mkChange modeSeek 0 none)).reachEpoch s.activeCount
    else s

/-- The mode that the Lead reports, or sends, replaces the mode that a joining Follow aims for. -/
def State.aimAt (s : State) (m : Nat) : State :=
  if s.pstate == stJoining && s.pair.aim.isSome then (s.modPair fun p => { p with aim := some m }).joinFollow else s

/-- What a heartbeat reports of the Lead's mode (R389): it does not undo the target of a MODE frame that the Lead has yet to
reach (DEDUCED, log entry 44). -/
def State.aimReport (s : State) (m : Nat) : State :=
  match s.pair.aimSent with
  | some t => if m = t then s.modPair fun p => { p with aimSent := none } else s
  | none => s.aimAt m

/-- A MODE frame in JOINING: the Follow aims for its target, during the stream once the join set has arrived (R389). -/
def State.aimFrame (s : State) (m : Nat) : State := (s.modPair fun p => { p with aimSent := some m }).aimAt m

/-- A cycle boundary of domain `d` in a joining or matching Follow (R389). -/
def State.joinBoundary (s : State) (d : Nat) : State :=
  if s.fld .MODE_CFG_EPOCH_DOM ≠ d then s
  else if s.pstate = stJoining then
    match s.pair.aim with
    | none => s
    | some m =>
      if s.mode ≠ modeSeek ∨ s.allSync = false then s
      else if m = modeSeek then s.toMatching true
      else if m = modeRun then ((s.accept (s.mkChange modeRun 0 (some (d, 0)))).reachEpoch s.activeCount).toMatching true
      else if m = modeClearing then (s.requestClearing 9 s.activeCount).toMatching true
      else s
  else if s.pstate = stMatching then
    let n := s.pair.cleanCyc + 1
    if s.pair.cycOpen && decide (max 1 (s.fld .PAIR_CFG_JOIN_CYC) ≤ n) then
      ((s.setPstate stShadow).modPair fun p => { p with joinOpen := false, cleanCyc := 0, cycOpen := false }).pairEvt 7
    else s.modPair fun p =>
      { p with cleanCyc := if p.cycOpen then n else p.cleanCyc, cycOpen := s.dstate d == stSync }
  else s

/-! ### DEN and the recovery manager (R370 to R373, R399) -/

/-- The loops report lock and the reference is present (R371, R403): from the first instant after the release of the fast
clocks, and not while a clock failure lasts. -/
def State.locked (s : State) : Bool := s.live && !s.power.forced && decide (s.power.released < s.wsNs)

/-- A source with TYPE 7 and PRI 3 is asserted. -/
def State.rmgrHolds (s : State) : Bool := (s.assertedAt 7).any fun k => s.fld .ICU_TGT_PRI k == 3

/-- The first condition of R371 that fails; 0 while all hold. -/
def State.refreshFails (s : State) : Nat :=
  if !s.locked then 1
  else if s.wsNs < s.power.released + 10000
      ∨ (s.den.refreshAt.isSome ∧ s.den.withheld = false ∧ s.tnow < s.den.refreshTnow + 9000) then 2
  else if s.mode = modeDormant ∨ s.power.entering.isSome then 3
  else if s.flag .PAIR_CFG_DEN_HOLD then 4
  else if s.rmgrHolds then 5
  else 0

/-- RMGR_REFRESH (R370, R371): an accepted refresh starts DEN, a SOLO module takes the token with it (R368), and a Follow
that waits for it joins. While the wellspring's oscillator is out of its window it accepts none; the first that finds it back
restarts DEN (R399) (DESIGN CHOICE, log entry 21). -/
def State.refresh (s : State) : State :=
  let f := s.refreshFails
  if f ≠ 0 then
    let s := s.setFld .RMGR_STAT_HEALTH 0 f
    if f = 4 ∨ f = 5 then { s with den := { s.den with withheld := true } } else s
  else if s.power.oscBad && !Config.oscBack s.wsNs then s
  else
    let s := ({ s with power := { s.power with oscBad := false } }).bump .RMGR_CNT_REFRESH_CNT
    let ok := s.den.ok
    let s := { s with den := { s.den with
      on := true, level := if s.den.on then s.den.level else !s.den.level, startWs := if s.den.on then s.den.startWs else s.wsNs
      seen := true, silent := false, withheld := false, refreshAt := some s.wsNs, refreshTnow := s.tnow } }
    let s := if s.isSolo && !s.pair.token then s.takeToken 6 else if ok then s else s.redrive
    (s.modPair fun p => { p with leadPin := p.token && s.flag .PAIR_STAT_PRESENT || p.leadPin }).tryJoin

/-- The level of DEN: a half-period is 500 ns, and the first one begins at the start (R370). -/
def State.denLevel (s : State) : Bool :=
  if s.den.on then s.den.level != ((s.wsNs - s.den.startWs) / 500 % 2 == 1) else s.den.level

/-- The time since DEN's last edge, while it toggles. -/
def State.denSince (s : State) : Nat := (s.wsNs - s.den.startWs) % 500

/-- DEN stops at the level of its last edge (R370, R399). -/
def State.denOff (s : State) : State :=
  if s.den.on then
    { s with den := { s.den with
      on := false, level := s.denLevel, edgeAt := s.tnow - s.denSince, edgeWs := s.wsNs - s.denSince } }
  else s

/-- DEN_STOP: 15 ticks of the wellspring since the last accepted refresh (R370). -/
def State.denStop (s : State) : State :=
  match s.den.refreshAt with
  | some t => if t + 15000 ≤ s.wsNs then s.denOff else s
  | none => s

/-- Spillway path 7 (R161). -/
def State.path7 (s : State) : State :=
  (({ s with den := { s.den with silent := true } }).spillInto 7 8).pathRelease 9

/-- DEN_SILENCE: no edge of the module's own DEN for 1,500 ns. -/
def State.denSilence (s : State) : State :=
  if s.den.seen && !s.den.on && !s.den.silent && !s.power.forced && decide (s.den.edgeAt + 1500 ≤ s.tnow) then s.path7 else s

/-- LEAD_FORCE_OFF: 2 µs after DEN's last edge (R373) (DESIGN CHOICE, log entry 14). -/
def State.leadForce (s : State) : State :=
  if s.den.seen && !s.den.on && decide (s.den.edgeWs + 2000 ≤ s.wsNs) then s.modPair fun p => { p with leadPin := false } else s

/-- OSCILLATOR_WINDOW_LEAVE: the wellspring gates DEN off (R399). -/
def State.oscLeave (s : State) : State := ({ s with power := { s.power with oscBad := true } }).denOff

/-! ### Planned handover (R372, R385, R386) -/

/-- A planned handover may start. -/
def State.hoReady (s : State) : Bool :=
  s.leads && s.partner == stShadow && !s.changing && !bitN s.pair.peerState 3

/-- A request now is refused (R385). -/
def State.hoRefused (s : State) : Bool := s.pair.ho.isNone && !s.hoReady

/-- A planned handover requested: OFFER sent, or HO_FAIL. One in progress goes on (DEDUCED, log entry 44). -/
def State.hoRequest (s : State) : State :=
  if s.pair.ho.isSome then s
  else if s.hoReady then (s.modPair fun p => { p with ho := some {} }).sendReliable fun q => .token q 1
  else s.pairEvt 3

/-- RMGR_SOURCE (R372): the source is recorded, and PRI 0 to 2 request a planned handover where the partner is in SHADOW. -/
def State.rmgrSource (s : State) (k : Nat) : State :=
  if s.fld .ICU_TGT_TYPE k = 7 ∧ s.source k then
    let s := s.setFld .RMGR_STAT_SRC 0 k
    if s.fld .ICU_TGT_PRI k < 3 ∧ s.leads ∧ s.partner = stShadow then s.hoRequest else s
  else s

/-- A2T of an angle distance at the RATE of a domain; none where the angle does not advance (R103). -/
def State.angleNs (s : State) (d dist : Nat) : Option Nat :=
  let r := s.rateNow d
  if r = 0 then none else some (min (2 ^ 32 - 1) (roundDiv (dist * 65536) r))

/-- The time until slot `k` of sequencer `n` reaches its target, ns. -/
def State.slotNs (s : State) (n k : Nat) : Option Nat :=
  let x := s.slot n k
  if x.kind.timed then some (fwd s.tnow x.target)
  else s.angleNs (s.seqDomain n) (fwd (s.angle (s.seqDomain n)) x.target)

/-- An idle instant: no channel active, and no set or pulse start due within HO_GUARD (R386). -/
def State.idleNow (s : State) : Bool :=
  s.activeCount == 0 && (upto 24).all fun n => (upto 64).all fun k =>
    let x := s.slot n k
    !(x.armed && x.kind.sets) || (match s.slotNs n k with
      | some t => decide (s.fld .PAIR_GUARD_HO_GUARD < t)
      | none => true)

/-- Step 4 of R386: the Lead releases the token, and is then a Follow in SHADOW. -/
def State.hoRelease (s : State) (cause : Nat) : State :=
  let s := s.modPair fun p => { p with ho := none }
  let s := s.sendReliable fun q => .token q 5
  ((s.releaseToken cause stShadow).pairEvt 2).sendHb true

/-- IDLE_INSTANT (R386). -/
def State.idleInstant (s : State) : State :=
  match s.pair.ho with
  | some h => if h.acceptedAt.isSome && s.idleNow then s.hoRelease 10 else s
  | none => s

/-- IDLE_WAIT_EXPIRY (R386). -/
def State.idleExpiry (s : State) : State :=
  match s.pair.ho.bind (·.acceptedAt) with
  | some t =>
    if t + max 1 (s.fld .PAIR_CFG_IDLE_WAIT_MS) * 1000000 ≤ s.tnow then
      if s.flag .PAIR_CFG_FORCE_EN then s.hoRelease 11 else s.hoAbort
    else s
  | none => s

/-! ### Takeover (R381 to R383) -/

/-- The remaining duration of an active channel: the time to its earliest armed end; none where it has no armed end
(R383). -/
def State.remaining (s : State) (c : Nat) : Option Nat :=
  match s.owner c with
  | none => none
  | some n =>
    (((s.refers n c).filter fun k => !(s.slot n k).kind.sets).filterMap fun k => s.slotNs n k).foldl
      (fun b t => some (match b with | some u => min t u | none => t)) none

/-- An active channel resumed or ended in the takeover cycle (R383). -/
def State.resumeChannel (s : State) (c : Nat) : State :=
  if s.level c then
    let long := match s.remaining c with
      | some t => decide (s.fld .PAIR_RESUME_RESUME_MIN < t)
      | none => true
    if long && !bitN (s.fld .PAIR_NORESUME (c / 32)) (c % 32) then s.bump .PAIR_CNT_RESUMED
    else ((s.clearChan c (s.tnow * 8)).dropRefs c).bump .PAIR_CNT_RESUME_CUT
  else s

/-- The ground on which a Follow takes the token holds (R381). What PEER_DEN and PEER_LEAD show is the command's. -/
def State.takeGround (s : State) (c : TakeCond) : Bool :=
  match c with
  | .noDen => true
  | .noHeartbeat => (match s.pair.hbAt with | some t => decide (t + 2500 ≤ s.tnow) | none => true)
  | .released => bitN s.pair.peerFlags 1
  | .accepted => s.pair.sentAccept

/-- TAKEOVER (R381 to R383) (DEDUCED, log entry 44). -/
def State.takeOver (s : State) (c : TakeCond) : State :=
  let s := if c = .noDen then s.putFlag .PAIR_STAT_PEER_DEN_OK 0 false else s.putFlag .PAIR_STAT_PEER_LEAD 0 false
  let st := s.pstate
  if decide (stJoining ≤ st) && !s.pair.token && s.den.on && s.flag .PAIR_STAT_PRESENT && s.mode != modeDormant
      && s.takeGround c then
    let cause := match c with
      | .noDen => 1
      | .noHeartbeat => 2
      | .released => 3
      | .accepted => if s.activeCount = 0 then 4 else 5
    let s := (upto 96).foldl State.resumeChannel (s.takeToken cause)
    s.pairEvt (if c = .accepted then 2 else 0)
  else s

/-- PAIR_START_DECIDE (R368): what PEER_LEAD and PEER_DEN show is the command's. -/
def State.startDecide (s : State) (lead den : Bool) : State :=
  let s := (s.putFlag .PAIR_STAT_PEER_LEAD 0 lead).putFlag .PAIR_STAT_PEER_DEN_OK 0 den
  if s.pstate = stStart then
    if lead && den then (if s.linkUp then s.enterJoining else s.setPstate stIsolated)
    else
      let ms := if s.fld .PAIR_STAT_SLOT % 2 = 0 then 20 else 40
      if s.power.released + ms * 1000000 ≤ s.wsNs then s.takeToken 6 else s
  else s

/-! ### The link (R374, R375, R377, R378) -/

/-- PARTNER_STATE; entering or leaving SHADOW is an event (R390). -/
def State.setPartner (s : State) (v : Nat) : State :=
  let was := s.partner == stShadow
  let s := s.setFld .PAIR_STAT_PARTNER_STATE 0 v
  if was != (v == stShadow) then s.pairEvt 6 else s

/-- An ACK frees the frames up to its SEQ, and frames that waited for the window leave (R378). -/
def State.takeAck (s : State) (ack : Nat) : State :=
  let p := s.pair
  let first := (p.txSeq + 65536 * (p.unacked.length / 65536 + 1) - p.unacked.length) % 65536
  let k := (ack + 1 + 65536 - first) % 65536
  if 1 ≤ k ∧ k ≤ min 32 p.unacked.length then
    let rest := p.unacked.drop k
    ((rest.take 32).drop (32 - k)).foldl State.sendFrame
      (s.modPair fun p => { p with unacked := rest, ackAt := s.tnow })
  else s

/-- HEARTBEAT: a valid heartbeat arrives (R374, R377). -/
def State.heartbeat (s : State) (flags ack state : Nat) : State :=
  let near := match s.pair.hbAt with | some t => decide (s.tnow < t + 10000) | none => false
  let run := if near then s.pair.hbRun + 1 else 1
  let s := s.modPair fun p => { p with hbAt := some s.tnow, hbRun := min 16 run, peerFlags := flags, peerState := state }
  let s := s.setPartner (bitsN state 14 12)
  let s := if !s.linkUp && decide (16 ≤ run) then
      ((s.raise .PAIR_STAT_LINK_UP).modPair fun p => { p with joinWait := false }).pairEvt 4
    else s
  let s := s.takeAck ack
  let s := if bitN state 3 then s.hoAbort else s
  (s.aimReport (state % 8)).tryJoin

/-- HEARTBEAT_MISS: 2,500 ns without a valid heartbeat, on a paired slot. -/
def State.hbMiss (s : State) : State :=
  let from' := max (s.pair.hbAt.getD 0) s.pair.hbMissAt
  if !s.isSolo && decide (from' + 2500 ≤ s.tnow) then
    (s.bump .PAIR_CNT_HB_MISS).modPair fun p => { p with hbMissAt := s.tnow }
  else s

/-- The link is down (R378, R386, R389): unacknowledged frames go, and a Follow that used it is ISOLATED. -/
def State.linkLost (s : State) : State :=
  let s := ((s.putFlag .PAIR_STAT_LINK_UP 0 false).pairEvt 4).hoAbort
  let s := s.modPair fun p =>
    { p with unacked := [], txSeq := 0, rxSeq := 0, hbRun := 0, sentAccept := false, joinWait := false }
  let st := s.pstate
  if st = stJoining ∨ st = stMatching ∨ st = stShadow then
    if s.pair.joinOpen then (s.joinFail.modPair fun p => { p with joinWait := false }) else s.setPstate stIsolated
  else s

/-- LINK_DOWN: 10 µs without a valid heartbeat (R374); PARTNER_STATE reads none. -/
def State.linkDown (s : State) : State :=
  if s.tnow < s.pair.hbAt.getD 0 + 10000 then s else
    let s := s.setPartner 7
    if s.linkUp then s.linkLost else s

/-- LINK_RETRY: ACK has not advanced for 20 µs (R378). -/
def State.linkRetry (s : State) : State :=
  if s.linkUp && !s.pair.unacked.isEmpty && decide (s.pair.ackAt + 20000 ≤ s.tnow) then
    let fs := s.pair.unacked.take 32
    (fs.foldl State.sendFrame (s.modPair fun p => { p with ackAt := s.tnow })).bumpBy .PAIR_CNT_RETRY 0 fs.length
  else s

/-- LINK_FRAME_DISCARD: a frame that R375 or R376 discards. -/
def State.linkDiscard (s : State) : State :=
  (s.bump .PAIR_CNT_LINK_CRC).modPair fun p => { p with hbRun := if s.linkUp then p.hbRun else 0 }

/-- A reliable frame: accepted only with the SEQ that comes next (R378). -/
def State.reliable (s : State) (seq : Nat) (f : State → State) : State :=
  if s.linkUp ∧ seq = s.pair.rxSeq then f (s.modPair fun p => { p with rxSeq := (p.rxSeq + 1) % 65536 }) else s

/-! ### Frames (R193, R386, R389) -/

/-- MODE: a transition that the Lead accepted (R193). A Follow that joins only changes its aim (R389). Clearing by a path of the
Lead's own is a request other than paths 4 to 7 in the Follow, so path 2 is due there (R161). -/
def State.modeFrame (s : State) (target cause d : Nat) (imm : Bool) (angle : Nat) : State :=
  if s.pstate = stJoining then s.aimFrame target
  else if s.pstate = stMatching ∨ s.pstate = stShadow then
    if target = modeDormant then s.acceptDormant
    else if imm then
      let act := s.activeCount
      let due := decide (target = modeClearing) && clearPath cause != 2 && s.mode != modeClearing
      let s := if due then s.spill 2 0 act else s
      (s.accept (s.mkChange target cause none)).reachEpoch act
    else (s.accept (s.mkChange target cause (some (d, angle)))).epochLost
  else s

/-- OFFER: ACCEPT in SHADOW, otherwise REFUSE. -/
def State.tokenOffer (s : State) : State :=
  if s.pstate = stShadow then (s.modPair fun p => { p with sentAccept := true }).sendReliable fun q => .token q 2
  else s.sendReliable fun q => .token q 3

/-- ACCEPT: the Lead waits for an idle instant from now. -/
def State.tokenAccept (s : State) : State :=
  s.modPair fun p => { p with ho := p.ho.map fun h => { h with acceptedAt := some (h.acceptedAt.getD s.tnow) } }

/-- REFUSE ends the handover. -/
def State.tokenRefuse (s : State) : State :=
  if s.pair.ho.isSome then (s.modPair fun p => { p with ho := none }).pairEvt 3 else s

/-- ABORT: the ACCEPT sent before no longer counts (R381). -/
def State.tokenAbort (s : State) : State := s.modPair fun p => { p with sentAccept := false }

/-- JOIN START: the stream of the join set begins. -/
def State.joinStart (s : State) : State :=
  if s.pstate = stJoining then
    (s.modPair fun p => { p with joinStarted := true, joinLen := 0, joinCrc := 0xFFFFFFFF, joinRun := [] }).setFld
      .PAIR_JOIN_KIB 0 0
  else s

/-- A sequencer started as the run state names it: bank, entry point, and whether it ran (R389). -/
def State.joinRunSeq (s : State) (n : Nat) : State :=
  match Tab.find s.pair.joinRun n with
  | some w =>
    let s := s.modSeq n fun q => { q with bank := bitsN w 12 12 }
    if (s.seq n).stopped && decide (1 ≤ bitsN w 15 13) && decide (bitsN w 15 13 ≤ 3) then s.startSeq n else s
  | none => s

/-- JOIN END: with a matching length and CRC the Follow starts the sequencers and goes after the Lead's mode (R389). -/
def State.joinEnd (s : State) (len crc : Nat) : State :=
  if s.pstate = stJoining ∧ s.pair.joinStarted then
    if len = s.pair.joinLen ∧ crc = s.pair.joinCrc ^^^ 0xFFFFFFFF then
      let s := (upto 24).foldl State.joinRunSeq s
      (s.modPair fun p => { p with joinStarted := false, aim := some (p.aimSent.getD (p.peerState % 8)) }).joinFollow
    else s.joinFail
  else s

/-- JOIN ABORT received: a join in progress ends. -/
def State.joinAborted (s : State) : State := if s.pair.joinOpen then s.joinFail else s

/-- PAIR_CMD.JOIN_ABORT (R389): a join in progress here, or in the partner of a Lead, ends. -/
def State.joinAbortCmd (s : State) : State :=
  if s.pair.joinOpen ∨ (s.leads ∧ s.partner = stJoining) then (s.sendReliable fun q => .join q 4 0 0).joinAborted else s

/-! ### PRESENT (R161, R387, R411, R442) -/

/-- PRESENT_MAKE. -/
def State.presentMake (s : State) : State :=
  ((s.raise .PAIR_STAT_PRESENT).modPair fun p =>
    { p with presentSeen := true, leadPin := p.leadPin || (p.token && s.den.on) }).redrive

/-- PRESENT_BREAK: path 6, once PRESENT has been made. -/
def State.presentBreak (s : State) : State :=
  if s.flag .PAIR_STAT_PRESENT && s.pair.presentSeen then
    ((s.putFlag .PAIR_STAT_PRESENT 0 false).spillInto 6 10).pathRelease 8
  else s.putFlag .PAIR_STAT_PRESENT 0 false

end Sys2Proof.Machine
end

