-- ==== Sys2Proof/Machine/Boundary.lean ====
section
/-! DEFINITION. A cycle boundary of a domain and all that waits for it (R3, R51, R73, R140, R184, R187, R220, R389,
R419). -/

namespace Sys2Proof.Machine

/-- The accumulator of domain `d` has passed an angle of 0 AU that no boundary has been taken for (R3, R51). -/
def State.boundaryDue (s : State) (d : Nat) : Bool :=
  s.angleValid d && decide (((s.dom d).turns + 1) * 2 ^ 48 ≤ s.acc d)

/-- CYC counts on; passing from its highest value to 0 sets WRAPPED (R3, R419). -/
def State.countCycle (s : State) (d : Nat) : State :=
  let c := s.fld .AD_CYC d
  let s := s.setFld .AD_CYC d (c + 1)
  if c = 2 ^ 32 - 1 then s.raise .AD_EST_FAULT_WRAPPED d else s

/-- The pending program swaps of the sequencers of domain `d` meet the boundary (R140). -/
def State.swapsAt (s : State) (d : Nat) : State :=
  (upto 24).foldl (fun t n => if t.seqDomain n = d then t.swapBoundary n else t) s

/-- CYCLE_BOUNDARY: the angle of domain `d` wraps to 0 AU (R3) (DEDUCED, log entry 52). -/
def State.cycleBoundary (s : State) (d : Nat) : State :=
  if s.boundaryDue d then
    let s := (s.modDom d fun x => { x with turns := x.turns + 1, boundAt := some s.tnow }).countCycle d
    let s := (s.tclBoundary d).weightBoundary d
    let s := (s.joinBoundary d).modeCount d
    (s.modeBoundary d).swapsAt d
  else s

end Sys2Proof.Machine
end

