-- ==== Sys2Proof/Machine/IoEngine.lean ====
section
/-! DEFINITION. The I/O engines: starting and stopping, the issue of an instruction, its effect, and the end of waits and
stalls (R265 to R287). -/

namespace Sys2Proof.Machine

/-! ### Steps and issue (R266, R267, R280, R281) -/

/-- The engine runs. -/
def State.ioeOn (s : State) (e : Nat) : Bool := s.flag .IOE_CTRL_EN e

/-- Peripheral-clock cycles of a step (R266). -/
def State.ioeStep (s : State) (e : Nat) : Nat := s.fld .IOE_CLKDIV_DIV e + 1

/-- The present tick, where it is a step boundary at which the engine can issue or end a wait (R266). -/
def State.ioeBoundary (s : State) (e : Nat) : Option Nat :=
  let x := s.ioe e
  if x.phase ≤ s.tick ∧ (s.tick - x.phase) % s.ioeStep e = 0 ∧ x.free ≤ s.tick then some s.tick else none

/-- An instruction that issues: its engine, its latched word, whether it was injected, and the tick of issue. -/
structure IoIssue where
  e : Nat
  word : Nat
  injected : Bool
  tick : Nat
  deriving DecidableEq, Repr

/-- The instruction that engine `e` can issue at the present instant: the injected one in place of the next fetch, and in
a stopped engine the injected one only (R280) (DEDUCED, log entry 31). -/
def State.ioeNext (s : State) (e : Nat) : Option IoIssue :=
  let x := s.ioe e
  if s.ioeOn e then
    match x.cur, s.ioeBoundary e with
    | none, some b =>
      some { e, word := x.inj.getD (s.word (imemAddr e (s.fld .IOE_STAT_PC e))), injected := x.inj.isSome, tick := b }
    | _, _ => none
  else
    match x.inj with
    | some w => if x.free ≤ s.tick then some { e, word := w, injected := true, tick := s.tick } else none
    | none => none

/-- The injected instruction is taken. -/
def State.ioeTaken (s : State) (e : Nat) : State :=
  (s.putFlag .IOE_STAT_INJ_PENDING e false).modIoe e fun x => { x with inj := none }

/-- The issue: PC moves on, or the injection is consumed; the next instruction issues one step later (R266, R280).
(DEDUCED, log entry 31). -/
def State.ioeIssue (s : State) (i : IoIssue) : State :=
  let s := if i.injected then s.ioeTaken i.e else s.setFld .IOE_STAT_PC i.e (s.fld .IOE_STAT_PC i.e + 1)
  s.modIoe i.e fun x => { x with free := i.tick + s.ioeStep i.e }

/-- What an engine instruction does as it issues, where the word that engine `e` issues is that instruction. -/
def State.ioeRun (s : State) (e : Nat) (op : IoOp) (body : State → IoIssue → State) : State :=
  match s.ioeNext e with
  | some i => if ioDecode i.word = some op then body (s.ioeIssue i) i else s
  | none => s

/-- The codes of IOE_STAT.STATE (R267). -/
def ioStopped : Nat := 0
def ioRun : Nat := 1
def ioWait : Nat := 2
def ioStall : Nat := 3
def ioHalted : Nat := 4
def ioFaulted : Nat := 5

/-- EN from 0 to 1 (R267): the program starts at ENTRY, phase 0 falls on the next cycle, and no pin is latched. -/
def State.ioeStart (s : State) (e : Nat) : State :=
  let s := (s.raise .IOE_CTRL_EN e).setFld .IOE_STAT_PC e (s.fld .IOE_CTRL_ENTRY e)
  (s.setFld .IOE_STAT_STATE e ioRun).modIoe e fun x =>
    { x with phase := s.tick + 1, free := s.tick + 1, cur := none, pin := none, rise := none, fall := none }

/-- An injection that a stopped engine refuses (R280). -/
def ioRefused (w : Nat) : Bool :=
  ioT w ||
    (match ioDecode w with
      | some .waitp | some .waitf | some .waiti | some .waitt | some .halt => true
      | some .push | some .pull => bitN (ioA w) 0
      | _ => false)

/-- What becomes of a held injection as the engine stops: a refused kind is dropped, any other executes in the next
cycle (R280). -/
def State.ioeStopInj (s : State) (e : Nat) : State :=
  match (s.ioe e).inj with
  | none => s
  | some w =>
    if (ioDecode w).isSome && ioRefused w then (s.ioeTaken e).raise .IOE_EVT_INJ_REFUSED e
    else s.modIoe e fun x => { x with free := s.tick + 1 }

/-- The engine leaves execution with EN at 0: what waits or stalls is abandoned (R267). -/
def State.ioeStop (s : State) (e st : Nat) : State :=
  let s := (s.putFlag .IOE_CTRL_EN e false).setFld .IOE_STAT_STATE e st
  (s.modIoe e fun x => { x with cur := none }).ioeStopInj e

/-- The items of R265 that a reset clears to 0, with EN and what IOE_STAT shows. -/
def ioeCleared : List Fld :=
  [.IOE_CTRL_EN, .IOE_STAT_POST_CNT, .IOE_STAT_SC, .IOE_STAT_INJ_PENDING, .IOE_STAT_TO, .IOE_STAT_STATE,
   .IOE_STAT_PC, .IOE_FLAGS, .IOE_CRC_CFG_VALUE, .IOE_CA, .IOE_CB, .IOE_SH, .IOE_TT]

/-- An engine reset (R267), which clears its events too. -/
def State.ioeReset (s : State) (e : Nat) : State :=
  let s := (ioeCleared ++ ioeEvents).foldl (fun t f => t.setFld f e 0) s
  (s.setFld .IOE_UNIT e 0x10000).setIoe e {}

/-- IOE_INJECT (R280). -/
def State.ioeInject (s : State) (e w : Nat) : State :=
  if s.flag .IOE_STAT_INJ_PENDING e then s.raise .IOE_EVT_INJ_LOST e
  else if !s.ioeOn e && (ioDecode w).isSome && ioRefused w then s.raise .IOE_EVT_INJ_REFUSED e
  else
    let s := s.raise .IOE_STAT_INJ_PENDING e
    s.modIoe e fun x => { x with inj := some w, free := if s.ioeOn e then x.free else s.tick + 1 }

/-- The divider phase set to 0 (R279). -/
def State.ioeRephase (s : State) (e : Nat) : State := s.modIoe e fun x => { x with phase := s.tick + 1 }

/-- The engines of a start group; none for 0 and 5 to 7 (R279). -/
def State.ioeGroup (s : State) (g : Nat) : List Nat :=
  if 1 ≤ g ∧ g ≤ 4 then (upto 16).filter fun e => s.fld .IOE_CTRL_GRP e == g else []

/-- IOE_GROUP_CMD: START where it is set, else REPHASE (R279). -/
def State.ioeGroupCmd (s : State) (g : Nat) (start rephase : Bool) : State :=
  (s.ioeGroup g).foldl (fun t e =>
    if t.ioeOn e then (if start || rephase then t.ioeRephase e else t)
    else if start then t.ioeStart e else t) s

/-! ### Queues (R282, R283) -/

/-- The entries of the out queue and of the in queue (R282). -/
def State.outCap (s : State) (e : Nat) : Nat :=
  if e < 4 then (match s.fld .IOE_CTRL_OUT_DEPTH e with | 8 => 8 | 0 => 0 | _ => 4) else 1
def State.inCap (s : State) (e : Nat) : Nat := if e < 4 then 8 - s.outCap e else 1

/-- SH into the out queue, where it has space. -/
def State.ioePush (s : State) (e : Nat) : Option State :=
  let x := s.ioe e
  if x.qout.length < s.outCap e then some (s.setIoe e { x with qout := x.qout ++ [s.fld .IOE_SH e] }) else none

/-- The head of the in queue into SH, where there is one. -/
def State.ioePull (s : State) (e : Nat) : Option State :=
  let x := s.ioe e
  match x.qin with
  | [] => none
  | v :: r => some (((s.setIoe e { x with qin := r }).setFld .IOE_SH e v).setFld .IOE_STAT_SC e 32)

/-- A 32-bit read of QOUT (R283). -/
def State.qoutRead (s : State) (e : Nat) : State × Nat :=
  let x := s.ioe e
  match x.qout with
  | [] => (s.raise .IOE_EVT_OUT_UNDER e, 0xFFFFFFFF)
  | v :: r => (s.setIoe e { x with qout := r }, v)

/-- A write of QIN (R283). -/
def State.qinWrite (s : State) (e v : Nat) : State :=
  let x := s.ioe e
  if x.qin.length < s.inCap e then s.setIoe e { x with qin := x.qin ++ [v] } else s.raise .IOE_EVT_IN_OVF e

/-- IOE_CTRL (R267, R282): OUT_DEPTH is writable on IOE0 to IOE3 while EN is 0, and takes effect before EN. -/
def State.ioeCtrl (s : State) (e v : Nat) : State :=
  let on := s.ioeOn e
  let dep := bitsN v 19 16
  let s := if e < 4 ∧ on = false ∧ s.fld .IOE_CTRL_OUT_DEPTH e ≠ dep
    then (s.setFld .IOE_CTRL_OUT_DEPTH e dep).modIoe e fun x => { x with qout := [], qin := [] } else s
  let s := (s.setFld .IOE_CTRL_GRP e (bitsN v 14 12)).setFld .IOE_CTRL_ENTRY e (bitsN v 5 0)
  match on, bitN v 31 with
  | false, true => s.ioeStart e
  | true, false => s.ioeStop e ioStopped
  | _, _ => s

/-! ### Pins (R268, R269) -/

/-- The engine drives the pin. -/
def State.ioeOwns (s : State) (e p : Nat) : Bool :=
  decide (p < 32) && s.flag .GIO_CFG_OWNED p && s.fld .GIO_CFG_ENGINE p == e

/-- What the owning engine drives on the pin; in Dormant and on its entry every pin stays in high impedance (R287). -/
def State.gioDrive (s : State) (p : Nat) (x : Drive) : State :=
  { s with gio := if s.auxOff then s.gio else Tab.set .z s.gio p x }

/-- What pin GIOp presents: its drive, an open-drain pin low or released, else high impedance with its pull, which Dormant
disconnects (R268, R287, R288, R452). -/
def State.gioPad (s : State) (p : Nat) : Pad :=
  let pull := if s.auxOff then .none else match s.fld .GIO_CFG_PULL p with
    | 1 => .up
    | 2 => .down
    | _ => .none
  match Tab.get .z s.gio p with
  | .low => .low
  | .high => if s.flag .GIO_CFG_OD p then .z pull else .high 5
  | .z => .z pull

/-- GIO_CFG (R268): a change of owner is refused while an engine named before or after it runs. None where refused. -/
def State.gioCfg (s : State) (p v : Nat) : Option State :=
  let moves := s.flag .GIO_CFG_OWNED p != bitN v 31 || s.fld .GIO_CFG_ENGINE p != bitsN v 27 24
  if moves && (s.ioeOn (s.fld .GIO_CFG_ENGINE p) || s.ioeOn (bitsN v 27 24)) then none else
    let s := (s.putFlag .GIO_CFG_OWNED p (bitN v 31)).setFld .GIO_CFG_ENGINE p (bitsN v 27 24)
    let s := (s.setFld .GIO_CFG_PULL p (bitsN v 17 16)).setFld .GIO_CFG_OD p (bitsN v 15 15)
    let s := s.setFld .GIO_CFG_FILT p (bitsN v 7 0)
    some (if moves then s.gioDrive p .z else s)

/-- GIO_EDGE: the new level, first sampled at `stamp`, has held for the filter length and passes (R269). -/
def State.gioEdge (s : State) (p : Nat) (level : Bool) (stamp : Nat) : State :=
  if s.pinLevel p == level || decide (s.tnow < stamp + 4 * s.fld .GIO_CFG_FILT p) then s else
    let s := if level then s.orFld .GIO_IN_LEVEL 0 (2 ^ p) else s.clearBits .GIO_IN_LEVEL 0 (2 ^ p)
    s.pinEdge p level stamp

/-- A toggle: the other level; from high impedance, a free value (R271) (DESIGN CHOICE, log entry 20). -/
def State.toggled (s : State) (p : Nat) : Drive :=
  match Tab.get .z s.gio p with
  | .low => .high
  | .high => .low
  | .z => if Config.toggleOut p s.tnow then .high else .low

/-- The pin change of a PIN or SHOUT (R271) (DEDUCED, log entry 31). -/
def State.pinAct (s : State) (e w : Nat) : State :=
  if ioOpc w = 6 then
    s.gioDrive (ioB w) (match ioA w with
      | 0 => .low
      | 1 => .high
      | 2 => s.toggled (ioB w)
      | _ => .z)
  else
    let sh := s.fld .IOE_SH e
    let s := s.gioDrive (ioB w) (if bitN sh 31 then .high else .low)
    (s.setFld .IOE_SH e (sh * 2)).setFld .IOE_STAT_SC e (s.fld .IOE_STAT_SC e - 1)

/-- An instruction that waits or stalls (R274, R277, R283). -/
def State.ioeHold (s : State) (i : IoIssue) (st : Nat) (acted : Bool := false) : State :=
  (s.setFld .IOE_STAT_STATE i.e st).modIoe i.e fun x =>
    { x with cur := some { word := i.word, injected := i.injected, issued := i.tick, acted } }

/-- PIN and SHOUT (R268, R277). -/
def State.pinBody (s : State) (i : IoIssue) : State :=
  let tt := s.fld .IOE_TT i.e
  if !s.ioeOwns i.e (ioB i.word) then s.raise .IOE_EVT_PIN_DENIED i.e
  else if !ioT i.word then s.pinAct i.e i.word
  else if ttBehind i.tick tt then (s.pinAct i.e i.word).raise .IOE_EVT_LATE i.e
  else if ttReached i.tick tt then s.pinAct i.e i.word
  else s.ioeHold i ioStall

/-- IOE_TIMED_ACTION: the pin change of a stalled PIN or SHOUT (R277). -/
def State.timedAction (s : State) (e : Nat) : State :=
  let x := s.ioe e
  match x.cur with
  | none => s
  | some c =>
    if (ioOpc c.word == 6 || ioOpc c.word == 8) && !c.acted && ttReached s.tick (s.fld .IOE_TT e) then
      (s.setIoe e { x with cur := some { c with acted := true, met := some (0, s.tick) } }).pinAct e c.word
    else s

/-! ### Registers, jumps and arithmetic (R271 to R273) -/

/-- CA, CB, SH and TT by the destination code of R273. -/
def ioReg (c : Nat) : Fld :=
  match c with
  | 0 => .IOE_CA
  | 1 => .IOE_CB
  | 2 => .IOE_SH
  | _ => .IOE_TT

/-- A source of R273. -/
def State.ioeSource (s : State) (i : IoIssue) : Nat :=
  match ioA i.word with
  | 0 => ioImm i.word
  | 1 => s.fld .IOE_CA i.e
  | 2 => s.fld .IOE_CB i.e
  | 3 => s.fld .IOE_SH i.e
  | 4 => s.fld .IOE_TT i.e
  | 5 => (s.ioe i.e).estamp
  | 6 => 4 * i.tick % 2 ^ 32
  | a => s.fld .IOE_CONST_K (4 * i.e + a % 4)

/-- MOV: an immediate, or a field of a register (R273). -/
def State.ioeMovBody (s : State) (i : IoIssue) : State :=
  let v := s.ioeSource i
  let m := ioImm i.word
  let w := if m % 32 = 0 then 32 else m % 32
  s.setFld (ioReg (ioC i.word)) i.e (if ioA i.word = 0 then v else v / 2 ^ (m / 32) % 2 ^ w)

/-- ADD and SUB, modulo 2^32 (R271). -/
def State.ioeArith (s : State) (i : IoIssue) (f : Nat → Nat → Nat) : State :=
  s.setFld (ioReg (ioC i.word)) i.e (f (s.fld (ioReg (ioC i.word)) i.e) (s.ioeSource i))

/-- The width of the CRC register (R278). -/
def State.crcWidth (s : State) (e : Nat) : Nat :=
  let w := s.fld .IOE_CRC_CFG_WIDTH e
  if 1 ≤ w ∧ w ≤ 8 then w else 8

/-- The constant that KLT and KGT name. -/
def State.ioeK (s : State) (i : IoIssue) : Nat := s.fld .IOE_CONST_K (4 * i.e + ioImm i.word % 4)

/-- The condition of a JMP, with CA or CB stepped by CAUP and CBUP (R272). -/
def State.jmpCond (s : State) (i : IoIssue) : State × Bool :=
  let e := i.e
  let m := ioImm i.word
  let ca := s.fld .IOE_CA e
  let cb := s.fld .IOE_CB e
  match ioA i.word with
  | 0 => (s, true)
  | 1 => (s.setFld .IOE_CA e (ca + 1), decide ((ca + 1) % 2 ^ 32 < m))
  | 2 => (s.setFld .IOE_CB e (cb + 1), decide ((cb + 1) % 2 ^ 32 < m))
  | 3 => (s, ca == 0)
  | 4 => (s, ca == cb)
  | 5 => (s, decide (ca < cb))
  | 6 => (s, decide (cb < ca))
  | 7 => (s, s.pinLevel (ioB i.word))
  | 8 => (s, !s.pinLevel (ioB i.word))
  | 9 => (s, decide (m % 64 ≤ s.fld .IOE_STAT_SC e))
  | 10 => (s, bitN (s.fld .IOE_SH e) (m % 32))
  | 11 => (s, s.flag .IOE_STAT_TO e)
  | 12 => (s, bitN (s.fld .IOE_FLAGS e) (m % 8))
  | 13 => (s, s.fld .IOE_CRC_CFG_VALUE e % 2 ^ s.crcWidth e == ca % 2 ^ s.crcWidth e)
  | 14 => (s, decide (ca < s.ioeK i))
  | _ => (s, decide (s.ioeK i < ca))

/-- JMP (R272, R280). -/
def State.jmpBody (s : State) (i : IoIssue) : State :=
  let r := s.jmpCond i
  if r.2 then r.1.setFld .IOE_STAT_PC i.e (ioC i.word) else r.1

/-- SHIN (R271). -/
def State.shinBody (s : State) (i : IoIssue) : State :=
  let n := if ioA i.word = 0 then ioImm i.word else 1
  let v := if ioA i.word = 0 then s.fld (ioReg (ioC i.word)) i.e % 2 ^ n else b2n (s.pinLevel (ioB i.word))
  let s := s.setFld .IOE_SH i.e (s.fld .IOE_SH i.e * 2 ^ n + v)
  s.setFld .IOE_STAT_SC i.e (min 32 (s.fld .IOE_STAT_SC i.e + n))

/-- MEAS and SETU take 8 peripheral-clock cycles, rounded up to whole steps (R266). -/
def State.ioeSlow (s : State) (i : IoIssue) : State :=
  s.modIoe i.e fun x => { x with free := i.tick + (8 + s.ioeStep i.e - 1) / s.ioeStep i.e * s.ioeStep i.e }

/-- MEAS (R276). -/
def State.measBody (s : State) (i : IoIssue) : State :=
  let x := s.ioe i.e
  let v := if x.elastValid
    then min 0xFFFFFFFF (roundDiv ((x.estamp + 2 ^ 32 - x.elast) % 2 ^ 32 * 65536) (s.fld .IOE_UNIT i.e)) else 0xFFFFFFFF
  ((s.setFld (ioReg (ioC i.word)) i.e v).setIoe i.e { x with elast := x.estamp, elastValid := true }).ioeSlow i

/-- SETU (R276): a quotient beyond 32 bits is a free value, never below 1 (DESIGN CHOICE, log entry 20). -/
def State.setuBody (s : State) (i : IoIssue) : State :=
  let m := ioImm i.word
  let v := s.fld (ioReg (ioC i.word)) i.e
  let u := if m = 0 then 0x10000 else max 1 (roundDiv (v * 65536) m)
  (s.setFld .IOE_UNIT i.e (if u < 2 ^ 32 then u else max 1 (Config.setuOut v m).toNat)).ioeSlow i

/-- One bit fed into a CRC register (R278). -/
def crcBit (w poly reg : Nat) (b : Bool) : Nat :=
  let r := (reg * 2 + b2n b) % 2 ^ w
  if bitN reg (w - 1) then r ^^^ (poly % 2 ^ w) else r

/-- CRC (R278). -/
def State.crcBody (s : State) (i : IoIssue) : State :=
  let w := s.crcWidth i.e
  let src := if ioC i.word = 3 then 0 else s.fld (ioReg (ioC i.word)) i.e
  let hi := ioImm i.word / 32
  let lo := ioImm i.word % 32
  let r := (if bitN (ioA i.word) 0 then s.fld .IOE_CRC_CFG_SEED i.e else s.fld .IOE_CRC_CFG_VALUE i.e) % 2 ^ w
  s.setFld .IOE_CRC_CFG_VALUE i.e
    ((upto (hi + 1 - lo)).foldl (fun r j => crcBit w (s.fld .IOE_CRC_CFG_POLY i.e) r (bitN src (hi - j))) r)

/-- PUSH (R283). -/
def State.pushBody (s : State) (i : IoIssue) : State :=
  match s.ioePush i.e with
  | some t => t
  | none => if bitN (ioA i.word) 0 then s.ioeHold i ioStall else s.raise .IOE_EVT_OUT_OVF i.e

/-- PULL (R283). -/
def State.pullBody (s : State) (i : IoIssue) : State :=
  match s.ioePull i.e with
  | some t => t
  | none => if bitN (ioA i.word) 0 then s.ioeHold i ioStall else s.raise .IOE_EVT_IN_UNDER i.e

/-- One word posted; of two engines that post to it in one sequencer cycle the higher-numbered one's value remains (R284). -/
def State.postWord (s : State) (e a v : Nat) : State :=
  (s.setBytes a (s.openBytes (s.tnow / 2) a (2 + e)) v).noteData a 15 (2 + e)

/-- POST (R284). -/
def State.postBody (s : State) (i : IoIssue) : State :=
  let cnt := (s.fld .IOE_STAT_POST_CNT i.e + 1) % 256
  let v := s.fld (ioReg (ioC i.word)) i.e
  let counted := bitN (ioA i.word) 0
  let s := if counted then s.setFld .IOE_STAT_POST_CNT i.e cnt else s
  let v := if counted then v % 2 ^ 24 + 2 ^ 24 * cnt else v
  (upto 24).foldl (fun t n =>
    if bitN (t.fld .IOE_POST_MASK i.e) n then t.postWord i.e (dmemAddr n (t.fld .IOE_POST_WORD i.e)) v else t) s

/-! ### Waits (R274, R275, R285) -/

/-- A wait ends: TO says whether it ended at TT (R274). -/
def State.waitOver (s : State) (e : Nat) (timeout : Bool) : State := s.putFlag .IOE_STAT_TO e timeout

/-- An edge wait of code `a` on pin `p` ends, with the stamp of its edge if it took one; the latch is then on that pin
(R274, R275). -/
def State.edgeTaken (s : State) (e p : Nat) (stamp : Option Nat) : State :=
  (s.modIoe e fun x =>
    { x with estamp := stamp.getD x.estamp, pin := some p, rise := none, fall := none }).waitOver e stamp.isNone

/-- The latched edge that an edge wait of code `a` takes: of two that match, the earlier; a later one stays latched, an
earlier one is passed over (R275). -/
def State.latchTake (s : State) (e a p : Nat) : Option State :=
  let x := s.ioe e
  let tt := s.fld .IOE_TT e
  let r := x.rise.filter fun g => edgeMatches a tt true g.1
  let f := x.fall.filter fun g => edgeMatches a tt false g.1
  let done := fun (up : Bool) (g : Nat × Nat) =>
    ((s.setIoe e { x with
        estamp := g.1
        rise := if up then none else x.rise.filter fun o => g.2 ≤ o.2
        fall := if up then x.fall.filter fun o => g.2 ≤ o.2 else none }).waitOver e false)
  if x.pin ≠ some p then none else
    match r, f with
    | some g, some h => some (if g.2 ≤ h.2 then done true g else done false h)
    | some g, none => some (done true g)
    | none, some h => some (done false h)
    | none, none => none

/-- WAITP (R274, R275). -/
def State.waitpBody (s : State) (i : IoIssue) : State :=
  let a := ioA i.word
  let p := ioB i.word
  let due := ioT i.word && ttReached i.tick (s.fld .IOE_TT i.e)
  if a ≤ 1 then
    if s.pinLevel p == (a == 1) then s.waitOver i.e false
    else if due then s.waitOver i.e true
    else s.ioeHold i ioWait
  else
    match s.latchTake i.e a p with
    | some t => t
    | none => if due then s.edgeTaken i.e p none else s.ioeHold i ioWait

/-- Whether a wait other than a pin wait has its condition, and what ending it then does. -/
def State.waitMet (s : State) (e w : Nat) : Option State :=
  match ioDecode w with
  | some .waitf =>
    let hit := s.fld .IOE_FLAGS e &&& ioImm w
    if hit = 0 then none else some ((s.clearBits .IOE_FLAGS e hit).waitOver e false)
  | some .waiti => if s.source (ioImm w) == bitN (ioA w) 0 then some (s.waitOver e false) else none
  | some .waitt => if ttReached s.tick (s.fld .IOE_TT e) || ttBehind s.tick (s.fld .IOE_TT e)
    then some (s.waitOver e false) else none
  | some .push => s.ioePush e
  | some .pull => s.ioePull e
  | _ => none

/-- WAITF, WAITI and WAITT (R271, R277, R285). -/
def State.waitBody (s : State) (i : IoIssue) : State :=
  match s.waitMet i.e i.word with
  | some t => t
  | none =>
    if ioT i.word && ttReached i.tick (s.fld .IOE_TT i.e) then s.waitOver i.e true else s.ioeHold i ioWait

/-- The end of what engine `e` waits or stalls for, at step boundary `b`, if its condition holds (R266, R274). -/
def State.wakeAt (s : State) (e b : Nat) (c : IoeCur) : Option State :=
  let due := ioT c.word && ttReached b (s.fld .IOE_TT e)
  match ioDecode c.word with
  | some .pin | some .shout => if c.acted && c.met.all (fun m => decide (m.2 < b)) then some s else none
  | some .waitp =>
    let edge := decide (2 ≤ ioA c.word)
    match c.met with
    | some m =>
      if m.2 < b then
        some (if edge then (s.modIoe e fun x => { x with estamp := m.1 }).waitOver e false else s.waitOver e false)
      else none
    | none => if due then some (if edge then s.edgeTaken e (ioB c.word) none else s.waitOver e true) else none
  | _ =>
    match s.waitMet e c.word with
    | some t => some t
    | none => if due then some (s.waitOver e true) else none

/-- IOE_STEP_WAKE: a wait or stall ends at the first step boundary after its condition holds (R266). -/
def State.stepWake (s : State) (e : Nat) : State :=
  match (s.ioe e).cur, s.ioeBoundary e with
  | some c, some b =>
    match s.wakeAt e b c with
    | some t => (t.setFld .IOE_STAT_STATE e ioRun).modIoe e fun x => { x with cur := none, free := b }
    | none => s
  | _, _ => s

/-! ### The end of execution (R267, R270) -/

/-- HALT. -/
def State.haltBody (s : State) (i : IoIssue) : State := s.ioeStop i.e ioHalted

/-- An illegal instruction: the engine faults, with PC at it (R270). -/
def State.ioeIllegal (s : State) (e : Nat) : State :=
  match s.ioeNext e with
  | none => s
  | some i =>
    if (ioDecode i.word).isSome then s else
      let s := if i.injected then s.ioeTaken e else s
      (s.raise .IOE_EVT_ILLEGAL e).ioeStop e ioFaulted

end Sys2Proof.Machine
end

