-- ==== Sys2Proof/Machine/Flags.lean ====
section
/-! DEFINITION. What a read of each register field returns: most fields are stored, and the live views of angles,
sequencers, slots, channels, counters, queues, interrupt levels and locks are computed here. -/

namespace Sys2Proof.Machine

/-! ### Estimator views (R53, R57, R76) -/

/-- The entry whose position a distance from the angle of entry `k` falls in, through missing positions (R58). -/
def State.covered (s : State) (d k rel : Nat) : Nat → Nat
  | 0 => k
  | n + 1 =>
    let a := s.angleNext d k
    let j := s.nextEntry d k
    if rel < a || s.present d j then k else s.covered d j (rel - a) n

/-- The tooth-map entry of the position now being covered, in SYNC. -/
def State.coverNow (s : State) (d : Nat) : Nat :=
  let k := s.fld .AD_SYNC_STAT_POS d
  s.covered d k (fwd (s.entryAngle d k (s.fld .AD_SYNC_STAT_REV d)) (s.angle d)) (s.tlen d)

/-- The angle from the present position to the next, and the reference pitch: of the phase map in PHASE-ONLY (R66). -/
def State.pitchNow (s : State) (d : Nat) : Nat × Nat :=
  if s.dstate d = stPhaseOnly then (s.phInterval d (s.phNext d ((s.dom d).phEntry.getD 0)), s.phARef d)
  else (s.angleNext d (s.coverNow d), s.aRef d)

/-- PRED: P_pos of the position now being covered, to the nearest 125 ps (R58, R76) (DESIGN CHOICE, log entry 60). -/
def State.predView (s : State) (d : Nat) : Nat :=
  if s.angleValid d then
    let a := s.pitchNow d
    let p := (s.dom d).est.p
    let v := roundDiv (p * a.1) (256 * max 1 a.2)
    if v < 2 ^ 32 then v else (Config.predOut p a.1).toNat
  else 0

/-- The revolution span of the source of the angle (R54, R66). -/
def State.spanNow (s : State) (d : Nat) : Nat := if s.dstate d = stPhaseOnly then 2 ^ 32 else s.span d

/-- RPM of a RATE in 1/16 rpm, to the nearest, as the manual's value under R58 shows; a free value where the speed lies
outside the field (DESIGN CHOICE, log entry 19). -/
def State.rpmOf (s : State) (d rate : Nat) : Nat :=
  let v := roundDiv (rate * 960000000000) (65536 * s.spanNow d)
  if v < 2 ^ 20 then v else (Config.rpmOut rate (s.spanNow d)).toNat

/-- RPM: in NOSYNC and SEEKING the speed of the most recent accepted interval, as one pitch of A_REF (R53).
(DEDUCED, log entry 26). -/
def State.rpmView (s : State) (d : Nat) : Nat :=
  if s.angleValid d then s.rpmOf d (s.rateNow d)
  else match (s.dom d).diagIv with
    | some t => s.rpmOf d (rateOf (s.aRef d) (t * 256))
    | none => 0

/-- The angle is held under R60, or on the return from PHASE-ONLY under R47. -/
def State.clampedNow (s : State) (d : Nat) : Bool := s.angleValid d && (s.dom d).seg.clamped (s.tnow * 8)

/-! ### Other views -/

/-- OUT_STAT.INHIBIT: the device mode, or the applied mode of the owner, does not allow the channel (R153, R174); 0 for a
channel without an owner, as its reset value is (R8, R170) (DEDUCED, log entry 26). -/
def State.inhibited (s : State) (c : Nat) : Bool :=
  match s.owner c with
  | some n => !(s.modeAllows s.mode n && s.modeAllows (s.fld .SEQ_MODE_STAT_APPLIED n) n)
  | none => false

/-- One word of interrupt source levels (R289). -/
def State.rawWord (s : State) (w : Nat) : Nat :=
  (upto 32).foldl (fun n i => if s.source (32 * w + i) then n + 2 ^ i else n) 0

/-- Outstanding host reads of the DMA engine (R319). -/
def State.dmaTags (s : State) : Nat := s.dmas.foldl (fun n e => n + e.2.open'.length) 0

/-- The sum of all quotas (R303, R319). -/
def State.quotaSum (s : State) : Nat :=
  (upto 16).foldl (fun n c => n + s.fld .DMA_CH_CFG_QUOTA c) 0

/-- A function reset of function `f` falls in this nanosecond: its status fields that follow the hardware hold their reset
values, and from the next nanosecond on what they show (R8, R355) (DEDUCED, log entry 34). -/
def State.justReset (s : State) (f : Nat) : Bool := Tab.find s.pcie.resetAt f == some s.wsNs

/-- The status fields of F0 and F3 that follow the hardware, with the function that owns them. -/
def followed : Fld → Option Nat
  | .PWR_STAT_SUP_LIMIT | .PWR_STAT_SUP_OFF | .PWR_STAT_SUP_ON | .PWR_VIN | .CLK_STAT_MON_OK | .CLK_STAT_PER_LOCK
  | .CLK_STAT_SEQ_LOCK | .CLK_STAT_EV_LOCK | .CLK_STAT_REF_OK | .PCIE_STAT_CLK_SEP | .PCIE_STAT_LINK_UP
  | .PCIE_STAT_WIDTH | .PCIE_STAT_SPEED => some 0
  | .GIO_IN_LEVEL => some 3
  | _ => none

/-- A lock bit of CLK_STAT, by the code of the failure that clears it: 0 at the end of a power-on reset, and 1 from the
first instant after it (R8, R403, R413) (DEDUCED, log entry 46). -/
def State.lockView (s : State) (codes : List Nat) : Nat :=
  b2n (s.live && decide (s.power.released < s.wsNs) && !(s.power.forced && codes.contains s.power.failCode))

/-- What field `f` of instance `i` shows, as stored or as the live view that the manual gives.
(DESIGN CHOICE, log entry 21) (DESIGN CHOICE, log entry 22). -/
def State.shown (s : State) (f : Fld) (i : Nat) : Nat :=
  match f with
  | .WFE_STAT_CLAMP => b2n (s.vrMode i && Config.vrClamp i s.tnow)
  | .AD_ANGLE => s.angle i
  | .AD_RATE => s.rateNow i
  | .AD_ACC => s.accelNow i
  | .AD_RPM => s.rpmView i
  | .AD_PRED => s.predView i
  | .AD_EST_STAT_HIST => (s.dom i).est.hist.length
  | .AD_EST_STAT_PRED_VALID => b2n (!(s.dom i).est.hist.isEmpty)
  | .AD_EST_STAT_PH_SOURCE => b2n (s.dstate i == stPhaseOnly)
  | .AD_EST_STAT_EXTRAP => b2n (s.dstate i == stSync && s.coverNow i != s.fld .AD_SYNC_STAT_POS i)
  | .AD_EST_STAT_CLAMPED => b2n (s.clampedNow i)
  | .SEQ_STAT_STATE => (s.stateView i).ctorIdx
  | .SEQ_CNT_CYC => s.cycView i
  | .SEQ_CNT_STALL => s.stallView i
  | .SEQ_STAT_BANK => (s.seq i).bank
  | .SEQ_STAT_PC => (s.seq i).pc
  | .SEQ_XREG => s.x (i / 16) (i % 16)
  | .SEQ_SLOTS_IN_USE => s.inUse i
  | .SEQ_FLAGS_SET_FLAGS => s.fld .SEQ_FLAGS i
  | .SEQ_SLOT_TARGET => (s.slot (i / 64) (i % 64)).target
  | .SEQ_SLOT_STATE_ARMED => b2n (s.slot (i / 64) (i % 64)).armed
  | .SEQ_SLOT_STATE_KIND => (s.slot (i / 64) (i % 64)).kind.ctorIdx
  | .SEQ_SLOT_STATE_ARG => (s.slot (i / 64) (i % 64)).arg
  | .SEQ_SLOT_STATE_FRAC => (s.slot (i / 64) (i % 64)).frac
  | .SEQ_SLOT_STATE_GEN => (s.slot (i / 64) (i % 64)).gen
  | .SEQ_SLOT_STATE_PARTNER => (s.slot (i / 64) (i % 64)).partner.getD 0
  | .OUT_STAT_HELD => b2n (s.held i && !s.flag .OUT_STAT_COMPLETING i)
  | .OUT_STAT_DRIVING => b2n (s.driving i)
  | .OUT_STAT_INHIBIT => b2n (s.inhibited i)
  | .SPILL_STAT_DEN_OK => b2n s.den.ok
  | .SPILL_STAT_DEVICE_HOLD => b2n s.deviceHold
  | .BAS_TAG_BASIN => i
  | .BAS_FEED_DATA => (s.feedUnit i).1 + 2 ^ 32 * (s.feedUnit i).2
  | .BAS_FEED_STAT_LEVEL => (s.feed i).records.length
  | .PWM_STAT_RUNNING => b2n (s.pwmRuns i)
  | .PWM_COUNT_DOWN => b2n (s.pwmCount i).2
  | .PWM_COUNT => (s.pwmCount i).1
  | .IOE_QOUT => (s.qoutRead i).2
  | .IOE_QSTAT_OUT_LEVEL => (s.ioe i).qout.length
  | .IOE_QSTAT_IN_LEVEL => (s.ioe i).qin.length
  | .IOE_FLAGS_SET_FLAGS => s.fld .IOE_FLAGS i
  | .ICU_RAW_LEVEL => s.rawWord i
  | .ICU_INT_TOP_ASSERTED => b2n s.intLow
  | .ICU_INT_TOP_PRI => (s.intTop.map fun k => s.fld .ICU_TGT_PRI k).getD 0
  | .ICU_INT_TOP_SRC => s.intTop.getD 0x1FF
  | .ICU_SWI_SET_SWI => s.fld .ICU_SWI i
  | .DMA_CH_STAT_STATE => s.dmaStateView i
  | .DMA_ENG_STAT_TAGS => s.dmaTags
  | .DMA_ENG_STAT_QUOTA_SUM => s.quotaSum
  | .PAIR_STAT_STATE => s.pstate
  | .PWR_VIN => if s.tnow < 100000 then 0 else (Config.vin (s.tnow / 100000)).toNat
  | .CLK_STAT_MON_OK => s.lockView [1, 2, 3, 4, 5]
  | .CLK_STAT_PER_LOCK => s.lockView [1, 4]
  | .CLK_STAT_SEQ_LOCK => s.lockView [1, 3]
  | .CLK_STAT_EV_LOCK => s.lockView [1, 2]
  | .CLK_STAT_REF_OK => s.lockView [1]
  | .TNOW => s.tnow
  | .ID_SERIAL => Config.serial.toNat
  | _ => s.fld f i

/-- What a read of field `f` of instance `i` returns. -/
def State.view (s : State) (f : Fld) (i : Nat) : Nat :=
  if (followed f).any s.justReset then 0 else s.shown f i

/-- Field `f` placed at its bits of the register's whole value. -/
def State.placed (s : State) (i : Nat) (f : Fld) : Nat := maskN f.width (s.view f i) * 2 ^ f.info.lo

/-- The value of a register, 64 bits for a pair; reserved bits read 0 (R7), and so do write-only fields (R5). -/
def State.regValue (s : State) (r : Reg) (i : Nat) : Nat :=
  (r.row.fields.filter fun f => f.info.acc != .wo).foldl (fun n f => n + s.placed i f) 0

/-- One 32-bit word of it. -/
def State.regWord (s : State) (a : RegAt) : Nat := s.regValue a.reg a.inst / 2 ^ (32 * a.word) % 2 ^ 32

end Sys2Proof.Machine
end

