-- ==== Sys2Proof/Machine/Supplies.lean ====
section
/-! DEFINITION. The sensor supplies SUP0 to SUP3 (R396, R397, R413). -/

namespace Sys2Proof.Machine

/-- A supply holds its output: on, neither in its limit nor off after an overload. -/
def State.supOn (s : State) (n : Nat) : State :=
  ((s.orFld .PWR_STAT_SUP_ON 0 (2 ^ n)).clearBits .PWR_STAT_SUP_LIMIT 0 (2 ^ n)).clearBits .PWR_STAT_SUP_OFF 0 (2 ^ n)

/-- A write of PWR_SUP_CFG: supplies whose EN changes switch on or off (R396). -/
def State.supCfg (s : State) (v : Nat) : State :=
  let was := s.fld .PWR_SUP_CFG_EN
  let s := (s.setFld .PWR_SUP_CFG_DORMANT_ON 0 (bitsN v 7 4)).setFld .PWR_SUP_CFG_EN 0 (bitsN v 3 0)
  (upto 4).foldl (fun t n =>
    if bitN v n then (if bitN was n then t else t.supOn n) else t.supOff n) s

/-- SUP_OVERLOAD: the supply is driven into its limit; it holds the limit and leaves regulation (DEDUCED, log entry 49). -/
def State.supOverload (s : State) (n : Nat) : State :=
  if bitN (s.fld .PWR_STAT_SUP_ON) n then
    let s := (s.orFld .PWR_STAT_SUP_LIMIT 0 (2 ^ n)).clearBits .PWR_STAT_SUP_ON 0 (2 ^ n)
    { s with power := { s.power with overAt := Tab.put s.power.overAt n (some s.tnow) } }
  else s

/-- SUP_OFF: the overload has lasted 1 ms (DEDUCED, log entry 49). -/
def State.supTrip (s : State) (n : Nat) : State :=
  if bitN (s.fld .PWR_STAT_SUP_LIMIT) n && decide (Tab.get 0 s.power.overAt n + 1000000 ≤ s.tnow) then
    let s := (s.clearBits .PWR_STAT_SUP_LIMIT 0 (2 ^ n)).orFld .PWR_STAT_SUP_OFF 0 (2 ^ n)
    let s := s.orFld .PWR_EVT_SUP_FAULT 0 (2 ^ n)
    { s with power := { s.power with offAt := Tab.put s.power.offAt n (some s.tnow) } }
  else s

/-- SUP_RETRY: 10 ms after it switched off, the supply tries again (DEDUCED, log entry 49). -/
def State.supRetry (s : State) (n : Nat) : State :=
  if bitN (s.fld .PWR_STAT_SUP_OFF) n && decide (Tab.get 0 s.power.offAt n + 10000000 ≤ s.tnow) then s.supOn n else s

/-- OVERLOAD_END: the overload ends before 1 ms. -/
def State.supEnd (s : State) (n : Nat) : State := if bitN (s.fld .PWR_STAT_SUP_LIMIT) n then s.supOn n else s

end Sys2Proof.Machine
end

