-- ==== Sys2Proof/Machine/Access.lean ====
section
/-! DEFINITION. Accesses to the unified map: alignment, narrow accesses, memories, 64-bit pairs, the effect of a write
and of a read of every register, write gates, fences and the forwarding of writes in a pair (R5 to R7, R30, R75, R84,
R220, R320 to R332, R358, R366, R367, R431 to R434). -/

namespace Sys2Proof.Machine

/-! ### Where an access lands (R351, R430 to R432) -/

/-- The offsets that F1 decodes beside the data memories (R351). -/
def inF1 (off : Nat) : Bool :=
  (decide (0x40000 ≤ off) && decide (off < 0x140000)) || (decide (0x200000 ≤ off) && decide (off < 0x260000))
    || (decide (0x400000 ≤ off) && decide (off < 0x440000))

/-- The offsets that F2 decodes beside the data memories (R351). -/
def inF2 (off : Nat) : Bool :=
  (decide (0x140000 ≤ off) && decide (off < 0x160000)) || (decide (0x480000 ≤ off) && decide (off < 0x4A0000))

/-- The sequencer data memories, which every function decodes (R351). -/
def inData (off : Nat) : Bool := decide (0x500000 ≤ off) && decide (off < 0x518000)

/-- The offsets that function `f` decodes (R351). -/
def decodes (f off : Nat) : Bool :=
  inData off || (match f with
    | 0 => decide (off < 0x40000)
    | 1 => inF1 off
    | 2 => inF2 off
    | _ => decide (0x160000 ≤ off) && decide (off < 0x190000))

/-- A word of a memory of the unified map, with what its write gates need (R28, R32, R69, R83, R86, R88, R218, R281). -/
inductive MemAt where
  | tooth (d word : Nat)
  | phase (d word : Nat)
  | factor (d b : Nat)
  | prog (n b i : Nat)
  | mapm
  | weight (d b : Nat)
  | data
  | imem
  deriving DecidableEq, Repr

/-- The memory word at a 4-byte-aligned offset. -/
def memAt (off : Nat) : Option MemAt :=
  if 0x80000 ≤ off ∧ off < 0xC0000 then
    let d := (off - 0x80000) / 0x10000
    let r := off % 0x10000
    if r < 0x1FF8 then some (.tooth d (r / 4 % 2))
    else if 0x2000 ≤ r ∧ r < 0x21F8 then some (.phase d (r / 4 % 2))
    else if 0x4000 ≤ r ∧ r < 0x6000 then some (.factor d ((r - 0x4000) / 0x1000)) else none
  else if 0x188000 ≤ off ∧ off < 0x189000 then some .imem
  else if 0x200000 ≤ off ∧ off < 0x260000 then
    let r := off - 0x200000
    some (.prog (r / 0x4000) (r % 0x4000 / 0x2000) (r % 0x2000 / 4))
  else if 0x400000 ≤ off ∧ off < 0x440000 then some .mapm
  else if 0x480000 ≤ off ∧ off < 0x4A0000 then some (.weight ((off - 0x480000) / 0x8000) (off % 0x8000 / 0x4000))
  else if inData off then some .data
  else none

/-- The bits of a memory word that are not reserved (R7). -/
def MemAt.mask : MemAt → Nat
  | .tooth _ 1 => 0x00FFFF03
  | .phase _ 1 => 0xFFFF
  | .factor _ _ => 0xFFFFFF
  | _ => 0xFFFFFFFF

/-- Byte and half-word writes are applied (R325). -/
def MemAt.narrowOk : MemAt → Bool
  | .mapm => true
  | .data => true
  | _ => false

/-- Byte enables that are a contiguous run within the aligned unit of 4 bytes (R323) (DEDUCED, log entry 37). -/
def beOk (be : Nat) : Bool := [1, 2, 4, 8, 3, 6, 12, 7, 14, 15].contains be

/-- The bytes that are enabled, as a mask of 32 bits. -/
def beMask (be : Nat) : Nat := (upto 4).foldl (fun n j => if bitN be j then n + 255 * 256 ^ j else n) 0

/-- A word with the enabled bytes of another. -/
def mergeWord (old be v : Nat) : Nat := (v &&& beMask be) + (old - (old &&& beMask be))

/-! ### Fences and forwarding (R332, R366, R367) -/

/-- The module's writes are forwarded to its partner (R367) (DEDUCED, log entry 39). -/
def State.forwards (s : State) : Bool := s.leads && s.partnerFollows

/-- A write forwarded on the link, under its original source (R367) (DEDUCED, log entry 39). -/
def State.forward (s : State) (src off be v : Nat) : State :=
  if s.forwards then s.sendReliable fun q => .write q src be off v else s

/-- The source publishes a token: its earlier writes have taken effect (R332). -/
def State.publish (s : State) (src tok : Nat) : State := (s.fenceToken src (tok % 65536)).forward src 0x300 15 (tok % 65536)

/-- Where writes of sources 0 to 23 are forwarded and, in a Follow, locked. -/
def inPair (off : Nat) : Bool := inF1 off || inF2 off || inData off

/-- R366: the Follow's own sources may not write its F1 and F2 ranges and its data memories. -/
def State.followLocked (s : State) : Bool :=
  s.pstate == stJoining || s.pstate == stMatching || s.pstate == stShadow

/-! ### Reads -/

/-- RC fields and other action registers (R321, R434). -/
def isAction (a : RegAt) : Bool :=
  (match a.reg with
    | .DMA_CH_TAIL => true
    | .DMA_CH_RD => true
    | .IOE_QOUT => true
    | .IOE_QIN => true
    | .BAS_FEED_DATA => true
    | .BAS_VALUE => a.word == 0
    | .BAS_TAG => true
    | .ELOG_RD => true
    | _ => false)
  || a.reg.row.fields.any fun f => match f.info.acc with
    | .wo => true
    | .w1c => true
    | .w1s => true
    | .rc => true
    | _ => false

/-- Where an RC field restarts: at its reset value, and PEAK at IN_USE (R5, R142) (DEDUCED, log entry 15). -/
def State.restartAt (s : State) (f : Fld) (i : Nat) : Nat :=
  match f with
  | .SEQ_SLOTS_PEAK => s.inUse i
  | g => g.resetAt i

/-- The RC fields of a register restart. -/
def State.restart (s : State) (r : Reg) (i : Nat) : State :=
  (r.row.fields.filter fun f => f.info.acc == .rc).foldl (fun t f => t.setFld f i (t.restartAt f i)) s

/-- What a read does beside returning the value: restarts, latches and removals (R76, R108, R216, R222, R224, R283). -/
def State.readEffect (s : State) (src : Nat) (a : RegAt) : State :=
  let s := s.restart a.reg a.inst
  match a.reg with
  | .SEQ_CNT_CYC => s.modSeq a.inst fun q => { q with counted := max q.counted s.seqCyc }
  | .SEQ_CNT_STALL => s.modSeq a.inst fun q => { q with stallCounted := max q.stallCounted s.seqCyc }
  | .AD_ANGLE =>
    s.setFld .AD_ANGLE_FRAC a.inst
      (if s.angleValid a.inst then ((s.dom a.inst).segAt s.tnow).acc (s.tnow * 8) % 65536 else 0)
  | .BAS_VALUE => if a.word = 0 then s.readBegin src a.inst else s
  | .BAS_TAG => s.readEnd src a.inst
  | .TRK_MAX => s.trkRead src a.inst
  | .BAS_FEED_DATA => if a.word = 1 then s.feedHigh src a.inst else s.feedLow src a.inst
  | .IOE_QOUT => (s.qoutRead a.inst).1
  | _ => s

/-- The other words of a tracker, as a read of TRK_MAX latched them for the source (R222). -/
def State.trkWord (s : State) (src : Nat) (a : RegAt) : Nat :=
  let j := match a.reg with
    | .TRK_MAX_ANG => some 0
    | .TRK_MIN => some 1
    | .TRK_MIN_ANG => some 2
    | .TRK_TAG => some 3
    | _ => none
  match j, Tab.find s.trkLatch (128 * src + a.inst) with
  | some j, some l => l.getD j 0
  | _, _ => s.regWord a

/-- The offset of the high word of a pair. -/
def RegAt.high (a : RegAt) (off : Nat) : Nat := if a.word = 0 then off + 4 else off

/-- A read of a register word (R320, R322, R326). -/
def State.readReg (s : State) (src off be : Nat) (a : RegAt) : State × Nat :=
  let narrow := be != 15
  if narrow && isAction a then
    (s.accessErr src off be false .narrowActionRead, s.trkWord src a &&& beMask be)
  else
    let pair := a.reg.row.words == 2
    let live := s.trkWord src a
    let lat := Tab.find s.latched src
    let v := if pair && a.word == 1 then (match lat with
      | some l => if l.1 = off then l.2 else live
      | none => live) else live
    let s := if pair && a.word == 1 && (lat.map (·.1)) != some off then s.accessErr src off be false .unlatched else s
    let s := if pair && a.word == 0 && !narrow then
        { s with latched := Tab.put s.latched src (some (off + 4, s.regValue a.reg a.inst / 2 ^ 32)) }
      else s
    (s.readEffect src a, v &&& beMask be)

/-- A read of the unified map by a source: the value, or none for a misaligned access (R323 to R325).
(DEDUCED, log entry 37). -/
def State.busRead (s : State) (src off be : Nat) : State × Option Nat :=
  if be = 0 then (s, some 0)
  else if off % 4 ≠ 0 ∨ beOk be = false then (s.accessErr src off be false .misaligned, none)
  else match regAt off, memAt off with
    | some a, _ => let r := s.readReg src off be a; (r.1, some r.2)
    | none, some _ => (s, some (s.word off &&& beMask be))
    | none, none => (s.accessErr src off be false .unmapped, some 0)

/-! ### Writes to memories -/

/-- Whether the write gates allow a 32-bit write of a memory word (R30, R75, R84, R220, R281). -/
def State.memOpen (s : State) : MemAt → Bool
  | .tooth d _ => s.mapsOpen d
  | .phase d _ => s.mapsOpen d
  | .factor d b => if b = s.fld .AD_TCL_STAT_FRONT d then s.mapsOpen d else !s.flag .AD_TCL_CFG_LEARN_EN d
  | .prog n b _ =>
    ((s.seq n).bank != b && !s.flag .SEQ_SWAP_STAT_PENDING n) || (s.seq n).stopped
  | .weight d b => s.weightOpen d b
  | _ => true

/-- What a discarded write does beside being logged (R75, R220). -/
def State.memRefused (s : State) : MemAt → State
  | .factor d _ => s.raise .AD_TCL_FAULT_HOST_REJECT d
  | .weight d _ => s.raise .WT_STAT_REJECT d
  | _ => s

/-- A write of another source takes a start of the map memory: the next one, but only one in eight sequencer cycles while
sequencers wait (R90) (DEDUCED, log entry 37). -/
def State.mapmWrite (s : State) : State :=
  let m := s.mapm
  if s.cyc < m.write then s else { s with mapm := { m with free := max m.free s.cyc + 1, write := s.cyc + 8 } }

/-- What an accepted write does beside storing: R31's next check, ECC errors cleared (R85), the word noted for the stores of
its cycle (R87), a start taken (R90). -/
def State.memWritten (s : State) (off be : Nat) : MemAt → State
  | .tooth d _ => s.modDom d fun x => { x with invalid := false }
  | .phase d _ => s.modDom d fun x => { x with invalid := false }
  | .prog _ _ _ => { s with progErr := Tab.put s.progErr off none }
  | .mapm => s.mapmWrite
  | .data => s.noteData off be
  | _ => s

/-- A write of a memory word. -/
def State.writeMem (s : State) (src off be v : Nat) (m : MemAt) : State :=
  if be ≠ 15 ∧ m.narrowOk = false then s.accessErr src off be true .narrowMem
  else if s.memOpen m then (s.setBytes off be (v &&& m.mask)).memWritten off be m
  else (s.memRefused m).accessErr src off be true .locked

/-! ### Writes to registers -/

/-- One field of a write of the whole value `v` (R5, R6). -/
def State.writeFld (s : State) (i v : Nat) (f : Fld) : State :=
  let x := bitsN v f.info.hi f.info.lo
  match f.info.acc with
  | .rw => s.setFld f i x
  | .rwl => if s.rwlOpen then s.setFld f i x else s
  | .w1c => s.clearBits f i x
  | .w1s => s.orFld f i x
  | _ => s

/-- The write carries a value for an RWL field that differs from its present value, at a time when RWL writes are not
allowed (R6) (DEDUCED, log entry 38). -/
def State.rwlLocked (s : State) (i v : Nat) (fs : List Fld) : Bool :=
  !s.rwlOpen && fs.any fun f => f.info.acc == .rwl && s.fld f i != bitsN v f.info.hi f.info.lo

/-- A write that acts field by field (R5, R6). -/
def State.writeFields (s : State) (src off be : Nat) (r : Reg) (i v : Nat) : State :=
  let t := r.row.fields.foldl (fun t f => t.writeFld i v f) s
  if s.rwlLocked i v r.row.fields then t.accessErr src off be true .locked else t

/-- A register that EN locks (R306, R319). -/
def State.writeLocked (s : State) (src off be : Nat) (r : Reg) (i v : Nat) : State :=
  if s.dmaOn i then s.accessErr src off be true .locked else s.writeFields src off be r i v

/-- ACCESS_ERR.VALID cleared: the record and LOST go (R328). -/
def State.clearAccess (s : State) : State :=
  [Fld.ACCESS_ERR_VALID, .ACCESS_ERR_LOST, .ACCESS_ERR_SRC, .ACCESS_ERR_KIND, .ACCESS_ERR_BE, .ACCESS_ERR_WRITE,
    .ACCESS_ERR_ADDR_OFFSET].foldl (fun t f => t.setFld f 0 0) s

/-- A write of ELOG_RD (R425). The first that frees space while a LOST entry is owed sets the cycle in which that is due (R424). -/
def State.elogRead (s : State) (src off be v : Nat) : State :=
  let rd := s.fld .ELOG_RD
  if (v % 65536 + 65536 - rd) % 65536 ≤ s.unread then
    let s := s.setFld .ELOG_RD 0 v
    if s.lostOwed.count ≠ 0 ∧ s.lostOwed.freedAt = none ∧ s.unread < 64 then
      { s with lostOwed := { s.lostOwed with freedAt := some (s.tnow / 2) } }
    else s
  else s.accessErr src off be true .refused

/-- TCL_CMD.RESTART: the run is discarded (R71); a bank under way is written on (DESIGN CHOICE, log entry 62). -/
def State.tclRestart (s : State) (d : Nat) : State :=
  (s.setFld .AD_TCL_STAT_REVS_DONE d 0).modLearn d fun l => { l with sums := [] }

/-- A register of the maps: accepted under R30 only, and R31 checks again. -/
def State.writeMapReg (s : State) (src off be : Nat) (r : Reg) (d v : Nat) : State :=
  if s.mapsOpen d then (s.writeFields src off be r d v).modDom d fun x => { x with invalid := false }
  else s.accessErr src off be true .locked

/-- A configuration register that R31's check depends on. -/
def State.writeDomReg (s : State) (src off be : Nat) (r : Reg) (d v : Nat) : State :=
  let t := s.writeFields src off be r d v
  if s.rwlOpen then t.modDom d fun x => { x with invalid := false } else t

/-- Registers of F1: domains, sequencers, outputs and service slots. DESYNC of AD_CMD acts before RESEED, and SWAP of
AD_TCL_CMD before RESTART (DESIGN CHOICE, log entry 62). A sequencer's new domain or allowance acts on its pending swap and on
its channels at once (R140, R174). -/
def State.writeF1 (s : State) (src off be : Nat) (r : Reg) (i v : Nat) : State :=
  match r with
  | .AD_INPUTS => s.writeDomReg src off be r i v
  | .AD_CFG => s.writeDomReg src off be r i v
  | .AD_MAPCFG => s.writeMapReg src off be r i v
  | .AD_TMAP_OFFSET => s.writeMapReg src off be r i v
  | .AD_CMD =>
    let s := if bitN v 0 then s.desyncCmd i else s
    if bitN v 1 then s.reseedCmd i else s
  | .AD_TCL_CFG => (s.writeFields src off be r i v).learnCfg i
  | .AD_TCL_CMD =>
    let s := if bitN v 0 then s.tclSwapReq i else s
    if bitN v 1 then s.tclRestart i else s
  | .SEQ_CTRL =>
    let t := s.writeFields src off be r i v
    let t := if t.seqDomain i = s.seqDomain i then t else t.rebound i
    ((t.swapSettle i).modeSettle i).redrive
  | .SEQ_MODECFG => (s.writeFields src off be r i v).redrive
  | .SEQ_CMD => s.seqCmd src off be i v
  | .SEQ_SWAP => if bitN v 0 then s.swapReq i else s
  | .SEQ_FLAGS_SET => s.orFld .SEQ_FLAGS i (v % 65536)
  | .OUT_OWNER => s.ownerWrite src off be i v
  | .SVC_CFG =>
    let t := s.writeFields src off be r i v
    t.svcRearm i (s.flag .SVC_CFG_EN i) (t.fld .SVC_CFG_DOMAIN i != s.fld .SVC_CFG_DOMAIN i)
  | .SVC_TARGET => (s.writeFields src off be r i v).svcRearm i (s.flag .SVC_CFG_EN i) true
  | _ => s.writeFields src off be r i v

/-- Registers of F2: converters, inputs, basins, trackers and weight banks. -/
def State.writeF2 (s : State) (src off be : Nat) (r : Reg) (i v : Nat) : State :=
  match r with
  | .ADC_CFG => s.adcCfg src off be i v
  | .ADC_CMD =>
    let s := if bitN v 0 then s.adcCommit i else s
    let s := if bitN v 1 then s.adcCal i else s
    if bitN v 2 then s.adcFltReset i else s
  | .AIN_CFG => s.ainCfg i v
  | .BAS_CFG => s.basCfg src off be i v
  | .BAS_CMD => s.basCmd i v
  | .TRK_CFG => s.trkCfg i v
  | .WT_CMD => if bitN v 0 then s.wtSwap i else s
  | _ => s.writeFields src off be r i v

/-- Registers of F3: comparators, generators, trip channels and engines. -/
def State.writeF3 (s : State) (src off be : Nat) (r : Reg) (i v : Nat) : State :=
  match r with
  | .CMP_CFG => s.cmpCfg src off be i v
  | .CMP_DAC => s.cmpDac i v
  | .CMP_ROUTE => s.cmpRoute i v
  | .PWM_CTRL => s.pwmCtrl src off be i v
  | .PWM_PERIOD | .PWM_CMPA | .PWM_CMPB | .PWM_MARK1 | .PWM_MARK2 | .PWM_DEADTIME =>
    (s.shadowNote i).writeFields src off be r i v
  | .PWM_FORCE => s.pwmForce i v
  | .PWM_OUTCFG => s.pwmOutcfg src off be i v
  | .PWM_CMD =>
    let s := if bitN v 1 then s.pwmTrip i 0 true false else s
    if bitN v 0 then s.tripClear i else s
  | .PWM_SYNC => s.pwmRestart (v % 65536)
  | .TRIP_CFG => (s.writeFields src off be r i v).tripRefresh i
  | .IOE_CTRL => s.ioeCtrl i v
  | .IOE_CMD => if bitN v 0 then s.ioeReset i else s
  | .IOE_INJECT => s.ioeInject i v
  | .IOE_FLAGS_SET => s.orFld .IOE_FLAGS i (v % 256)
  | .IOE_QIN => s.qinWrite i v
  | .GIO_CFG => (s.gioCfg i v).getD (s.accessErr src off be true .locked)
  | .IOE_GROUP_CMD => s.ioeGroupCmd (bitsN v 18 16) (bitN v 0) (bitN v 1)
  | _ => s.writeFields src off be r i v

/-- Registers of F0: platform, interrupts, DMA, pair and recovery. -/
def State.writeF0 (s : State) (src off be : Nat) (r : Reg) (i v : Nat) : State :=
  match r with
  | .MODE_REQ => s.hostMode src v
  | .ICU_TGT => s.tgtWrite src off be i v
  | .ICU_SWI_SET => s.orFld .ICU_SWI i (v % 2 ^ 32)
  | .DMA_CH_CFG => s.dmaCfg src off be i v
  | .DMA_CH_CMD => s.dmaCmd src off be i v
  | .DMA_CH_RING => s.writeLocked src off be r i v
  | .DMA_CH_SIZE => s.writeLocked src off be r i v
  | .DMA_CH_TAIL => s.dmaTail src off be i v
  | .DMA_CH_RBASE => s.writeLocked src off be r i v
  | .DMA_CH_RSIZE => s.writeLocked src off be r i v
  | .DMA_CH_RD => s.dmaRd src off be i v
  | .DMA_CH_WRPTR_ADDR => s.writeLocked src off be r i v
  | .ACCESS_ERR => if bitN v 31 then s.clearAccess else s
  | .FENCE => s.publish src v
  | .PAIR_CMD =>
    let s := if bitN v 0 then
        (if s.hoRefused then s.hoRequest.accessErr src off be true .refused else s.hoRequest) else s
    if bitN v 1 then s.joinAbortCmd else s
  | .PWR_SUP_CFG => s.supCfg v
  | .ELOG_RD => s.elogRead src off be v
  | _ => s.writeFields src off be r i v

/-- A write of the whole value of a register. -/
def State.writeReg (s : State) (src off be : Nat) (r : Reg) (i v : Nat) : State :=
  match r.row.owner with
  | 0 => s.writeF0 src off be r i v
  | 1 => s.writeF1 src off be r i v
  | 2 => s.writeF2 src off be r i v
  | _ => s.writeF3 src off be r i v

/-- A pair of registers that a write can change (R326). -/
def pairRw (r : Reg) : Bool := r.row.words == 2 && r.row.fields.any fun f => f.info.acc == .rw

/-- A write of a register word: narrow writes, and the two words of a pair (R321, R326). -/
def State.writeWord (s : State) (src off be v : Nat) (a : RegAt) : State :=
  if be ≠ 15 ∧ isAction a then s.accessErr src off be true .narrowActionWrite
  else if pairRw a.reg then
    let old := s.regValue a.reg a.inst
    if be ≠ 15 then
      let w := mergeWord (old / 2 ^ (32 * a.word) % 2 ^ 32) be v
      s.writeReg src off be a.reg a.inst (if a.word = 0 then old / 2 ^ 32 * 2 ^ 32 + w else old % 2 ^ 32 + w * 2 ^ 32)
    else if a.word = 0 then { s with heldLow := Tab.put s.heldLow src (some (off + 4, v)) }
    else match Tab.find s.heldLow src with
      | some h =>
        if h.1 = off then
          State.writeReg { s with heldLow := Tab.put s.heldLow src none } src off be a.reg a.inst (h.2 + v * 2 ^ 32)
        else s.writeReg src off be a.reg a.inst (old % 2 ^ 32 + v * 2 ^ 32)
      | none => s.writeReg src off be a.reg a.inst (old % 2 ^ 32 + v * 2 ^ 32)
  else s.writeReg src off be a.reg a.inst (if be = 15 then v else mergeWord (s.regWord a) be v)

/-- R358, R366: a write that the present state of F1 or of the Follow discards (DEDUCED, log entry 39). -/
def State.writeBarred (s : State) (off : Nat) (own : Bool) : Bool :=
  (inF1 off && bitN (s.fld .PCIE_STAT_FLR_PENDING) 1)
    || (own && inPair off && s.followLocked && !(match regAt off with
      | some a => a.reg.row.fields.any fun f => f.info.acc == .w1c
      | none => false))

/-- The memory or register that an offset belongs to is a memory (R325). -/
def inMemory (off : Nat) : Bool := (regAt off).isNone && (memAt off).isSome

/-- Byte enables, lowest first, that are one contiguous run. -/
def beRun (bes : List Nat) : Bool :=
  let bits := bes.flatMap fun be => (upto 4).map fun j => bitN be j
  ((bits.dropWhile fun b => !b).dropWhile fun b => b).all fun b => !b

/-- An access of more than one word is misaligned: by its address, by its byte enables, or outside the memories by more than
8 bytes (R323). -/
def wideBad (off : Nat) (bes : List Nat) : Bool :=
  off % (4 * bes.length) != 0 || !beRun bes || (decide (2 < bes.length) && !inMemory off)

/-- A write of the unified map; `own` is false for a forwarded write (R367) (DEDUCED, log entry 37). -/
def State.busStore (s : State) (src off be v : Nat) (own : Bool) : State :=
  if be = 0 then s
  else if off % 4 ≠ 0 ∨ beOk be = false then s.accessErr src off be true .misaligned
  else if s.writeBarred off own then s.accessErr src off be true .locked
  else match regAt off, memAt off with
    | some a, _ => s.writeWord src off be v a
    | none, some m => s.writeMem src off be v m
    | none, none => s.accessErr src off be true .unmapped

/-- A write by one of the module's own sources, forwarded once it has taken effect (R330, R367). -/
def State.busWrite (s : State) (src off be v : Nat) : State :=
  let t := s.busStore src off be v true
  if inPair off && be != 0 then (if s.forwards then t.forward src off be v else t) else t

/-- Consecutive 32-bit writes in ascending order (R325, R326). -/
def State.busWords (s : State) (src off : Nat) : List (Nat × Nat) → State
  | [] => s
  | w :: r => (s.busWrite src off w.1 w.2).busWords src (off + 4) r

/-- A write of one or more words, each with its byte enables: two words reach a pair of registers low word first, and more
reach a memory as consecutive 32-bit writes (R323, R325, R326) (DEDUCED, log entry 37). -/
def State.busWriteWide (s : State) (src off be v : Nat) (rest : List (Nat × Nat)) : State :=
  if rest.isEmpty then s.busWrite src off be v
  else if (be :: rest.map (·.1)).all (· == 0) then s
  else if wideBad off (be :: rest.map (·.1)) then s.accessErr src off be true .misaligned
  else s.busWords src off ((be, v) :: rest)

/-- Consecutive 32-bit reads in ascending order; the data, lowest word first (R325, R326). -/
def State.busReads (s : State) (src off : Nat) : List Nat → State × Nat
  | [] => (s, 0)
  | be :: r =>
    let a := s.busRead src off be
    let b := a.1.busReads src (off + 4) r
    (b.1, a.2.getD 0 + 2 ^ 32 * b.2)

/-- A read of one or more words (R323, R325, R326) (DEDUCED, log entry 37). -/
def State.busReadWide (s : State) (src off be : Nat) (rest : List Nat) : State × Option Nat :=
  if rest.isEmpty then s.busRead src off be
  else if (be :: rest).all (· == 0) then (s, some 0)
  else if wideBad off (be :: rest) then (s.accessErr src off be false .misaligned, none)
  else let r := s.busReads src off (be :: rest); (r.1, some r.2)

end Sys2Proof.Machine
end

