-- ==== Sys2Proof/Machine/Dma.lean ====
section
/-! DEFINITION. The DMA engine: descriptors, checks, transfers, status, feed mode and the loss of a read (R302 to R318,
R346, R353). -/

namespace Sys2Proof.Machine

/-! ### Descriptors (R307) -/

def Dma.d (x : Dma) (k : Nat) : Nat := x.desc.getD k 0
def Dma.op (x : Dma) : Nat := bitsN (x.d 0) 3 0
def Dma.srcDev (x : Dma) : Bool := bitN (x.d 0) 4
def Dma.dstDev (x : Dma) : Bool := bitN (x.d 0) 5
def Dma.wb (x : Dma) : Bool := bitN (x.d 0) 7
def Dma.len (x : Dma) : Nat := x.d 1 % 2 ^ 24
def Dma.srcAddr (x : Dma) : Nat := x.d 2 + 2 ^ 32 * x.d 3
def Dma.dstAddr (x : Dma) : Nat := x.d 4 + 2 ^ 32 * x.d 5

/-- The source number of a channel (R329). -/
def dmaSrc (c : Nat) : Nat := 8 + c

/-- The blocks of the unified map (R430). -/
def mapBlocks : List (Nat × Nat) :=
  [(0x0, 0xF00), (0x10000, 0x108A0), (0x20000, 0x20808), (0x30000, 0x30088), (0x40000, 0x44000), (0x48000, 0x48800),
    (0x80000, 0xC0000), (0x100000, 0x106000), (0x106000, 0x106008), (0x110000, 0x111800), (0x114000, 0x114400),
    (0x118000, 0x118014), (0x140000, 0x141800), (0x142000, 0x1420C0), (0x150000, 0x158000), (0x158000, 0x159000),
    (0x159000, 0x159080)] ++
  [(0x159100, 0x159140), (0x159200, 0x159240), (0x160000, 0x160400), (0x170000, 0x170400), (0x170800, 0x170844),
    (0x180000, 0x181000), (0x184000, 0x184104), (0x188000, 0x189000), (0x200000, 0x260000), (0x400000, 0x440000),
    (0x480000, 0x4A0000), (0x500000, 0x518000)]

/-- Every word of a range of `n` words is mapped. -/
def wordsMapped (off : Nat) : Nat → Bool
  | 0 => true
  | n + 1 => ((memAt off).isSome || (regAt off).isSome) && wordsMapped (off + 4) n

/-- A range lies inside one block, and something is mapped at each of its offsets (R310); the blocks from the engines'
instruction memory upwards are memories without gaps. -/
def rangeMapped (off len : Nat) : Bool :=
  mapBlocks.any (fun b => decide (b.1 ≤ off) && decide (off + len ≤ b.2))
    && (decide (0x188000 ≤ off) || wordsMapped off (len / 4))

/-- The checks of R310 before any data moves; INVALID is looked at first (DEDUCED, log entry 40). -/
def State.dmaCheck (s : State) (c : Nat) : Option Nat :=
  let x := s.dma c
  if 2 < x.op ∨ bitsN (x.d 0) 15 10 ≠ 0 ∨ bitsN (x.d 1) 31 24 ≠ 0 ∨ (x.op = 1 ∧ x.srcDev)
      ∨ (x.op ≠ 1 ∧ s.fld .DMA_CH_CFG_QUOTA c = 0) then some 7
  else if (x.op ≠ 1 ∧ x.srcAddr % 8 ≠ 0) ∨ x.dstAddr % 8 ≠ 0 ∨ x.len % 8 ≠ 0 ∨ x.len = 0 then some 2
  else if (x.srcDev && (decide (2 ^ 24 ≤ x.srcAddr) || !rangeMapped x.srcAddr x.len))
      || (x.dstDev && (decide (2 ^ 24 ≤ x.dstAddr) || !rangeMapped x.dstAddr x.len)) then some 3
  else if x.op ≠ 1 ∧ x.srcDev = x.dstDev ∧ x.srcAddr < x.dstAddr + x.len ∧ x.dstAddr < x.srcAddr + x.len then some 4
  else none

/-! ### Requests to the host (R304, R305, R316) -/

/-- Bus Master Enable of F0. -/
def State.bme (s : State) : Bool := (s.fn 0).bme

/-- A PCIe request is ready and may not be issued (R305). -/
def State.bmeOff (s : State) : State := s.raise .DMA_ENG_EVT_BME_OFF

/-- Bytes of the next read at an address: 512, Max_Read_Request_Size and the 4 KiB boundary (R304, R348). -/
def State.readSize (s : State) (addr left : Nat) : Nat :=
  min (min 512 (128 * 2 ^ (s.fn 0).mrrs)) (min left (4096 - addr % 4096))

/-- Bytes of the next posted write at an address: 256, Max_Payload_Size and the 4 KiB boundary (R304). -/
def State.writeSize (s : State) (addr left : Nat) : Nat :=
  min (min 256 (128 * 2 ^ (s.fn 0).mps)) (min left (4096 - addr % 4096))

/-- Posted writes of words at a host address. -/
def State.postWords (s : State) (c addr : Nat) (ns : Bool) (ws : List Nat) : Nat → State
  | 0 => s
  | n + 1 =>
    if ws.isEmpty then s else
      let k := max 1 (s.writeSize addr (4 * ws.length) / 4)
      (s.emit (.write c addr (ws.take k) ns)).postWords c (addr + 4 * k) ns (ws.drop k) n

/-- A tag of the endpoint is outstanding (R304). -/
def State.tagBusy (s : State) (n : Nat) : Bool := s.dmas.any fun e => e.2.open'.any fun r => r.tag == n

/-- The lowest of the 32 read tags that is free (R304, R344). -/
def State.freeTag (s : State) : Option Nat := (upto 32).find? fun n => !s.tagBusy n

/-- Data bytes written (R319). -/
def State.dmaWrote (s : State) (c n : Nat) : State :=
  (s.bumpBy .DMA_CH_CNT_BYTES c n).modDma c fun x => { x with off := x.off + n }

/-! ### The end of a descriptor (R309, R311) -/

/-- The channel stops with a RESULT: ERR, LAST_RESULT, EN at 0, HEAD unchanged (R311). -/
def State.dmaStop (s : State) (c r : Nat) : State :=
  let s := (s.raise .DMA_CH_EVT_ERR c).setFld .DMA_CH_STAT_LAST_RESULT c r
  ((s.putFlag .DMA_CH_CFG_EN c false).putDmaState c dmStopped).setDma c {}

/-- The status of a descriptor in its words +0x18 and +0x1C (R307). -/
def State.dmaStatus (s : State) (c r off : Nat) : State :=
  let x := s.dma c
  if x.wb then s.emit (.write c (x.addr + 24) [2 ^ 31 + r * 2 ^ 28 + off, s.tnow % 2 ^ 32] false) else s

/-- The descriptor completes, or stops its channel; DONE follows its status in both cases (R309, R311). -/
def State.dmaConclude (s : State) (c r off : Nat) : State :=
  let x := s.dma c
  let s := s.dmaStatus c r off
  let s := if bitN (x.d 0) 6 then s.raise .DMA_CH_EVT_DONE c else s
  if r = 0 ∨ (r = 1 ∧ bitN (x.d 0) 9 = false) then
    let s := if bitN (x.d 0) 8 then s.publish (dmaSrc c) (x.d 0 / 65536) else s
    let s := s.setFld .DMA_CH_HEAD c ((s.fld .DMA_CH_HEAD c + 1) % s.ringLen c)
    ((s.bump .DMA_CH_CNT_DESC c).setDma c {}).putDmaState c dmIdle
  else s.dmaStop c r

/-! ### The read engine (R303, R304, R308) -/

/-- One 8-byte unit read from the unified map, low word first. -/
def State.readUnit (s : State) (src off : Nat) : State × List Nat :=
  let a := s.busRead src off 15
  let b := a.1.busRead src (off + 4) 15
  (b.1, [a.2.getD 0, b.2.getD 0])

/-- Units read from the unified map. -/
def State.readUnits (s : State) (src off : Nat) : Nat → State × List Nat
  | 0 => (s, [])
  | n + 1 =>
    let a := s.readUnit src off
    let b := a.1.readUnits src (off + 8) n
    (b.1, a.2 ++ b.2)

/-- Bytes of the next piece of a COPY or COMPARE: a COMPARE asks for the same piece of its two ranges. -/
def State.pieceSize (s : State) (c : Nat) : Nat :=
  let x := s.dma c
  let left := x.len - x.ask
  let a := if x.srcDev then min 512 left else s.readSize (x.srcAddr + x.ask) left
  if x.op = 2 then
    min (min a (if x.dstDev then 512 else s.readSize (x.dstAddr + x.ask) left)) (256 * s.fld .DMA_CH_CFG_QUOTA c)
  else if x.srcDev ∧ x.dstDev then min a 8
  else a

/-- The bytes of the buffer that a channel holds or has asked for (R303). -/
def Dma.holds (x : Dma) : Nat := x.reqs.foldl (fun n r => n + r.len) 0

/-- A read that a channel has ready: what it is for, whether it goes to the unified map, its address and its bytes. -/
structure DmaWant where
  kind : DmaKind
  dev : Bool
  addr : Nat
  len : Nat
  deriving DecidableEq, Repr

/-- The next read of a channel: a descriptor while HEAD differs from TAIL, or the next piece within the quota (R303, R306,
R308). -/
def State.nextRead (s : State) (c : Nat) : Option DmaWant :=
  let x := s.dma c
  if x.fin.isSome then none
  else if x.desc.isEmpty then
    if x.reqs.isEmpty && s.dmaOn c && !s.dmaFeeds c && s.fld .DMA_CH_HEAD c != s.fld .DMA_CH_TAIL c then
      some ⟨.fetch, false, s.fld .DMA_CH_RING c * 32 + 32 * s.fld .DMA_CH_HEAD c, 32⟩
    else none
  else if x.op = 2 ∧ x.askDst < x.ask then some ⟨.dest, x.dstDev, x.dstAddr + x.askDst, x.ask - x.askDst⟩
  else if x.op ≠ 1 ∧ x.ask < x.len
      ∧ x.holds + (if x.op = 2 then 2 else 1) * s.pieceSize c ≤ 512 * s.fld .DMA_CH_CFG_QUOTA c then
    some ⟨.source, x.srcDev, x.srcAddr + x.ask, s.pieceSize c⟩
  else none

/-- The read engine can serve a channel now: a request to the host needs Bus Master Enable and a tag (R304, R305). -/
def State.canRead (s : State) (c : Nat) : Bool :=
  match s.nextRead c with
  | some w => w.dev || (s.bme && s.freeTag.isSome)
  | none => false

/-- A request taken into a channel's record. -/
def Dma.asked (x : Dma) (r : DmaReq) : Dma :=
  { x with reqs := x.reqs ++ [r]
           ask := if r.kind = .source then x.ask + r.len else x.ask
           askDst := if r.kind = .dest then x.askDst + r.len else x.askDst }

/-- The next read of a channel: performed at once in the unified map, issued as a request to the host (R304, R316). -/
def State.dmaRead (s : State) (c : Nat) : State :=
  match s.nextRead c with
  | none => s
  | some w =>
    if w.dev then
      let r := s.readUnits (dmaSrc c) w.addr (w.len / 8)
      r.1.modDma c fun x => x.asked { kind := w.kind, addr := w.addr, len := w.len, at' := s.tnow, data := some r.2 }
    else
      let ns := w.kind != .fetch && s.flag .DMA_CH_CFG_NOSNOOP c
      let t := if w.kind = .fetch then s.putDmaState c dmFetch else s
      (t.emit (.read c w.addr w.len ns)).modDma c fun x =>
        { x.asked { kind := w.kind, addr := w.addr, len := w.len, at' := s.tnow, tag := s.freeTag.getD 0 } with
          addr := if w.kind = .fetch then w.addr else x.addr }

/-! ### The write engine (R304, R308, R312) -/

/-- Words written into the unified map, each unit low word first. -/
def State.writeWords (s : State) (src off : Nat) : List Nat → State
  | [] => s
  | w :: r => (s.busWrite src off 15 w).writeWords src (off + 4) r

/-- Words written to the destination of a descriptor at its present offset. -/
def State.dmaPut (s : State) (c : Nat) (ws : List Nat) : State :=
  let x := s.dma c
  let t := if x.dstDev then s.writeWords (dmaSrc c) (x.dstAddr + x.off) ws
    else s.emit (.write c (x.dstAddr + x.off) ws (s.flag .DMA_CH_CFG_NOSNOOP c))
  t.dmaWrote c (4 * ws.length)

/-- The byte offset of the first differing unit of two word lists. -/
def firstDiff (a b : List Nat) : Option Nat :=
  ((upto (a.length / 2)).find? fun k => a.getD (2 * k) 0 != b.getD (2 * k) 0 || a.getD (2 * k + 1) 0 != b.getD (2 * k + 1) 0).map
    (8 * ·)

/-- Bytes of the next write of a descriptor: one unit in the unified map, one posted write to the host. -/
def State.putSize (s : State) (c left : Nat) : Nat :=
  let x := s.dma c
  if x.dstDev then 8 else s.writeSize (x.dstAddr + x.off) left

/-- The data at the front of a channel's reads. -/
def Dma.front (x : Dma) : Option (List Nat) := x.reqs.head?.bind fun r => r.data

/-- The words taken from the front of a channel's reads. -/
def Dma.used (x : Dma) (n : Nat) : Dma :=
  match x.reqs with
  | r :: rest =>
    let d := (r.data.getD []).drop n
    { x with reqs := if d.isEmpty then rest else { r with len := 4 * d.length, data := some d } :: rest }
  | [] => x

/-- What a channel has ready for the write engine: nothing, work inside the module, or a request to the host. -/
inductive DmaWork where
  | none | inside | host
  deriving DecidableEq, Repr

/-- The next work of a channel beside its reads: the end of its descriptor, a write, or a comparison. -/
def State.nextWrite (s : State) (c : Nat) : DmaWork :=
  let x := s.dma c
  let put : DmaWork := if x.dstDev then .inside else .host
  match x.fin with
  | some _ => if !x.open'.isEmpty then .none else if x.wb then .host else .inside
  | none =>
    if x.desc.isEmpty then .none
    else if x.len ≤ x.off then .inside
    else if x.op = 1 then put
    else if x.op = 0 then (if x.front.isSome then put else .none)
    else if x.front.isSome && (x.reqs.drop 1).head?.any fun r => r.data.isSome then .inside else .none

/-- The write engine can serve a channel now. -/
def State.canWrite (s : State) (c : Nat) : Bool :=
  match s.nextWrite c with
  | .none => false
  | .inside => true
  | .host => s.bme

/-- A comparison of the front piece of both ranges (R308). -/
def Dma.compared (x : Dma) : Dma :=
  let a := x.front.getD []
  let b := ((x.reqs.drop 1).head?.bind fun r => r.data).getD []
  match firstDiff a b with
  | some k => { x with fin := some (1, x.off + k), reqs := x.open' }
  | none => { x with off := x.off + 4 * a.length, reqs := x.reqs.drop 2 }

/-- One turn of the write engine for a channel. -/
def State.dmaWrite (s : State) (c : Nat) : State :=
  let x := s.dma c
  match x.fin with
  | some f => if x.desc.isEmpty then s.dmaStop c f.1 else s.dmaConclude c f.1 f.2
  | none =>
    if x.len ≤ x.off then s.setDma c { x with fin := some (0, x.len) }
    else if x.op = 1 then s.dmaPut c ((List.replicate (s.putSize c (x.len - x.off) / 8) [x.d 2, x.d 3]).flatten)
    else if x.op = 0 then
      let a := x.front.getD []
      let ws := a.take (s.putSize c (4 * a.length) / 4)
      (s.dmaPut c ws).modDma c fun y => y.used ws.length
    else s.setDma c x.compared

/-! ### Turns (R304) -/

/-- The channel whose turn it is among those that a test allows: PRI 1 first, and round-robin within a priority. -/
def State.dmaTurn (s : State) (next : Nat) (p : Nat → Bool) : Option Nat :=
  let cs := ((upto 16).map fun k => (next + k) % 16).filter p
  match cs.find? fun c => s.flag .DMA_CH_CFG_PRI c with
  | some c => some c
  | none => cs.head?

/-- Turns of the two engines, one request each, until neither can act (DEDUCED, log entry 40). -/
def State.dmaTurns (s : State) : Nat → State
  | 0 => s
  | n + 1 =>
    let r := s.dmaTurn s.pcie.readTurn s.canRead
    let s := match r with
      | some c => (s.modPcie fun p => { p with readTurn := (c + 1) % 16 }).dmaRead c
      | none => s
    match s.dmaTurn s.pcie.writeTurn s.canWrite, r with
    | some c, _ => ((s.modPcie fun p => { p with writeTurn := (c + 1) % 16 }).dmaWrite c).dmaTurns n
    | none, some _ => s.dmaTurns n
    | none, none => s

/-- Enough turns for the descriptors in progress. -/
def State.dmaFuel (s : State) : Nat := (upto 16).foldl (fun n c => n + (s.dma c).len + 64) 0

/-- A channel has a request to the host ready that Bus Master Enable holds back (R305). -/
def State.bmeHolds (s : State) (c : Nat) : Bool :=
  !s.bme && ((s.nextRead c).any (fun w => !w.dev) || s.nextWrite c == .host)

/-- A channel has something to do or to wait for. -/
def State.dmaBusy (s : State) (c : Nat) : Bool :=
  s.dmaOn c || !(s.dma c).desc.isEmpty || !(s.dma c).reqs.isEmpty || (s.dma c).fin.isSome

/-- Every channel goes on as far as it can (R302, R304, R305) (DEDUCED, log entry 40). -/
def State.dmaPump (s : State) : State :=
  if (upto 16).any s.dmaBusy then
    let t := s.dmaTurns s.dmaFuel
    if (upto 16).any t.bmeHolds then t.bmeOff else t
  else s

/-! ### Completions (R304, R310, R353) -/

/-- The 32-bit words of a list of bytes, little-endian. -/
def wordsOf : List Byte → List Nat
  | a :: b :: c :: d :: r => (a.toNat + 256 * b.toNat + 65536 * c.toNat + 16777216 * d.toNat) :: wordsOf r
  | _ => []

/-- An outstanding read of a channel ends without usable data: HOSTERR, or what already ends the descriptor (R310, R313). -/
def State.readFailed (s : State) (c tag : Nat) : State :=
  s.modDma c fun x =>
    let y := { x with reqs := x.reqs.filter fun r => r.data.isSome || r.tag != tag }
    if x.fin.isSome then y else { y with fin := some (5, x.off), reqs := y.open' }

/-- The descriptor that a fetch brought, and its checks (R307, R310). -/
def State.fetched (s : State) (c : Nat) (ws : List Nat) : State :=
  let s := (s.setDma c { desc := ws, addr := (s.dma c).addr }).putDmaState c dmActive
  match s.dmaCheck c with
  | some r => s.modDma c fun y => { y with fin := some (r, 0) }
  | none => s

/-- The data of an outstanding read of a channel; a descriptor that is ending discards them (R313). -/
def State.readDone (s : State) (c : Nat) (q : DmaReq) (ws : List Nat) : State :=
  if (s.dma c).fin.isSome then
    s.modDma c fun x => { x with reqs := x.reqs.filter fun r => r.tag != q.tag }
  else if q.kind = .fetch then s.fetched c ws
  else s.modDma c fun x =>
    { x with reqs := x.reqs.map fun r => if r.data.isNone && r.tag == q.tag then { r with data := some ws } else r }

/-- DMA_READ_COMPLETION: a completion with status and data, named by its tag; one that no read awaits is discarded (R353). -/
def State.dmaCompletion (s : State) (c tag : Nat) (data : Option (List Byte)) : State :=
  match (s.dma c).open'.find? (fun r => r.tag == tag), data with
  | none, _ => s
  | some q, some b => if b.length = q.len then s.readDone c q (wordsOf b) else s
  | some _, none => s.readFailed c tag

/-- The completion timeout of F0, ns (R353). -/
def ctoNs (v : Nat) : Nat :=
  match v with
  | 1 => 80000
  | 2 => 8000000
  | 5 => 40000000
  | 6 => 150000000
  | _ => 10000000

/-- COMPLETION_TIMEOUT of the oldest outstanding read of a channel. -/
def State.dmaTimeout (s : State) (c : Nat) : State :=
  match (s.dma c).open' with
  | q :: _ => if !(s.fn 0).ctoOff && decide (q.at' + ctoNs (s.fn 0).cto ≤ s.tnow) then s.readFailed c q.tag else s
  | [] => s

/-- R346: every outstanding read ends with HOSTERR. -/
def State.dmaLost (s : State) : State :=
  (upto 16).foldl (fun t c => (t.dma c).open'.foldl (fun t q => t.readFailed c q.tag) t) s

/-! ### Feed mode (R314) -/

/-- DMA_FEED_TRANSFER: one record from the feed to the result ring, with the pointer write after it. -/
def State.feedTransfer (s : State) (c : Nat) : State :=
  let f := s.fld .DMA_CH_CFG_FEED c
  let n := s.resultLen c
  let wr := s.fld .DMA_CH_WR c
  if !(s.dmaOn c && s.dmaFeeds c) then s
  else if (s.feed f).records.isEmpty || s.ringFull c then s
  else if !s.bme then s.bmeOff
  else
    let r := s.readUnits (dmaSrc c) (0x159000 + 0x20 * f) 1
    let q := r.1.readUnits (dmaSrc c) (0x159000 + 0x20 * f) 1
    let s := q.1.postWords c (s.fld .DMA_CH_RBASE c * 16 + 16 * wr) (s.flag .DMA_CH_CFG_NOSNOOP c) (r.2 ++ q.2) 4
    let s := ((s.bumpBy .DMA_CH_CNT_BYTES c 16).bump .DMA_CH_CNT_DESC c).setFld .DMA_CH_WR c ((wr + 1) % n)
    if s.flag .DMA_CH_WRPTR_ADDR_EN c then s.emit (.write c (s.fld .DMA_CH_WRPTR_ADDR c * 8) [(wr + 1) % n, 0] false) else s

end Sys2Proof.Machine
end

