-- ==== Sys2Proof/Machine/Reset.lean ====
section
/-! DEFINITION. The block resets of the four functions (R8, R226, R242, R257, R287, R299, R318, R355, R356), and the state
after a power-on reset and after a wake (R393, R409, R411). -/

namespace Sys2Proof.Machine

/-- The fields of a list of registers that pass a test, as key ranges of the field store. -/
def fieldKeys (rs : List Reg) (p : Fld → Bool) : List Nat :=
  rs.flatMap fun r => (r.row.fields.filter p).map fun f => Fld.key f 0

/-- Every instance of the fields at these keys takes its reset value. -/
def State.resetKeys (s : State) (ks : List Nat) : State :=
  { s with regs := s.regs.filter fun e => !ks.any fun k => decide (k ≤ e.1) && decide (e.1 < k + 1024) }

/-- A function reset of a list of registers: every field without a dash in its reset entry (R8) (DEDUCED, log entry 35). -/
def State.functionReset (s : State) (rs : List Reg) : State := s.resetKeys (fieldKeys rs fun f => !f.info.keep)

/-! ### F0 (R299, R318, R355) -/

/-- Registers of F0 whose record a function reset leaves alone beside the dashes: the MSPI, which no function reset reaches
(R341), and the status of supplies, clocks and endpoint, which reads as its reset value at the reset and as what goes on
after it (`State.view`) (DEDUCED, log entry 34). -/
def liveStatus : List Reg := [.PWR_STAT, .PWR_VIN, .CLK_STAT, .PCIE_STAT, .MSPI_STAT, .MSPI_CNT_FRAME, .MSPI_CNT_CMD]

/-- ICU_TGT of a source whose target is no sequencer and no recovery manager (R299) (DEDUCED, log entry 35). -/
def State.resetTarget (s : State) (k : Nat) : State :=
  if s.fld .ICU_TGT_TYPE k ≤ 5 then ((s.setFld .ICU_TGT_TYPE k 0).setFld .ICU_TGT_PRI k 0).setFld .ICU_TGT_IDX k 0 else s

/-- The block reset of F0 (DEDUCED, log entry 35). -/
def State.resetF0 (s : State) : State :=
  let s := s.functionReset (platformRegs.filter fun r => !liveStatus.contains r)
  let s := s.functionReset (icuRegs.filter fun r => r != .ICU_TGT)
  let s := (upto 384).foldl State.resetTarget s
  { s.functionReset dmaRegs with dmas := [] }

/-! ### F1 (R356) -/

/-- A data memory cleared, and its word 1,023 written again (R185, R356). -/
def State.clearData (s : State) (n : Nat) : State := (s.clearMem (dmemAddr n 0) (dmemAddr n 1024)).modeWord n

/-- What is left of a channel's record: the last edge and the driver's latest decision, by which a driver that still
drives ends (R166). -/
def Chan.atReset (x : Chan) : Option Chan :=
  let y : Chan := { x with cap := none }
  if y = {} then none else some y

/-- The block reset of F1 (R8, R107, R171, R356). A pending epoch whose angle it ends is lost (R188). -/
def State.resetF1 (s : State) : State :=
  let s := (upto 24).foldl State.resetSeq s
  let s := (upto 24).foldl (fun t n => t.modSeq n fun q => { q with slots := [] }) s
  let s := s.functionReset (adRegs ++ wfeRegs ++ seqRegs ++ outRegs)
  let s := { s with doms := [], armAt := [], svcs := []
                    chans := s.chans.filterMap fun e => (Chan.atReset e.2).map fun x => (e.1, x) }
  let s := (upto 24).foldl (fun t n => t.modSeq n fun q => { q with pc := t.entry n q.bank }) s
  let s := (upto 24).foldl State.clearData s
  ((upto 4).foldl State.modeSettleDom s).redrive.epochLost

/-! ### F2 and F3 (R226, R242, R257, R287) -/

/-- The block reset of F2: the configurations, windows, feeds and results go; the weight banks and FRONT stay. -/
def State.resetF2 (s : State) : State :=
  { s.functionReset (adcRegs ++ basRegs) with adcs := [], settle := [], basins := [], trkLatch := [], feeds := [] }

/-- The block reset of F3: comparators disconnected, generators and engines at their reset values, AUX and GIO pins in
high impedance. Levels at the GIO and trip pins are inputs, and stay (DEDUCED, log entry 34). -/
def State.resetF3 (s : State) : State :=
  let s := (upto 16).foldl State.ioeReset s
  let s := s.functionReset (cmpRegs ++ pwmRegs ++ ioeRegs.filter fun r => r != .GIO_IN)
  let s := { s with cmps := [], pwms := [], gio := [] }.tripRefreshAll
  if s.flag .DBG_STAT_HALTED then s.pwmHold else s

/-! ### Power-on reset and wake -/

/-- The state at the end of a power-on reset (R393): everything at its reset value, the slot address read (R446). What
waits outside, and the model's own free-value counters, are not the module's (DESIGN CHOICE, log entry 7).
(DESIGN CHOICE, log entry 48). -/
def State.powerOn (s : State) (straps : Nat) : State :=
  ({ State.reset with pending := s.pending }).setFld .PAIR_STAT_SLOT 0 straps

end Sys2Proof.Machine
end

