-- ==== Sys2Proof/Machine/Pcie.lean ====
section
/-! DEFINITION. The PCI Express endpoint: requests of the four functions, interrupt windows, configuration spaces,
Function Level Resets, conventional resets and the link (R301, R344 to R359, R435). -/

namespace Sys2Proof.Machine

def State.respond (s : State) (r : Resp) : State := { s with resp := r }

/-! ### Foreign requests (R352) -/

/-- The function's memory requests reach the module: Memory Space Enable is 1, and it is not in D3hot.
(DEDUCED, log entry 42). -/
def State.reaches (s : State) (f : Nat) : Bool := (s.fn f).mse && !(s.fn f).d3

/-- The header of a memory write of `n` words by the host at an offset of BAR0, as AER holds it (PRESUMED, log entry 41). -/
def State.writeHeader (s : State) (f off n : Nat) : List Nat :=
  [0x40000000 + n, (Config.requester s.tnow).toNat * 256 + 0xFF, (s.fn f).bar0 + off / 4 * 4, 0]

/-- An uncorrectable error logged in a function's AER registers: its status bit, and for the first one that is not masked its
position and header (R348, R352) (PRESUMED, log entry 41). -/
def State.aer (s : State) (f bit : Nat) (hdr : List Nat) : State :=
  s.modFn f fun x =>
    let first := !bitN x.aerMask bit && (x.aerStat - (x.aerStat &&& x.aerMask)) == 0
    { x with aerStat := x.aerStat ||| 2 ^ bit, aerFirst := if first then bit else x.aerFirst
             aerHdr := if first then hdr else x.aerHdr }

/-- A write with poisoned data in the function's own range (R352). -/
def State.poisoned (s : State) (f off n : Nat) : State := s.aer f 12 (s.writeHeader f off n)

/-- A foreign access: counted, the first since FOREIGN was cleared recorded, a write logged in AER. -/
def State.foreign (s : State) (f off : Nat) (wr : Bool) (n : Nat := 1) : State :=
  let s := s.bump .PCIE_FOREIGN_CNT
  let s := if s.flag .PCIE_EVT_FOREIGN then s else
    ((s.putFlag .PCIE_FOREIGN_ADDR_WRITE 0 wr).setFld .PCIE_FOREIGN_ADDR_FUNC 0 f).setFld .PCIE_FOREIGN_ADDR_OFFSET 0 off
  let s := s.raise .PCIE_EVT_FOREIGN
  if wr then s.aer f 20 (s.writeHeader f off n) else s.respond .ur

/-- PCIE_FOREIGN_ACCESS: a request outside the function's ranges, or while it does not reach the module. -/
def State.foreignAccess (s : State) (f off : Nat) (wr : Bool) : State :=
  if s.reaches f && decodes f off then s else s.foreign f off wr

/-! ### The interrupt window (R301, R343, R435) -/

/-- The 32-bit word of a function's window at an aligned offset. -/
def State.windowWord (s : State) (f off : Nat) : Nat :=
  let x := s.fn f
  if off < 0x400 then
    if off % 16 = 12 then 1 - b2n (bitN x.open' (off / 16)) else Tab.get 0 x.table (off / 16 * 4 + off / 4 % 4)
  else if off = 0x800 then s.pba f % 2 ^ 32
  else if off = 0x804 then s.pba f / 2 ^ 32
  else if off = 0x1008 then x.sent % 2 ^ 32
  else if off = 0x100C then x.sent / 2 ^ 32
  else if off = 0x1010 then s.vlevels f % 2 ^ 32
  else if off = 0x1014 then s.vlevels f / 2 ^ 32
  else if 0x1100 ≤ off ∧ off < 0x11E0 then s.fenceDone ((off - 0x1100) / 4)
  else 0

/-- What the latch of R326 calls a window offset. -/
def windowKey (off : Nat) : Nat := 2 ^ 24 + off

/-- A read of a word of a function's window. -/
def State.windowRead (s : State) (f off be : Nat) : State × Option Nat :=
  let v := s.windowWord f (off / 4 * 4) &&& beMask be
  if be = 0 then (s, some 0)
  else if off < 0x1000 then (s, some v)
  else if off % 4 ≠ 0 ∨ beOk be = false then (s.accessErr f off be false .misaligned, none)
  else if off = 0x1008 ∨ off = 0x1010 then
    (if be = 15 then { s with latched := Tab.put s.latched f (some (windowKey (off + 4), s.windowWord f (off + 4))) } else s, some v)
  else if off = 0x100C ∨ off = 0x1014 then
    match Tab.find s.latched f with
    | some l => if l.1 = windowKey off then (s, some (l.2 &&& beMask be)) else (s.accessErr f off be false .unlatched, some v)
    | none => (s.accessErr f off be false .unlatched, some v)
  else if (off = 0x1000 ∨ off = 0x1020) ∧ be ≠ 15 then (s.accessErr f off be false .narrowActionRead, some 0)
  else (s, some v)

/-- A read of one or two words of a function's window, low word first (R323, R326). -/
def State.windowReadWide (s : State) (f off be : Nat) (rest : List Nat) : State × Option Nat :=
  match rest with
  | [] => s.windowRead f off be
  | hi :: more =>
    if off % 8 ≠ 0 ∨ beRun [be, hi] = false ∨ more ≠ [] then (s.accessErr f off be false .misaligned, none)
    else
      let a := s.windowRead f off be
      let b := a.1.windowRead f (off + 4) hi
      (b.1, some (a.2.getD 0 + 2 ^ 32 * b.2.getD 0))

/-- A write of an MSI-X table word. -/
def State.tableWrite (s : State) (f off be v : Nat) : State :=
  let vec := off / 16
  let w := mergeWord (s.windowWord f (off / 4 * 4)) be v
  s.modFn f fun x =>
    if off % 16 / 4 = 3 then
      { x with open' := if bitN w 0 then (if bitN x.open' vec then x.open' - 2 ^ vec else x.open')
                        else (if bitN x.open' vec then x.open' else x.open' + 2 ^ vec) }
    else { x with table := Tab.set 0 x.table (vec * 4 + off % 16 / 4) (if off % 16 / 4 = 0 then w / 4 * 4 else w) }

/-- A write of a function's window. -/
def State.windowWrite (s : State) (f off be v : Nat) : State :=
  if be = 0 then s
  else if off < 0x400 then s.tableWrite f off be v
  else if off < 0x1000 then s
  else if off % 4 ≠ 0 ∨ beOk be = false then s.accessErr f off be true .misaligned
  else if off = 0x1000 then
    if be = 15 then s.eoi f (v % 64) else s.accessErr f off be true .narrowActionWrite
  else if off = 0x1020 then
    if be = 15 then s.publish f v else s.accessErr f off be true .narrowActionWrite
  else s

/-- A write of one or two words of a function's window, low word first (R323, R326). -/
def State.windowWriteWide (s : State) (f off be v : Nat) (rest : List (Nat × Nat)) : State :=
  match rest with
  | [] => s.windowWrite f off be v
  | hi :: more =>
    if off % 8 ≠ 0 ∨ beRun [be, hi.1] = false ∨ more ≠ [] then s.accessErr f off be true .misaligned
    else (s.windowWrite f off be v).windowWrite f (off + 4) hi.1 hi.2

/-! ### Function Level Resets (R354 to R358) -/

/-- The block reset of a function is complete. -/
def State.flrDone (s : State) (f : Nat) : State :=
  (s.clearBits .PCIE_STAT_FLR_PENDING 0 (2 ^ f)).orFld .PCIE_EVT_FLR_DONE 0 (2 ^ f)

/-- R357 applies: this module leads, its partner reports SHADOW, and HO_EN is 1. -/
def State.flrHands (s : State) : Bool :=
  s.pair.token && s.pstate == stLead && s.partner == stShadow && s.flag .PCIE_FLR_CFG_HO_EN

/-- The F1 reset proper begins: path 4, and Clearing with cause FLR_F1 (R356). -/
def State.flrPath4 (s : State) : State :=
  ((s.putFlag .PCIE_STAT_HO_ACTIVE 0 false).modPcie fun p => { p with hoAt := none }).spillInto 4 6

/-- An FLR of function `f`. -/
def State.flr (s : State) (f : Nat) : State :=
  let again := bitN (s.fld .PCIE_STAT_FLR_PENDING) 1
  let s := (s.resetFnConfig f).modPcie fun p => { p with resetAt := Tab.put p.resetAt f (some s.wsNs) }
  if f = 1 ∧ again then s
  else
    let s := s.orFld .PCIE_STAT_FLR_PENDING 0 (2 ^ f)
    match f with
    | 0 => s.resetF0.flrDone 0
    | 1 =>
      let s := s.modPcie fun p => { p with f1At := some s.tnow }
      if s.flrHands then ((s.raise .PCIE_STAT_HO_ACTIVE).modPcie fun p => { p with hoAt := some s.tnow }).hoRequest
      else s.flrPath4
    | 2 => s.resetF2.flrDone 2
    | _ => s.resetF3.flrDone 3

/-- The F1 blocks reset once every channel is inactive (R356). -/
def State.f1Finish (s : State) : State :=
  if s.activeCount = 0 then (s.resetF1.modPcie fun p => { p with f1At := none }).flrDone 1 else s

/-- F1_BLOCK_RESET: in a handover it begins when the partner has taken the lead (R357), and the module then no longer
reports SHADOW. -/
def State.f1BlockReset (s : State) : State :=
  if bitN (s.fld .PCIE_STAT_FLR_PENDING) 1 then
    match s.pcie.hoAt with
    | some _ => if s.pair.token then s else (s.flrPath4.setPstate stIsolated).f1Finish
    | none => s.f1Finish
  else s

/-- FLR_HANDOVER_FALLBACK: HO_MS have passed and the partner does not hold the lead (R357). -/
def State.hoFallback (s : State) : State :=
  match s.pcie.hoAt with
  | some t =>
    if s.pair.token && decide (t + clampN 1 90 (s.fld .PCIE_FLR_CFG_HO_MS) * 1000000 ≤ s.tnow)
    then (s.hoAbort.raise .PCIE_EVT_HO_FALLBACK).flrPath4 else s
  | none => s

/-! ### Configuration space (R347 to R350), in the layout of the PCI Express Base Specification (PRESUMED) -/

/-- A configuration word of function `f` (DESIGN CHOICE, log entry 22) (PRESUMED, log entry 41). -/
def State.cfgWord (s : State) (f off : Nat) : Nat :=
  let x := s.fn f
  match off with
  | 0x00 => Config.vendor.toNat + (0x9600 + f) * 2 ^ 16
  | 0x04 => b2n x.mse * 2 + b2n x.bme * 4 + 2 ^ 20
  | 0x08 => 1 + (if f = 0 then 0x088000 else 0x118000) * 256
  | 0x0C => 0x80 * 2 ^ 16
  | 0x10 => x.bar0
  | 0x14 => x.bar1
  | 0x2C => Config.vendor.toNat + 0x9600 * 2 ^ 16
  | 0x34 => 0x40
  | 0x40 => 0x00035001
  | 0x44 => 8 + (if x.d3 then 3 else 0)
  | 0x50 => 0x11 + 0x70 * 256 + (63 + b2n x.fmask * 2 ^ 14 + b2n x.msixEn * 2 ^ 15) * 2 ^ 16
  | 0x54 => 1
  | 0x58 => 0x801
  | 0x70 => 0x00020010
  | 0x74 => 0x10008021
  | 0x78 => x.mps * 2 ^ 5 + x.mrrs * 2 ^ 12
  | 0x7C => 0x23
  | 0x80 => (s.fld .PCIE_STAT_SPEED + s.fld .PCIE_STAT_WIDTH * 16) * 2 ^ 16
  | 0x94 => 0x13
  | 0x98 => x.cto + b2n x.ctoOff * 16
  | 0x9C => 0xE
  | 0x100 => 0x00020001 + (if f = 0 then 0x140 else 0x180) * 2 ^ 20
  | 0x104 => x.aerStat
  | 0x108 => x.aerMask
  | 0x10C => x.aerSev
  | 0x118 => x.aerFirst
  | 0x11C => x.aerHdr.getD 0 0
  | 0x120 => x.aerHdr.getD 1 0
  | 0x124 => x.aerHdr.getD 2 0
  | 0x128 => x.aerHdr.getD 3 0
  | 0x140 => if f = 0 then 0x18010019 else 0
  | 0x14C => if f = 0 then Config.laneEq.toNat &&& 0x7F7F7F7F else 0
  | 0x180 => 0x00010003
  | 0x184 => Config.serial.toNat % 2 ^ 32
  | 0x188 => Config.serial.toNat / 2 ^ 32
  | _ => 0

/-- The uncorrectable errors that AER implements, by bit (PRESUMED, log entry 41). -/
def aerBits : Nat := 0x005FF030

/-- A configuration write of function `f`; its Initiate Function Level Reset bit requests an FLR (R354).
(PRESUMED, log entry 41). -/
def State.cfgWrite (s : State) (f off be v : Nat) : State :=
  let w := mergeWord (s.cfgWord f off) be v
  match off with
  | 0x04 => s.modFn f fun x => { x with mse := bitN w 1, bme := bitN w 2 }
  | 0x10 => s.modFn f fun x => { x with bar0 := w / 2 ^ 24 * 2 ^ 24 }
  | 0x14 => s.modFn f fun x => { x with bar1 := w / 2 ^ 13 * 2 ^ 13 }
  | 0x44 => match bitsN w 1 0 with
    | 0 => s.modFn f fun x => { x with d3 := false }
    | 3 => s.modFn f fun x => { x with d3 := true }
    | _ => s
  | 0x50 => s.modFn f fun x => { x with fmask := bitN w 30, msixEn := bitN w 31 }
  | 0x78 =>
    let t := s.modFn f fun x => { x with mps := bitsN w 7 5, mrrs := bitsN w 14 12 }
    if bitN w 15 then t.flr f else t
  | 0x98 => s.modFn f fun x => { x with cto := bitsN w 3 0, ctoOff := bitN w 4 }
  | 0x104 => s.modFn f fun x => { x with aerStat := x.aerStat - (x.aerStat &&& (v &&& beMask be)) }
  | 0x108 => s.modFn f fun x => { x with aerMask := w &&& aerBits }
  | 0x10C => s.modFn f fun x => { x with aerSev := w &&& aerBits }
  | _ => s

/-! ### Requests of every source -/

/-- AERR belongs to the frames of the MSPI: an access that is no frame leaves it. -/
def State.keepAerr (s : State) (b : Bool) : State := { s with mspi := { s.mspi with aerr := b } }

/-- A write by a source: through its BAR or configuration space, or on the unified map; `rest` are the words after the first
with their byte enables, and `bad` says that the data of a function's write are poisoned (R352) (DEDUCED, log entry 42). -/
def State.hostWrite (s : State) (src : Src) (space : Space) (off be v : Nat) (rest : List (Nat × Nat) := []) (bad : Bool := false) :
    State :=
  let s := s.respond .none
  match src, space with
  | .f k, .bar0 =>
    if s.reaches k.val && decodes k.val off then
      (if bad then s.poisoned k.val off (rest.length + 1) else s.busWriteWide k.val off be v rest)
    else s.foreign k.val off true (rest.length + 1)
  | .f k, .bar1 =>
    if s.reaches k.val then
      (if bad then s.poisoned k.val off (rest.length + 1) else s.windowWriteWide k.val off be v rest)
    else s.foreign k.val off true (rest.length + 1)
  | .f k, .config => if s.pcie.retry then s.respond .retry else s.cfgWrite k.val (off / 4 * 4) be v
  | other, .bar0 => (s.busWriteWide (srcNum other) off be v rest).keepAerr s.mspi.aerr
  | _, _ => s

/-- The completion of a read: its data, or Unsupported Request. -/
def State.completed (r : State × Option Nat) : State := r.1.respond (match r.2 with | some v => .data v | none => .ur)

/-- A read by a source, with its completion; `rest` are the byte enables of the words after the first
(DEDUCED, log entry 42). -/
def State.hostRead (s : State) (src : Src) (space : Space) (off be : Nat) (rest : List Nat := []) : State :=
  match src, space with
  | .f k, .bar0 =>
    if s.reaches k.val && decodes k.val off then State.completed (s.busReadWide k.val off be rest) else s.foreign k.val off false
  | .f k, .bar1 =>
    if s.reaches k.val then State.completed (s.windowReadWide k.val off be rest) else s.foreign k.val off false
  | .f k, .config =>
    if s.pcie.retry then s.respond .retry else s.respond (.data (s.cfgWord k.val (off / 4 * 4) &&& beMask be))
  | other, .bar0 => (State.completed (s.busReadWide (srcNum other) off be rest)).keepAerr s.mspi.aerr
  | _, _ => s

/-- The offset of a register of one index (R431). -/
def Reg.at' (r : Reg) (i : Nat) : Nat := r.row.base + i * (r.row.dims.headD (1, 0)).2

/-- A 32-bit write of a register by a source, and what the DMA engine then has to do. -/
def State.hostStore (s : State) (src : Src) (r : Reg) (i v : Nat) : State :=
  (s.hostWrite src .bar0 (r.at' i) 15 v).dmaPump

/-- A write of a memory of the unified map by a source. -/
def State.hostMem (s : State) (src : Src) (off be v : Nat) : State := (s.hostWrite src .bar0 off be v).dmaPump

/-- Any write by a source, and what the DMA engine then has to do. -/
def State.hostPut (s : State) (src : Src) (space : Space) (off be v : Nat) (rest : List (Nat × Nat)) (bad : Bool) : State :=
  (s.hostWrite src space off be v rest bad).dmaPump

/-- Any read by a source; a read of a feed can let a DMA channel go on. -/
def State.hostGet (s : State) (src : Src) (space : Space) (off be : Nat) (rest : List Nat := []) : State :=
  (s.hostRead src space off be rest).dmaPump

/-- A 32-bit read of a register word by a source. -/
def State.hostLoad (s : State) (src : Src) (r : Reg) (i word : Nat) : State :=
  s.hostGet src .bar0 (r.at' i + 4 * word) 15

/-- A token published by a source: F1 to F3 write it in their window, every other source in the register of F0 (R332). -/
def State.fenceCmd (s : State) (src : Src) (tok : Nat) : State :=
  match src with
  | .f k => if k.val = 0 then s.hostWrite src .bar0 0x300 15 tok else s.hostWrite src .bar1 0x1020 15 tok
  | _ => s.hostWrite src .bar0 0x300 15 tok

/-! ### The link (R345, R346, R359) -/

/-- CLK_SEP as a conventional reset selects it: in automatic mode by what the 100 µs before PERST# deasserted showed (R345).
(DESIGN CHOICE, log entry 21). -/
def State.clkSelect (s : State) : State :=
  let sel := s.fld .PCIE_CLK_CFG_SEL
  s.putFlag .PCIE_STAT_CLK_SEP 0 (if sel = 1 then false else if sel = 2 then true else !s.pcie.refclk)

/-- The link is down: event and status. -/
def State.linkGone (s : State) : State :=
  let s := if s.flag .PCIE_STAT_LINK_UP then s.raise .PCIE_EVT_LINK_DOWN else s
  ((s.putFlag .PCIE_STAT_LINK_UP 0 false).setFld .PCIE_STAT_SPEED 0 0).setFld .PCIE_STAT_WIDTH 0 0

/-- CONVENTIONAL_RESET: the endpoint alone (R346). -/
def State.conventional (s : State) (cause : ConvReset) : State :=
  let s := (s.linkGone.modPcie fun p => { p with fns := [], due := [] }).dmaLost.clkSelect
  match cause with
  | .perst => s.modPcie fun p => { p with perst := true, retry := true }
  | _ => s

/-- LINK_UP. -/
def State.linkTrained (s : State) (speed width : Nat) : State :=
  if s.pcie.perst || s.flag .PCIE_STAT_LINK_UP then s
  else (((s.raise .PCIE_STAT_LINK_UP).setFld .PCIE_STAT_SPEED 0 (speed + 1)).setFld .PCIE_STAT_WIDTH 0 (width + 1)).raise
    .PCIE_EVT_LINK_UP

/-- PERST_DEASSERT. -/
def State.perstOff (s : State) : State :=
  if s.pcie.perst then
    (s.modPcie fun p =>
      { p with perst := false, perstAt := s.tnow, retry := true, refclk := Config.refclkPresent s.tnow }).clkSelect
  else s

/-- CONFIG_RETRY_END. -/
def State.retryEnd (s : State) : State :=
  if !s.pcie.perst && decide (s.pcie.perstAt + 20000000 ≤ s.tnow) then s.modPcie fun p => { p with retry := false } else s

/-- A send condition of R296 lifts. -/
def State.unmask (s : State) (f : Nat) (c : SendCond) : State :=
  s.modFn f fun x => match c with
    | .vectorMask v => { x with open' := if bitN x.open' v.toNat then x.open' else x.open' + 2 ^ v.toNat }
    | .functionMask => { x with fmask := false }
    | .msixEnable => { x with msixEn := true }
    | .busMaster => { x with bme := true }
    | .powerState => { x with d3 := false }

end Sys2Proof.Machine
end

