-- ==== Sys2Proof/Machine/Power.lean ====
section
/-! DEFINITION. Power, clocks and the wellspring: power-on reset, clock failures, Dormant, its wakes and the first-edge
catcher, and the debug halt (R161, R260, R392, R393, R399, R403 to R411). -/

namespace Sys2Proof.Machine

def State.modPower (s : State) (g : Power → Power) : State := { s with power := g s.power }

/-! ### Power-on reset (R392, R393, R411, R412) -/

/-- POWER_ON_RESET_ASSERT: the whole module is held, every pin in high impedance (DESIGN CHOICE, log entry 48). -/
def State.porAssert (s : State) : State := (s.powerOn (s.fld .PAIR_STAT_SLOT)).modPower fun p => { p with held := true, clocks := false }

/-! ### Clock failures (R403, R404) -/

/-- A sequencer's cycle counts go on from a stop of its clock: the stopped time counts in none of them. -/
def State.resumeSeq (s : State) (n : Nat) : State :=
  let gone := s.cyc - s.clkStopAt / 2
  s.modSeq n fun q =>
    { q with counted := q.counted + gone, stallCounted := q.stallCounted + gone, taskStart := q.taskStart + gone
             nextIssue := q.nextIssue + gone, ready := q.ready.map fun e => (e.1, e.2 + gone), divFree := q.divFree + gone
             mapFree := q.mapFree + gone }

/-- The code of a clock failure in CLK_STAT.LAST_FAIL (R413). -/
def failNum (c : FailCode) : Nat := c.ctorIdx + 1

/-- CLOCK_FAIL: the wellspring forces every driver into high impedance, gates DEN off and records the cause. The clocks
that fail with it stand up to the recovery (R10, R261) (DEDUCED, log entry 46). -/
def State.clockFail (s : State) (c : FailCode) : State :=
  if s.power.forced then s.modPower fun p => { p with failAt := s.wsNs }
  else
    let s := if s.seqStopped then s else { s with clkStopAt := s.tnow }
    let s := if (failNum c == 1 || failNum c == 4) && !s.flag .DBG_STAT_HALTED then s.pwmHold else s
    (s.modPower fun p => { p with forced := true, failCode := failNum c, failAt := s.wsNs }).denOff

/-- CLOCK_RECOVERY: every fast clock has passed the monitor for 1 ms; what stood goes on, and the module enters Clearing
through path 7 (R404) (DEDUCED, log entry 46). -/
def State.clockRecover (s : State) : State :=
  if s.power.forced && decide (s.power.failAt + 1000000 ≤ s.wsNs) then
    let per := s.perStopped && !s.flag .DBG_STAT_HALTED
    let t := s.modPower fun p => { p with forced := false }
    let t := if s.seqStopped && !t.seqStopped then (upto 24).foldl State.resumeSeq t else t
    let s := if per then t.pwmResume else t
    let s := (s.setFld .CLK_STAT_LAST_FAIL 0 s.power.failCode).raise .PWR_EVT_CLK_FAIL
    let s := s.log 8 0 s.power.failCode 0
    let s := { s with den := { s.den with withheld := true } }
    if s.den.silent then s else s.path7
  else s

/-! ### Dormant (R405 to R410) -/

/-- DORMANT_ENTRY_DONE: DEN has stopped, with path 7 taken; the link goes down and the fast clocks stop (R407).
(DEDUCED, log entry 47). -/
def State.dormantDone (s : State) : State :=
  if s.power.entering.isSome && !s.den.on && (s.den.silent || !s.den.seen) then
    let s := { s.conventional .linkDown with change := none }
    let s := (s.setFld .MODE_STAT_MODE 0 modeDormant).setFld .MODE_STAT_TARGET 0 modeDormant
    let s := (s.putFlag .MODE_STAT_TRANSITION 0 false).putFlag .MODE_STAT_EPOCH_PENDING 0 false
    s.modPower fun p => { p with entering := none, clocks := false }
  else s

/-- A wake source of the copied configuration: the first one is kept, and the catcher starts (R407, R408, R410). -/
def State.wake (s : State) (enabled : Bool) (w : Wake) : State :=
  let asleep := !s.power.held && (s.power.entering.isSome || (s.mode == modeDormant && !s.power.clocks))
  if asleep && enabled && s.power.wake.isNone then
    s.modPower fun p => { p with wake := some w, during := p.entering.isSome, catching := p.copyMask }
  else s

/-- WAKE_WHEEL: a crossing of 2 µs of an input in WIN_MASK. -/
def State.wakeWheel (s : State) (w : Nat) : State := s.wake (bitN s.power.copyMask w) { cause := 1, win := w }

/-- WAKE_PIN: WAKE# low for 5 µs. -/
def State.wakePin (s : State) : State := s.wake (s.power.copyPinEn != 0) { cause := 2 }

/-- WAKE_TIMER: PWR_WAKE_TIMER seconds since the acceptance. -/
def State.wakeTimer (s : State) : State :=
  s.wake (s.power.copyTimerEn != 0 && decide (s.power.keepAt + max 1 s.power.copyTimer * 1000000000 ≤ s.wsNs)) { cause := 3 }

/-- TNOW as the wellspring kept it: 1,000 ns for each tick since the acceptance (R406) (DESIGN CHOICE, log entry 58). -/
def State.keptTnow (s : State) : Nat := s.power.keepTnow + 1000 * (s.wsNs / 1000 - s.power.keepAt / 1000)

/-- The state at the release after a wake: everything outside the wellspring as after a power-on reset, except the level
of PERST#, of PRESENT and of the slot address, which are the backplane's (DEDUCED, log entry 47). -/
def State.woken (s : State) (w : Wake) : State :=
  let p := s.power
  let t : State := { s.powerOn (s.fld .PAIR_STAT_SLOT) with
    wsNs := s.wsNs, tnow := s.keptTnow % 2 ^ 64
    power := { p with clocks := true, forced := false, wake := none, during := false, released := s.wsNs, overAt := [], offAt := [] } }
  let t := { t with pcie := { t.pcie with perst := s.pcie.perst, perstAt := t.tnow } }
  let t := (t.putFlag .PAIR_STAT_PRESENT 0 (s.flag .PAIR_STAT_PRESENT)).modPair fun x =>
    { x with presentSeen := s.flag .PAIR_STAT_PRESENT }
  let t := ((t.setFld .PWR_WAKE_STAT_CAUSE 0 w.cause).setFld .PWR_WAKE_STAT_WIN 0 w.win).putFlag
    .PWR_WAKE_STAT_DURING_ENTRY 0 p.during
  (t.setFld .CLK_STAT_LAST_FAIL 0 p.failCode).raise .PWR_EVT_WOKE

/-- WAKE_RELEASE (R409) (DEDUCED, log entry 47). -/
def State.wakeRelease (s : State) : State :=
  match s.power.wake with
  | some w => if s.mode = modeDormant ∧ s.power.clocks = false then s.woken w else s
  | none => s

/-- FIRST_EDGE_CATCH (R410): the 16 newest edges of an input; before the release the wake comparator stamps to 1 µs.
(DEDUCED, log entry 33). -/
def State.firstCatch (s : State) (w stamp : Nat) (rising : Bool) : State :=
  if bitN s.power.catching w then
    let e : Edge := { stamp := if s.live then stamp else stamp / 8000 * 8000, rising, caught := !s.live }
    let l := Tab.get [] s.power.caught w ++ [e]
    s.modPower fun p => { p with caught := Tab.set [] p.caught w (l.drop (l.length - 16)) }
  else s

/-! ### The debug halt (R161, R260, R411) -/

/-- DEBUG_HALT: spillway path 5 (DEDUCED, log entry 36). -/
def State.debugHalt (s : State) : State :=
  if s.flag .DBG_STAT_HALTED then s else ((s.raise .DBG_STAT_HALTED).spillInto 5 7).pwmHold

/-- TEST_LOGIC_RESET: it ends a debug halt; the device stays in Clearing (DEDUCED, log entry 36). -/
def State.testReset (s : State) : State :=
  if s.flag .DBG_STAT_HALTED then
    let t := (s.putFlag .DBG_STAT_HALTED 0 false).putFlag .DBG_STAT_CLK_STOPPED 0 false
    let t := if s.seqStopped && !t.seqStopped then (upto 24).foldl State.resumeSeq t else t
    if t.perStopped then t else t.pwmResume
  else s

/-! ### Contacts -/

/-- PRESENT_MAKE and PRESENT_BREAK with the fast clocks stopped: the contact alone. -/
def State.presentPin (s : State) (made : Bool) : State :=
  if s.live then (if made then s.presentMake else s.presentBreak) else s.putFlag .PAIR_STAT_PRESENT 0 made

end Sys2Proof.Machine
end

