-- ==== Sys2Proof/Machine/Time.lean ====
section
/-! DEFINITION. The passing of time: one nanosecond with no command waiting (R4, R402, R406). -/

namespace Sys2Proof.Machine

/-- TNOW advanced by one nanosecond, modulo 2^64, while the event clock runs (R4, R10) (DESIGN CHOICE, log entry 1) (DESIGN CHOICE, log entry 58). -/
def State.advance (s : State) : State :=
  let s := { s with wsNs := s.wsNs + 1 }
  if s.live && !s.evStopped then { s with tnow := (s.tnow + 1) % 2 ^ 64 } else s

/-- One idle nanosecond: TNOW and the wellspring count on, the due changes of the generators take effect (R244, R249), and
messages that wait leave (R297) (DESIGN CHOICE, log entry 1). -/
def State.idle (s : State) : State := (s.advance.pwmTurn.sendDue).concluded s.mode

end Sys2Proof.Machine
end

