-- ==== Sys2Proof/Machine/Converters.lean ====
section
/-! DEFINITION. The meanings of the commands of converters, basins, trackers, feeds and weight banks (R197 to R228). -/

namespace Sys2Proof.Machine

/-! ### Converters (R197 to R207) -/

/-- ADC_CONVERSION: converter `k` ends a conversion (R199, R200). -/
def execAdcConversion (k : Fin 24) (code : BitVec 16) (instant : Nat) (s : State) : Host.Outcome State Fault Refusal :=
  runPer s fun s => s.adcConvert k code.toNat instant

/-- ADC_CFG_WRITE: ADC[k]_CFG written (R202). -/
def execAdcCfgWrite (src : Src) (k : Fin 24) (v : Word) (s : State) : Host.Outcome State Fault Refusal :=
  runPer s fun s => s.hostStore src .ADC_CFG k v.toNat

/-- ADC_COMMIT: ADC[k]_CMD with COMMIT at 1 (R201). -/
def execAdcCommit (src : Src) (k : Fin 24) (s : State) : Host.Outcome State Fault Refusal :=
  runPer s fun s => s.hostStore src .ADC_CMD k 1

/-- ADC_CAL: ADC[k]_CMD with CAL at 1 (R203). -/
def execAdcCal (src : Src) (k : Fin 24) (s : State) : Host.Outcome State Fault Refusal :=
  runPer s fun s => s.hostStore src .ADC_CMD k 2

/-- ADC_FLT_RESET: ADC[k]_CMD with FLT_RESET at 1 (R206). -/
def execAdcFltReset (src : Src) (k : Fin 24) (s : State) : Host.Outcome State Fault Refusal :=
  runPer s fun s => s.hostStore src .ADC_CMD k 4

/-- ADC_CAL_DONE: the calibration of pair `p` ends, with the skew it measured (R204). -/
def execAdcCalDone (p : Fin 12) (skew : Option (BitVec 16)) (s : State) : Host.Outcome State Fault Refusal :=
  runPer s fun s => s.calDone p skew

/-- AIN_CFG_WRITE: AIN[a]_CFG written (R197). -/
def execAinCfgWrite (src : Src) (a : Fin 48) (v : Word) (s : State) : Host.Outcome State Fault Refusal :=
  runPer s fun s => s.hostStore src .AIN_CFG a v.toNat

/-! ### Basins (R208 to R216) -/

/-- BAS_CFG_WRITE: BAS[k]_CFG written (R208). -/
def execBasCfgWrite (src : Src) (k : Fin 512) (v : Word) (s : State) : Host.Outcome State Fault Refusal :=
  runPer s fun s => s.hostStore src .BAS_CFG k v.toNat

/-- BAS_OPEN: BAS[k]_CMD with OPEN at 1 (R211). -/
def execBasOpen (src : Src) (k : Fin 512) (s : State) : Host.Outcome State Fault Refusal :=
  runPer s fun s => s.hostStore src .BAS_CMD k 1

/-- BAS_CLOSE: BAS[k]_CMD with CLOSE at 1 (R211). -/
def execBasClose (src : Src) (k : Fin 512) (s : State) : Host.Outcome State Fault Refusal :=
  runPer s fun s => s.hostStore src .BAS_CMD k 2

/-- BAS_CLOSE_OPEN: BAS[k]_CMD with CLOSE_OPEN at 1 (R211). -/
def execBasCloseOpen (src : Src) (k : Fin 512) (s : State) : Host.Outcome State Fault Refusal :=
  runPer s fun s => s.hostStore src .BAS_CMD k 4

/-- BASIN_LATCH: a closed window latches its result, 600 ns after its close (R212); a feed may then serve a DMA channel. -/
def execBasinLatch (k : Fin 512) (s : State) : Host.Outcome State Fault Refusal :=
  runEv s fun s => (s.basinLatch k).dmaPump

/-- BAS_VALUE_READ: VALUE_LO read (R216). -/
def execBasValueRead (src : Src) (k : Fin 512) (s : State) : Host.Outcome State Fault Refusal :=
  runPer s fun s => s.hostLoad src .BAS_VALUE k 0

/-- BAS_TAG_READ: TAG read (R216). -/
def execBasTagRead (src : Src) (k : Fin 512) (s : State) : Host.Outcome State Fault Refusal :=
  runPer s fun s => s.hostLoad src .BAS_TAG k 0

/-- READ_IN_PROGRESS_TIMEOUT: a read in progress is 10 µs old (R216). -/
def execReadInProgressTimeout (src : Src) (k : Fin 512) (s : State) : Host.Outcome State Fault Refusal :=
  runPer s fun s => s.readTimeout (srcNum src) k

/-! ### Trackers, feeds and weights (R220 to R224) -/

/-- TRK_MAX_READ: TRK[k]_MAX read (R222). -/
def execTrkMaxRead (src : Src) (k : Fin 128) (s : State) : Host.Outcome State Fault Refusal :=
  runPer s fun s => s.hostLoad src .TRK_MAX k 0

/-- FEED_DATA_READ: a word of the feed's data port read (R224). -/
def execFeedDataRead (src : Src) (f : Fin 4) (high : Bool) (s : State) : Host.Outcome State Fault Refusal :=
  runPer s fun s => s.hostLoad src .BAS_FEED_DATA f (b2n high)

/-- WT_SWAP: WT_CMD[d] with SWAP at 1 (R220). -/
def execWtSwap (src : Src) (d : Fin 4) (s : State) : Host.Outcome State Fault Refusal :=
  runPer s fun s => s.hostStore src .WT_CMD d 1

/-- WEIGHT_WRITE: an entry of a weight bank written (R220). -/
def execWeightWrite (src : Src) (d : Fin 4) (b : Fin 2) (i : Fin 4096) (v : Word) (s : State) : Host.Outcome State Fault Refusal :=
  runPer s fun s => s.hostMem src (weightAddr d b i) 15 v.toNat

/-- SETTLING_END: the settling time after a weight swap ends (R220). -/
def execSettlingEnd (d : Fin 4) (s : State) : Host.Outcome State Fault Refusal :=
  runPer s fun s => s.settleEnd d

end Sys2Proof.Machine
end

