-- ==== Sys2Proof/Machine/Engines.lean ====
section
/-! DEFINITION. The meanings of the commands and instructions of the I/O engines (R265 to R287). -/

namespace Sys2Proof.Machine

/-! ### Commands (R267, R268, R279 to R285) -/

/-- IOE_CTRL_WRITE: IOE[e]_CTRL written (R267, R282). -/
def execIoeCtrlWrite (src : Src) (e : Fin 16) (v : Word) (s : State) : Host.Outcome State Fault Refusal :=
  runPer s fun s => s.hostStore src .IOE_CTRL e v.toNat

/-- IOE_RESET: IOE[e]_CMD with RESET at 1 (R267). -/
def execIoeReset (src : Src) (e : Fin 16) (s : State) : Host.Outcome State Fault Refusal :=
  runPer s fun s => s.hostStore src .IOE_CMD e 1

/-- IOE_INJECT: an instruction injected (R280). -/
def execIoeInject (src : Src) (e : Fin 16) (v : Word) (s : State) : Host.Outcome State Fault Refusal :=
  runPer s fun s => s.hostStore src .IOE_INJECT e v.toNat

/-- IOE_GROUP_START: IOE_GROUP_CMD with START at 1 (R279). -/
def execIoeGroupStart (src : Src) (grp : Fin 8) (s : State) : Host.Outcome State Fault Refusal :=
  runPer s fun s => s.hostStore src .IOE_GROUP_CMD 0 (65536 * grp.val + 1)

/-- IOE_GROUP_REPHASE: IOE_GROUP_CMD with REPHASE at 1 (R279). -/
def execIoeGroupRephase (src : Src) (grp : Fin 8) (s : State) : Host.Outcome State Fault Refusal :=
  runPer s fun s => s.hostStore src .IOE_GROUP_CMD 0 (65536 * grp.val + 2)

/-- IOE_QOUT_READ: QOUT read (R283). -/
def execIoeQoutRead (src : Src) (e : Fin 16) (s : State) : Host.Outcome State Fault Refusal :=
  runPer s fun s => s.hostLoad src .IOE_QOUT e 0

/-- IOE_QIN_WRITE: QIN written (R283). -/
def execIoeQinWrite (src : Src) (e : Fin 16) (v : Word) (s : State) : Host.Outcome State Fault Refusal :=
  runPer s fun s => s.hostStore src .IOE_QIN e v.toNat

/-- IOE_FLAGS_CLEAR: IOE[e]_FLAGS written, W1C (R285). -/
def execIoeFlagsClear (src : Src) (e : Fin 16) (mask : BitVec 8) (s : State) : Host.Outcome State Fault Refusal :=
  runPer s fun s => s.hostStore src .IOE_FLAGS e mask.toNat

/-- IOE_FLAGS_SET: IOE[e]_FLAGS_SET written (R285). -/
def execIoeFlagsSet (src : Src) (e : Fin 16) (mask : BitVec 8) (s : State) : Host.Outcome State Fault Refusal :=
  runPer s fun s => s.hostStore src .IOE_FLAGS_SET e mask.toNat

/-- GIO_CFG_WRITE: GIO[p]_CFG written (R268). -/
def execGioCfgWrite (src : Src) (p : Fin 32) (v : Word) (s : State) : Host.Outcome State Fault Refusal :=
  runPer s fun s => s.hostStore src .GIO_CFG p v.toNat

/-- IMEM_WRITE: a word of the instruction memory written (R281). -/
def execImemWrite (src : Src) (e : Fin 16) (i : Fin 64) (v : Word) (s : State) : Host.Outcome State Fault Refusal :=
  runPer s fun s => s.hostMem src (imemAddr e i) 15 v.toNat

/-! ### Events (R269, R274, R277) -/

/-- GIO_EDGE: the filtered level of GIO pin `p` changes (R269). -/
def execGioEdge (p : Fin 32) (level : Bool) (stamp : Nat) (s : State) : Host.Outcome State Fault Refusal :=
  runPer s fun s => s.gioEdge p level stamp

/-- IOE_STEP_WAKE: a wait or stall of engine `e` ends at a step boundary (R266, R274). -/
def execIoeStepWake (e : Fin 16) (s : State) : Host.Outcome State Fault Refusal :=
  runPer s fun s => s.stepWake e

/-- IOE_TIMED_ACTION: the timed pin change of a stalled instruction (R277). -/
def execIoeTimedAction (e : Fin 16) (s : State) : Host.Outcome State Fault Refusal :=
  runPer s fun s => s.timedAction e

/-! ### Instructions (R271 to R278, R282 to R285) -/

/-- IOE_JMP: a jump on a condition (R272). -/
def execIoeJmp (e : Fin 16) (s : State) : Host.Outcome State Fault Refusal :=
  runPer s fun s => s.ioeRun e .jmp fun s i => s.jmpBody i

/-- IOE_WAITP: wait for a level or an edge of a pin (R274). -/
def execIoeWaitp (e : Fin 16) (s : State) : Host.Outcome State Fault Refusal :=
  runPer s fun s => s.ioeRun e .waitp fun s i => s.waitpBody i

/-- IOE_WAITF: wait for a flag (R271, R285). -/
def execIoeWaitf (e : Fin 16) (s : State) : Host.Outcome State Fault Refusal :=
  runPer s fun s => s.ioeRun e .waitf fun s i => s.waitBody i

/-- IOE_WAITI: wait for the level of an interrupt source (R285). -/
def execIoeWaiti (e : Fin 16) (s : State) : Host.Outcome State Fault Refusal :=
  runPer s fun s => s.ioeRun e .waiti fun s i => s.waitBody i

/-- IOE_WAITT: wait for TT (R277). -/
def execIoeWaitt (e : Fin 16) (s : State) : Host.Outcome State Fault Refusal :=
  runPer s fun s => s.ioeRun e .waitt fun s i => s.waitBody i

/-- IOE_PIN: drive, toggle or release a pin (R271). -/
def execIoePin (e : Fin 16) (s : State) : Host.Outcome State Fault Refusal :=
  runPer s fun s => s.ioeRun e .pin fun s i => s.pinBody i

/-- IOE_SHIN: shift into SH (R271). -/
def execIoeShin (e : Fin 16) (s : State) : Host.Outcome State Fault Refusal :=
  runPer s fun s => s.ioeRun e .shin fun s i => s.shinBody i

/-- IOE_SHOUT: shift a bit of SH out to a pin (R271). -/
def execIoeShout (e : Fin 16) (s : State) : Host.Outcome State Fault Refusal :=
  runPer s fun s => s.ioeRun e .shout fun s i => s.pinBody i

/-- IOE_MOV: move an immediate or a register field (R273). -/
def execIoeMov (e : Fin 16) (s : State) : Host.Outcome State Fault Refusal :=
  runPer s fun s => s.ioeRun e .mov fun s i => s.ioeMovBody i

/-- IOE_ADD: add, modulo 2^32 (R271, R273). -/
def execIoeAdd (e : Fin 16) (s : State) : Host.Outcome State Fault Refusal :=
  runPer s fun s => s.ioeRun e .add fun s i => s.ioeArith i fun a b => a + b

/-- IOE_SUB: subtract, modulo 2^32 (R271, R273). -/
def execIoeSub (e : Fin 16) (s : State) : Host.Outcome State Fault Refusal :=
  runPer s fun s => s.ioeRun e .sub fun s i => s.ioeArith i fun a b => a + 2 ^ 32 - b

/-- MEAS: measure the time between edges in units of UNIT (R276). -/
def execMeas (e : Fin 16) (s : State) : Host.Outcome State Fault Refusal :=
  runPer s fun s => s.ioeRun e .meas fun s i => s.measBody i

/-- SETU: set UNIT (R276). -/
def execSetu (e : Fin 16) (s : State) : Host.Outcome State Fault Refusal :=
  runPer s fun s => s.ioeRun e .setu fun s i => s.setuBody i

/-- CRC: feed bits into the CRC register (R278). -/
def execCrc (e : Fin 16) (s : State) : Host.Outcome State Fault Refusal :=
  runPer s fun s => s.ioeRun e .crc fun s i => s.crcBody i

/-- PUSH: SH into the out queue (R282, R283). -/
def execPush (e : Fin 16) (s : State) : Host.Outcome State Fault Refusal :=
  runPer s fun s => s.ioeRun e .push fun s i => s.pushBody i

/-- PULL: the in queue into SH (R282, R283). -/
def execPull (e : Fin 16) (s : State) : Host.Outcome State Fault Refusal :=
  runPer s fun s => s.ioeRun e .pull fun s i => s.pullBody i

/-- POST: a value posted into data memories (R284). -/
def execPost (e : Fin 16) (s : State) : Host.Outcome State Fault Refusal :=
  runPer s fun s => s.ioeRun e .post fun s i => s.postBody i

/-- SETF: set a flag (R271). -/
def execSetf (e : Fin 16) (s : State) : Host.Outcome State Fault Refusal :=
  runPer s fun s => s.ioeRun e .setf fun s i => s.orFld .IOE_FLAGS (ioB i.word) (2 ^ ioImm i.word)

/-- IOE_IRQ: raise the event IRQ (R271). -/
def execIoeIrq (e : Fin 16) (s : State) : Host.Outcome State Fault Refusal :=
  runPer s fun s => s.ioeRun e .irq fun s i => s.raise .IOE_EVT_IRQ i.e

/-- IOE_HALT: the engine halts (R267). -/
def execIoeHalt (e : Fin 16) (s : State) : Host.Outcome State Fault Refusal :=
  runPer s fun s => s.ioeRun e .halt fun s i => s.haltBody i

/-- IOE_ILLEGAL: the word that issues is no instruction (R270). -/
def execIoeIllegal (e : Fin 16) (s : State) : Host.Outcome State Fault Refusal :=
  runPer s fun s => s.ioeIllegal e

end Sys2Proof.Machine
end

