-- ==== Sys2Proof/Machine/Generators.lean ====
section
/-! DEFINITION. The meanings of the commands of comparators, trip channels and PWM generators (R229 to R264). -/

namespace Sys2Proof.Machine

/-! ### Comparators (R229 to R241) -/

/-- CMP_CROSSING: the raw comparison of comparator `k` changes (R231). -/
def execCmpCrossing (k : Fin 32) (raw : Bool) (s : State) : Host.Outcome State Fault Refusal :=
  runPer s fun s => s.cmpCross k raw

/-- CMP_FILTER_PASS: the raw comparison has held for the filter time (R232). -/
def execCmpFilterPass (k : Fin 32) (s : State) : Host.Outcome State Fault Refusal :=
  runPer s fun s => s.cmpFilter k

/-- CMP_DAC_WRITE: CMP[k]_DAC written (R233, R234). -/
def execCmpDacWrite (src : Src) (k : Fin 32) (v : Word) (s : State) : Host.Outcome State Fault Refusal :=
  runPer s fun s => s.hostStore src .CMP_DAC k v.toNat

/-- CMP_HOLD_END: the hold after a threshold change ends (R234). -/
def execCmpHoldEnd (k : Fin 32) (s : State) : Host.Outcome State Fault Refusal :=
  runPer s fun s => s.cmpHoldEnd k

/-! ### Generators (R244 to R249, R254) -/

/-- PWM_CTRL_WRITE: PWM[g]_CTRL written (R244). -/
def execPwmCtrlWrite (src : Src) (g : Fin 16) (v : Word) (s : State) : Host.Outcome State Fault Refusal :=
  runPer s fun s => s.hostStore src .PWM_CTRL g v.toNat

/-- PWM_BOUNDARY: the counter of generator `g` passes its boundary (R248). -/
def execPwmBoundary (g : Fin 16) (s : State) : Host.Outcome State Fault Refusal :=
  runPer s fun s => s.pwmBoundary g

/-- PWM_MID_LOAD: the counter passes its mid-period point (R248). -/
def execPwmMidLoad (g : Fin 16) (s : State) : Host.Outcome State Fault Refusal :=
  runPer s fun s => s.pwmMid g

/-- PWM_COMPARE: the counter passes a compare value (R246). -/
def execPwmCompare (g : Fin 16) (s : State) : Host.Outcome State Fault Refusal :=
  runPer s fun s => s.pwmDrive g

/-- DEADTIME_EXPIRY: the dead time of an output ends (R247). -/
def execDeadtimeExpiry (g : Fin 16) (_b : Bool) (s : State) : Host.Outcome State Fault Refusal :=
  runPer s fun s => s.pwmDrive g

/-- PWM_MARKER: a marker fires (R254). -/
def execPwmMarker (g : Fin 16) (second : Bool) (s : State) : Host.Outcome State Fault Refusal :=
  runPer s fun s => s.pwmMarker g second

/-- PWM_FORCE_WRITE: PWM[g]_FORCE written (R249). -/
def execPwmForceWrite (src : Src) (g : Fin 16) (v : Word) (s : State) : Host.Outcome State Fault Refusal :=
  runPer s fun s => s.hostStore src .PWM_FORCE g v.toNat

/-- PWM_OUTCFG_WRITE: PWM[g]_OUTCFG written (R255). -/
def execPwmOutcfgWrite (src : Src) (g : Fin 16) (v : Word) (s : State) : Host.Outcome State Fault Refusal :=
  runPer s fun s => s.hostStore src .PWM_OUTCFG g v.toNat

/-- PWM_SYNC_RESTART: PWM_SYNC written (R259). -/
def execPwmSyncRestart (src : Src) (mask : BitVec 16) (s : State) : Host.Outcome State Fault Refusal :=
  runPer s fun s => s.hostStore src .PWM_SYNC 0 mask.toNat

/-! ### Trips (R250 to R255) -/

/-- TRIP_PIN_CHANGE: the pin of trip channel `t` changes (R250). -/
def execTripPinChange (t : Fin 8) (level : Bool) (s : State) : Host.Outcome State Fault Refusal :=
  runPer s fun s => s.tripPin t level

/-- TRIP_FILTER_PASS: the inputs of trip channel `t` have held for its filter time (R250). -/
def execTripFilterPass (t : Fin 8) (s : State) : Host.Outcome State Fault Refusal :=
  runPer s fun s => s.tripPass t

/-- TRIP_SW: PWM[g]_CMD with TRIP_SW at 1 (R251). -/
def execTripSw (src : Src) (g : Fin 16) (s : State) : Host.Outcome State Fault Refusal :=
  runPer s fun s => s.hostStore src .PWM_CMD g 2

/-- TRIP_CLR: PWM[g]_CMD with TRIP_CLR at 1 (R252). -/
def execTripClr (src : Src) (g : Fin 16) (s : State) : Host.Outcome State Fault Refusal :=
  runPer s fun s => s.hostStore src .PWM_CMD g 1

/-- AUX_OVERCURRENT: an AUX pin is driven into overcurrent (R255). -/
def execAuxOvercurrent (a : Fin 32) (s : State) : Host.Outcome State Fault Refusal :=
  runPer s fun s => s.auxOver a

end Sys2Proof.Machine
end

