-- ==== Sys2Proof/Machine/ModeCommands.lean ====
section
/-! DEFINITION. The meanings of the mode commands (R173 to R196). -/

namespace Sys2Proof.Machine

/-- The value of MODE_REQ for a target, its domain and its immediate bit (R177, R195). -/
def modeReqWord (target d : Nat) (imm : Bool) : Nat := target + 256 * d + 4096 * b2n imm

/-- MODE_REQ_DORMANT: MODE_REQ with target Dormant (R177, R179). -/
def execModeReqDormant (src : Src) (s : State) : Host.Outcome State Fault Refusal :=
  runPer s fun s => s.hostStore src .MODE_REQ 0 (modeReqWord modeDormant 0 false)

/-- MODE_REQ_STANDBY: MODE_REQ with target Standby (R177, R179). -/
def execModeReqStandby (src : Src) (s : State) : Host.Outcome State Fault Refusal :=
  runPer s fun s => s.hostStore src .MODE_REQ 0 (modeReqWord modeStandby 0 false)

/-- MODE_REQ_SEEK: MODE_REQ with target Seek (R177, R179). -/
def execModeReqSeek (src : Src) (s : State) : Host.Outcome State Fault Refusal :=
  runPer s fun s => s.hostStore src .MODE_REQ 0 (modeReqWord modeSeek 0 false)

/-- MODE_REQ_RUN: MODE_REQ with target Run, at an angle or at once (R177, R182). -/
def execModeReqRun (src : Src) (imm : Bool) (d : Fin 4) (s : State) : Host.Outcome State Fault Refusal :=
  runPer s fun s => s.hostStore src .MODE_REQ 0 (modeReqWord modeRun d imm)

/-- MODE_REQ_CLEARING: MODE_REQ with target Clearing (R178). -/
def execModeReqClearing (src : Src) (s : State) : Host.Outcome State Fault Refusal :=
  runPer s fun s => s.hostStore src .MODE_REQ 0 (modeReqWord modeClearing 0 false)

/-- AUTO_RUN: Seek to Run by the mode logic (R177). -/
def execAutoRun (s : State) : Host.Outcome State Fault Refusal :=
  runEv s fun s => s.autoRun

/-- AUTO_LIMP: Clearing to Limp (R190). -/
def execAutoLimp (s : State) : Host.Outcome State Fault Refusal :=
  runEv s fun s => s.autoLimp

/-- AUTO_LIMP_TO_RUN: Limp to Run (R191). -/
def execAutoLimpToRun (s : State) : Host.Outcome State Fault Refusal :=
  runEv s fun s => s.autoLimpRun

/-- MODE_EPOCH: the angle epoch of the pending transition is reached (R183). -/
def execModeEpoch (s : State) : Host.Outcome State Fault Refusal :=
  runEv s fun s => s.modeEpoch

/-- MODE_TIMEOUT: the transition has not completed in time (R187). -/
def execModeTimeout (s : State) : Host.Outcome State Fault Refusal :=
  runEv s fun s => s.modeTimeout

end Sys2Proof.Machine
end

