-- ==== Sys2Proof/Machine/PairLink.lean ====
section
/-! DEFINITION. Forwarded writes of a pair (R366, R367), and the stream of a join (R388). -/

namespace Sys2Proof.Machine

/-! ### Forwarded writes (R367) -/

/-- WRITE: the Follow applies a forwarded write as a write of its original source; a forwarded token is published. -/
def State.writeFrame (s : State) (src off be v : Nat) : State :=
  if s.followLocked then
    if off = 0x300 then s.fenceToken src (v % 65536)
    else ((s.busStore src off be v false).dmaPump).keepAerr s.mspi.aerr
  else s

/-! ### The join set (R388) -/

/-- A field that the join set carries. -/
def Fld.joins (f : Fld) : Bool := f.info.acc == .rw || f.info.acc == .rwl

/-- A register that the join set carries: RW and RWL fields of F1 and F2, MODE_CFG and MODE_TMO, and the run state. -/
def Reg.joins (r : Reg) : Bool :=
  r == .MODE_CFG || r == .MODE_TMO || r == .SEQ_STAT
    || ((r.row.owner == 1 || r.row.owner == 2) && r.row.fields.any Fld.joins)

/-- The join set's fields of a register, in its whole value. -/
def State.joinValue (s : State) (r : Reg) (i : Nat) : Nat :=
  (r.row.fields.filter fun f => r == .SEQ_STAT || f.joins).foldl (fun n f => n + s.placed i f) 0

/-- One word of the join set; 0 where the offset holds none of it. -/
def State.joinWord (s : State) (off : Nat) : Nat :=
  match regAt off with
  | some a => if a.reg.joins then s.joinValue a.reg a.inst / 2 ^ (32 * a.word) % 2 ^ 32 else 0
  | none => 0

/-- The offset is one of a word of the join set. -/
def joinAt (off : Nat) : Bool := match regAt off with | some a => a.reg.joins | none => false

/-- The `n` bytes of a number, least significant first (R320). -/
def bytesLE (n v : Nat) : List Nat := (upto n).map fun k => v / 256 ^ k % 256

/-- The memories of the join set, in the order listed: first offset and size. -/
def joinMemories : List (Nat × Nat) :=
  [(0x80000, 0x40000), (0x200000, 0x60000), (0x400000, 0x40000), (0x480000, 0x20000), (0x500000, 0x18000)]

/-- The register ranges that hold the rest of the join set: first offset and 8-byte units. -/
def joinRegisters : List (Nat × Nat) :=
  [(0x110, 2), (0x40000, 0x900), (0x48000, 0x100), (0x100000, 0xC01), (0x110000, 0x300), (0x114000, 0x80), (0x118000, 3),
    (0x140000, 0x300), (0x142000, 0x18), (0x150000, 0x1248)]

/-- One BULK frame (DESIGN CHOICE, log entry 45). -/
def State.bulkOut (s : State) (off : Nat) (data : List Nat) : State := s.sendReliable fun q => .bulk q off data

/-- A memory range sent in frames of at most 216 bytes, with the length and the CRC of the stream so far.
(DESIGN CHOICE, log entry 45). -/
def State.bulkMem (p : State × Nat × Nat) (r : Nat × Nat) : State × Nat × Nat :=
  (upto ((r.2 + 215) / 216)).foldl (fun p k =>
    let data := (upto (min 216 (r.2 - 216 * k))).map fun j => (p.1.byte (r.1 + 216 * k + j)).toNat
    (p.1.bulkOut (r.1 + 216 * k) data, p.2.1 + data.length, data.foldl crc32Byte p.2.2)) p

/-- The 8-byte units of a register range that hold a word of the join set, one frame each (DESIGN CHOICE, log entry 45). -/
def State.bulkRegs (p : State × Nat × Nat) (r : Nat × Nat) : State × Nat × Nat :=
  (upto r.2).foldl (fun p k =>
    let off := r.1 + 8 * k
    if joinAt off || joinAt (off + 4) then
      let data := bytesLE 4 (p.1.joinWord off) ++ bytesLE 4 (p.1.joinWord (off + 4))
      (p.1.bulkOut off data, p.2.1 + 8, data.foldl crc32Byte p.2.2)
    else p) p

/-- JOIN REQ: a Lead with JOIN_EN answers with JOIN START, the join set, and JOIN END (R388). -/
def State.joinAnswer (s : State) : State :=
  if s.leads && s.flag .PAIR_CFG_JOIN_EN then
    let s := s.sendReliable fun q => .join q 2 0 0
    let p := joinRegisters.foldl State.bulkRegs (joinMemories.foldl State.bulkMem (s, 0, 0xFFFFFFFF))
    (p.1.setFld .PAIR_JOIN_KIB 0 (p.2.1 / 1024)).sendReliable fun q => .join q 3 p.2.1 (p.2.2 ^^^ 0xFFFFFFFF)
  else s

/-! ### The stream in the Follow (R388) -/

/-- ADC_CFG taken over from the join set: the converter stops first, so that its own EN locks nothing. -/
def State.joinAdc (s : State) (off k v : Nat) : State :=
  (s.adcCfg 0 off 15 k (v % 2 ^ 30 + 2 ^ 30 * s.fld .ADC_CFG_ILV k)).adcCfg 0 off 15 k v

/-- BAS_CFG taken over from the join set: the Lead's value, refused by nothing that the Follow held before. -/
def State.joinBas (s : State) (k v : Nat) : State :=
  let s := basCfgFields.foldl (fun t f => t.setFld f.1 k (bitsN v f.2.1 f.2.2)) (s.basAbort k)
  (s.putFlag .BAS_CFG_EN k (bitN v 31)).modBasin k fun b => { b with dupOpen := none }

/-- OUT_OWNER taken over from the join set. -/
def State.joinOwner (s : State) (c v : Nat) : State :=
  ((s.setFld .OUT_OWNER_OWNED c (bitsN v 7 7)).setFld .OUT_OWNER_SEQ c (bitsN v 4 0)).redriveChan c

/-- Every field of a register that the join set carries, stored. -/
def State.joinFields (s : State) (r : Reg) (i v : Nat) : State :=
  (r.row.fields.filter Fld.joins).foldl (fun t f => t.setFld f i (bitsN v f.info.hi f.info.lo)) s

/-- A register word of the join set taken over: no lock of the Follow's own sources, mode or engines stands against it
(DESIGN CHOICE, log entry 45). -/
def State.joinReg (s : State) (a : RegAt) (off w : Nat) : State :=
  if a.reg == .SEQ_STAT then s.modPair fun p => { p with joinRun := Tab.put p.joinRun a.inst (some w) }
  else if a.reg.joins then
    let old := s.joinValue a.reg a.inst
    let v := if a.reg.row.words = 1 then w
      else if a.word = 0 then old / 2 ^ 32 * 2 ^ 32 + w else old % 2 ^ 32 + w * 2 ^ 32
    match a.reg with
    | .ADC_CFG => s.joinAdc off a.inst v
    | .BAS_CFG => s.joinBas a.inst v
    | .OUT_OWNER => s.joinOwner a.inst v
    | r => (if s.rwlOpen then s else s.joinFields r a.inst v).writeReg 0 off 15 r a.inst v
  else s

/-- A word of the join set stored. -/
def State.joinStore (s : State) (off w : Nat) : State :=
  match regAt off, memAt off with
  | some a, _ => s.joinReg a off w
  | none, some m => (s.setWord off (w &&& m.mask)).memWritten off 15 m
  | none, none => s

/-- The little-endian words of a list of bytes stored from an offset upwards. -/
def State.joinWords (s : State) (off : Nat) (ws : List Nat) : State :=
  (ws.foldl (fun (p : State × Nat) w => (p.1.joinStore p.2 w, p.2 + 4)) (s, off)).1

/-- BULK: data of the join set (R388, R389). -/
def State.bulkIn (s : State) (off : Nat) (data : List Byte) : State :=
  if s.pstate = stJoining ∧ s.pair.joinStarted then
    let s := (s.joinWords off (wordsOf data)).modPair fun p =>
      { p with joinLen := p.joinLen + data.length, joinCrc := data.foldl (fun c b => crc32Byte c b.toNat) p.joinCrc }
    s.setFld .PAIR_JOIN_KIB 0 (s.pair.joinLen / 1024)
  else s

end Sys2Proof.Machine
end

