-- ==== Sys2Proof/Machine/PairCommands.lean ====
section
/-! DEFINITION. The meanings of the commands of the redundant pair and its link (R363 to R391). -/

namespace Sys2Proof.Machine

/-! ### Start and DEN (R368 to R373) -/

/-- PAIR_START_DECIDE: a module in START looks at its partner (R368). -/
def execPairStartDecide (peerLead : Bool) (peerDen : Bool) (s : State) : Host.Outcome State Fault Refusal :=
  runLive s fun s => s.startDecide peerLead peerDen

/-- LEAD_CONFLICT: both modules hold the token (R369). -/
def execLeadConflict (s : State) : Host.Outcome State Fault Refusal :=
  runLive s fun s => s.leadConflict

/-- RMGR_REFRESH: the recovery manager offers a refresh of DEN (R370, R371). -/
def execRmgrRefresh (s : State) : Host.Outcome State Fault Refusal :=
  runPer s fun s => s.refresh

/-- DEN_STOP: 15 ticks since the last refresh (R370). -/
def execDenStop (s : State) : Host.Outcome State Fault Refusal :=
  run s fun s => s.denStop

/-- DEN_SILENCE: the module's own DEN shows no edge for 1,500 ns (R161). -/
def execDenSilence (s : State) : Host.Outcome State Fault Refusal :=
  runLive s fun s => s.denSilence

/-- LEAD_FORCE_OFF: the wellspring forces LEAD deasserted (R373). -/
def execLeadForceOff (s : State) : Host.Outcome State Fault Refusal :=
  run s fun s => s.leadForce

/-! ### The link (R374 to R380) -/

/-- HEARTBEAT_SEND: a heartbeat leaves (R377). -/
def execHeartbeatSend (s : State) : Host.Outcome State Fault Refusal :=
  runPer s fun s => s.hbSend

/-- HEARTBEAT: a heartbeat arrives (R374, R377). -/
def execHeartbeat (flags : BitVec 8) (ack : BitVec 16) (state : BitVec 16) (s : State) : Host.Outcome State Fault Refusal :=
  runPer s fun s => s.heartbeat flags.toNat ack.toNat state.toNat

/-- HEARTBEAT_MISS: 2,500 ns without a heartbeat (R391). -/
def execHeartbeatMiss (s : State) : Host.Outcome State Fault Refusal :=
  runPer s fun s => s.hbMiss

/-- DIGEST: a digest arrives (R380). -/
def execDigest (bytes : List Byte) (s : State) : Host.Outcome State Fault Refusal :=
  runPer s fun s => s.receiveDigest (bytes.map fun b => b.toNat)

/-- LINK_FRAME_DISCARD: a bad frame arrives (R375, R376). -/
def execLinkFrameDiscard (s : State) : Host.Outcome State Fault Refusal :=
  runPer s fun s => s.linkDiscard

/-- LINK_DOWN: 10 µs without a heartbeat (R374, R378). -/
def execLinkDown (s : State) : Host.Outcome State Fault Refusal :=
  runPer s fun s => s.linkDown

/-- LINK_RETRY: unacknowledged frames are sent again (R378). -/
def execLinkRetry (s : State) : Host.Outcome State Fault Refusal :=
  runPer s fun s => s.linkRetry

/-! ### Reliable frames (R193, R367, R386, R388, R389) -/

/-- MODE_FRAME: a transition of the Lead (R193). -/
def execModeFrame (seq : BitVec 16) (target : Fin 6) (cause : BitVec 8) (dom : Fin 4) (imm : Bool) (angle : Word) (s : State) : Host.Outcome State Fault Refusal :=
  runPer s fun s => s.reliable seq.toNat fun s => s.modeFrame target cause.toNat dom imm angle.toNat

/-- TOKEN_OFFER: a handover is offered (R386). -/
def execTokenOffer (seq : BitVec 16) (s : State) : Host.Outcome State Fault Refusal :=
  runPer s fun s => s.reliable seq.toNat fun s => s.tokenOffer

/-- TOKEN_ACCEPT: the offer is accepted (R386). -/
def execTokenAccept (seq : BitVec 16) (s : State) : Host.Outcome State Fault Refusal :=
  runPer s fun s => s.reliable seq.toNat fun s => s.tokenAccept

/-- TOKEN_REFUSE: the offer is refused (R386). -/
def execTokenRefuse (seq : BitVec 16) (s : State) : Host.Outcome State Fault Refusal :=
  runPer s fun s => s.reliable seq.toNat fun s => s.tokenRefuse

/-- TOKEN_ABORT: the offer is withdrawn (R386). -/
def execTokenAbort (seq : BitVec 16) (s : State) : Host.Outcome State Fault Refusal :=
  runPer s fun s => s.reliable seq.toNat fun s => s.tokenAbort

/-- TOKEN_RELEASED: the partner has released the token; the takeover itself is TAKEOVER (R381, R386). -/
def execTokenReleased (seq : BitVec 16) (s : State) : Host.Outcome State Fault Refusal :=
  runPer s fun s => s.reliable seq.toNat fun s => s

/-- JOIN_REQ: the partner requests a join (R388). -/
def execJoinReq (seq : BitVec 16) (s : State) : Host.Outcome State Fault Refusal :=
  runPer s fun s => s.reliable seq.toNat fun s => s.joinAnswer

/-- JOIN_START: the stream of the join set begins (R388). -/
def execJoinStart (seq : BitVec 16) (s : State) : Host.Outcome State Fault Refusal :=
  runPer s fun s => s.reliable seq.toNat fun s => s.joinStart

/-- JOIN_END: the stream ends (R389). -/
def execJoinEnd (seq : BitVec 16) (len : Nat) (crc : BitVec 32) (s : State) : Host.Outcome State Fault Refusal :=
  runPer s fun s => s.reliable seq.toNat fun s => s.joinEnd len crc.toNat

/-- JOIN_ABORT_FRAME: the partner ends the join (R389). -/
def execJoinAbortFrame (seq : BitVec 16) (s : State) : Host.Outcome State Fault Refusal :=
  runPer s fun s => s.reliable seq.toNat fun s => s.joinAborted

/-- BULK: data of the join set (R388). -/
def execBulk (seq : BitVec 16) (off : BitVec 24) (data : List Byte) (s : State) : Host.Outcome State Fault Refusal :=
  runPer s fun s => s.reliable seq.toNat fun s => s.bulkIn off.toNat data

/-- WRITE_FRAME: a forwarded write (R367). -/
def execWriteFrame (seq : BitVec 16) (source : BitVec 8) (be : BitVec 4) (off : BitVec 24) (v : Word) (s : State) : Host.Outcome State Fault Refusal :=
  runPer s fun s => s.reliable seq.toNat fun s => s.writeFrame source.toNat off.toNat be.toNat v.toNat

/-! ### Takeover and handover (R381 to R389) -/

/-- TAKEOVER: a Follow takes the token, if it may (R381 to R383). -/
def execTakeover (cond : TakeCond) (s : State) : Host.Outcome State Fault Refusal :=
  runLive s fun s => s.takeOver cond

/-- PAIR_HANDOVER: PAIR_CMD with HANDOVER at 1 (R385). -/
def execPairHandover (src : Src) (s : State) : Host.Outcome State Fault Refusal :=
  runPer s fun s => s.hostStore src .PAIR_CMD 0 1

/-- PAIR_JOIN_ABORT: PAIR_CMD with JOIN_ABORT at 1 (R389). -/
def execPairJoinAbort (src : Src) (s : State) : Host.Outcome State Fault Refusal :=
  runPer s fun s => s.hostStore src .PAIR_CMD 0 2

/-- IDLE_INSTANT: an idle instant of a handover (R386). -/
def execIdleInstant (s : State) : Host.Outcome State Fault Refusal :=
  runLive s fun s => s.idleInstant

/-- IDLE_WAIT_EXPIRY: the wait for an idle instant ends (R386). -/
def execIdleWaitExpiry (s : State) : Host.Outcome State Fault Refusal :=
  runLive s fun s => s.idleExpiry

/-- PRESENT_MAKE: the PRESENT contact is made (R442). -/
def execPresentMake (s : State) : Host.Outcome State Fault Refusal :=
  run s fun s => s.presentPin true

/-- PRESENT_BREAK: the PRESENT contact breaks (R161, R387). -/
def execPresentBreak (s : State) : Host.Outcome State Fault Refusal :=
  run s fun s => s.presentPin false

end Sys2Proof.Machine
end

