-- ==== Sys2Proof/Machine/Platform.lean ====
section
/-! DEFINITION. The meanings of the commands of the interrupt controller, the DMA engine and the register interface (R288 to R332,
R420 to R425). -/

namespace Sys2Proof.Machine

/-! ### Interrupts (R289 to R299, R372) -/

/-- ICU_TGT_WRITE: ICU_TGT[k] written (R292). -/
def execIcuTgtWrite (src : Src) (k : Fin 384) (v : Word) (s : State) : Host.Outcome State Fault Refusal :=
  runPer s fun s => s.hostStore src .ICU_TGT k v.toNat

/-- ICU_EOI: function `f` writes EOI in its interrupt window (R295, R298). -/
def execIcuEoi (f : Fin 4) (vec : BitVec 6) (s : State) : Host.Outcome State Fault Refusal :=
  runPer s fun s => s.hostWrite (.f f) .bar1 0x1000 15 vec.toNat

/-- MSIX_UNMASK: a send condition lifts (R296). -/
def execMsixUnmask (f : Fin 4) (cond : SendCond) (s : State) : Host.Outcome State Fault Refusal :=
  runLive s fun s => s.unmask f cond

/-- ICU_SWI_SET: ICU_SWI_SET[j] written (R290). -/
def execIcuSwiSet (src : Src) (j : Fin 2) (mask : Word) (s : State) : Host.Outcome State Fault Refusal :=
  runPer s fun s => s.hostStore src .ICU_SWI_SET j mask.toNat

/-- RMGR_SOURCE: a source with TYPE 7 is asserted to the recovery manager (R372). -/
def execRmgrSource (k : Fin 384) (s : State) : Host.Outcome State Fault Refusal :=
  runPer s fun s => s.rmgrSource k

/-! ### DMA (R302 to R318, R353) -/

/-- DMA_TAIL: the tail of a ring written (R306). -/
def execDmaTail (src : Src) (c : Fin 16) (v : Word) (s : State) : Host.Outcome State Fault Refusal :=
  runPer s fun s => s.hostStore src .DMA_CH_TAIL c v.toNat

/-- DMA_CFG_WRITE: DMA_CH[c]_CFG written (R303, R315). -/
def execDmaCfgWrite (src : Src) (c : Fin 16) (v : Word) (s : State) : Host.Outcome State Fault Refusal :=
  runPer s fun s => s.hostStore src .DMA_CH_CFG c v.toNat

/-- DMA_ABORT: DMA_CH[c]_CMD with ABORT at 1 (R313). -/
def execDmaAbort (src : Src) (c : Fin 16) (s : State) : Host.Outcome State Fault Refusal :=
  runPer s fun s => s.hostStore src .DMA_CH_CMD c 1

/-- DMA_SKIP: DMA_CH[c]_CMD with SKIP at 1 (R311). -/
def execDmaSkip (src : Src) (c : Fin 16) (s : State) : Host.Outcome State Fault Refusal :=
  runPer s fun s => s.hostStore src .DMA_CH_CMD c 2

/-- DMA_RD_WRITE: RD of a result ring written (R315). -/
def execDmaRdWrite (src : Src) (c : Fin 16) (v : Word) (s : State) : Host.Outcome State Fault Refusal :=
  runPer s fun s => s.hostStore src .DMA_CH_RD c v.toNat

/-- DMA_READ_COMPLETION: the completion of a channel's host read, by its tag (R304, R310, R344). -/
def execDmaReadCompletion (c : Fin 16) (tag : Fin 32) (data : Option (List Byte)) (s : State) : Host.Outcome State Fault Refusal :=
  runPer s fun s => (s.dmaCompletion c tag data).dmaPump

/-- DMA_FEED_TRANSFER: one record from a feed to a result ring (R314). -/
def execDmaFeedTransfer (c : Fin 16) (s : State) : Host.Outcome State Fault Refusal :=
  runPer s fun s => s.feedTransfer c

/-- COMPLETION_TIMEOUT: a host read is not completed in time (R353). -/
def execCompletionTimeout (c : Fin 16) (s : State) : Host.Outcome State Fault Refusal :=
  runPer s fun s => (s.dmaTimeout c).dmaPump

/-! ### Accesses (R5, R320 to R332, R420 to R425) -/

/-- REGISTER_WRITE: a write of any offset of an address space, of one word or of more, with good or poisoned data (R352). -/
def execRegisterWrite (src : Src) (space : Space) (off : BitVec 24) (be : BitVec 4) (d : WriteData) (s : State) :
    Host.Outcome State Fault Refusal :=
  runPer s fun s =>
    s.hostPut src space off.toNat be.toNat d.word.toNat (d.rest.map fun w => (w.1.toNat, w.2.toNat)) d.poisoned

/-- RC_READ: a read of any offset of an address space; RC fields restart (R5). -/
def execRcRead (src : Src) (space : Space) (off : BitVec 24) (be : List (BitVec 4)) (s : State) :
    Host.Outcome State Fault Refusal :=
  runPer s fun s => s.hostGet src space off.toNat (be.headD 0).toNat (be.tail.map (·.toNat))

/-- PAIR_LOW_READ: a read of the low word of a pair, which latches the high word (R326); elsewhere as any read. -/
def execPairLowRead (src : Src) (space : Space) (off : BitVec 24) (be : List (BitVec 4)) (s : State) :
    Host.Outcome State Fault Refusal :=
  runPer s fun s => s.hostGet src space off.toNat (be.headD 0).toNat (be.tail.map (·.toNat))

/-- FENCE_WRITE: a token published: in F0's register, or in a function's window (R332). -/
def execFenceWrite (src : Src) (token : BitVec 16) (s : State) : Host.Outcome State Fault Refusal :=
  runPer s fun s => s.fenceCmd src token.toNat

/-- ELOG_RD_WRITE: ELOG_RD written (R425). -/
def execElogRdWrite (src : Src) (v : Word) (s : State) : Host.Outcome State Fault Refusal :=
  runPer s fun s => s.hostStore src .ELOG_RD 0 v.toNat

/-- LOST_ENTRY: the owed LOST entry, once it is due (R424). -/
def execLostEntry (s : State) : Host.Outcome State Fault Refusal :=
  runLive s fun s => s.logLost s.mode

end Sys2Proof.Machine
end

