-- ==== Sys2Proof/Machine/Mspi.lean ====
section
/-! DEFINITION. The monitor SPI port: frames, their CRC, and the response to the frame before (R334 to R341). -/

namespace Sys2Proof.Machine

/-- One bit of the CRC-8 with polynomial 0x2F (R335). -/
def crc8Bit (c : Nat) : Nat := if 128 ≤ c then (c * 2 % 256) ^^^ 0x2F else c * 2

/-- One byte taken into the CRC. -/
def crc8Byte (c b : Nat) : Nat := (upto 8).foldl (fun c _ => crc8Bit c) (c ^^^ b)

/-- The CRC of the 64 bits above it in a frame, first byte first (R335). -/
def crc8 (v : Nat) : Nat := (upto 8).foldl (fun c j => crc8Byte c (v / 256 ^ (7 - j) % 256)) 0xFF

/-- A 72-bit frame: CMD or STATUS, ADDR, DATA, and the CRC over them (R335). -/
def mspiFrame (cmd addr data : Nat) : Nat :=
  let v := cmd * 2 ^ 56 + addr * 2 ^ 32 + data
  v * 256 + crc8 v

def State.modMspi (s : State) (g : Mspi → Mspi) : State := { s with mspi := g s.mspi }

/-- STATUS of a response formed now (R339). -/
def State.mspiStatus (s : State) : Nat :=
  let m := s.mspi
  128 * b2n m.first + 64 * b2n m.ferr + 32 * b2n m.cerr + 16 * b2n m.cmderr + 8 * b2n m.aerr
    + 4 * b2n (s.mode == modeClearing) + 2 * b2n s.intLow + b2n m.done

/-- What MISO shifts out in a frame of `bits` rising SCK edges: the response, first bit first, cut where the frame ends and 0
after its 72nd bit (R334). -/
def shifted (bits resp : Nat) : Nat := if bits ≤ 72 then resp / 2 ^ (72 - bits) else resp * 2 ^ (bits - 72)

/-- SEL# falls on a frame of `bits` bits: MISO carries the response to the frame before, and the record of this frame starts
empty (R334, R339) (DEDUCED, log entry 43). -/
def State.selFall (s : State) (bits : Nat) : State :=
  let r := mspiFrame s.mspiStatus s.mspi.addr s.mspi.data
  s.modMspi fun _ => { first := false, miso := some (bits, shifted bits r) }

/-- The port serves frames: not in Dormant, nor in a power-on reset, nor without the peripheral clock (R341).
(DEDUCED, log entry 46). -/
def State.mspiOn (s : State) : Bool := s.live && !s.perStopped && s.mode != modeDormant

/-- A frame of `bits` bits to the port: in Dormant it is ignored, and MISO stays in high impedance (R341).
(DEDUCED, log entry 43). -/
def State.mspiRun (s : State) (bits : Nat) (g : State → State) : State :=
  if s.mspiOn then g (s.selFall bits) else s.modMspi fun m => { m with miso := none }

/-- NOP (R336). -/
def State.mspiNopFrame (s : State) : State := s.modMspi fun m => { m with done := true }

/-- READ: a 32-bit read, with its side effects; a misaligned one makes no access and is not carried out (R337, R339). -/
def State.mspiReadFrame (s : State) (addr : Nat) : State :=
  let r := s.busRead 4 addr 15
  r.1.modMspi fun m => { m with addr, data := r.2.getD 0, done := r.2.isSome }

/-- A 32-bit write acts on some field of the register (R5, R6). -/
def State.writeActs (s : State) (r : Reg) : Bool :=
  r.row.fields.any fun f => match f.info.acc with
    | .ro | .rc => false
    | .rwl => s.rwlOpen
    | _ => true

/-- A 32-bit write that the rules discard without logging it: in a register of RO and RC fields (R5), a full in queue (R283),
an injection that is lost or refused (R280) (DEDUCED, log entry 43). -/
def State.writeLost (s : State) (off v : Nat) : Bool :=
  match regAt off with
  | some a =>
    (match a.reg with
      | .IOE_QIN => decide (s.inCap a.inst ≤ (s.ioe a.inst).qin.length)
      | .IOE_INJECT => s.flag .IOE_STAT_INJ_PENDING a.inst
          || (!s.ioeOn a.inst && (ioDecode v).isSome && ioRefused v)
      | .ICU_TGT => decide (285 ≤ a.inst ∧ a.inst < 320)
      | r => !s.writeActs r)
  | none => false

/-- A logged write of the register can act on the fields that nothing locks (R6, R208, R247, R255, R303). -/
def fieldwise (r : Reg) : Bool :=
  [Reg.BAS_CFG, .ADC_CFG, .PWM_CTRL, .PWM_OUTCFG, .DMA_CH_CFG].contains r
    || (r.row.fields.any (fun f => f.info.acc == .rwl) && r.row.fields.any fun f => f.info.acc == .rw)

/-- WRITE: a 32-bit write (R337). AERR reports one that the rules discard or log, and DONE one that acted (R339).
(DEDUCED, log entry 43). -/
def State.mspiWriteFrame (s : State) (addr v : Nat) : State :=
  let t := (s.busWrite 4 addr 15 v).dmaPump
  let bad := t.mspi.aerr || s.writeLost addr v
  let some' := t.mspi.aerr && (match regAt addr with
    | some a => fieldwise a.reg && !s.writeBarred addr true
    | none => false)
  t.modMspi fun m => { m with addr, data := v, aerr := bad, done := !bad || some' }

/-- CLEAR: Clearing with cause MONITOR (R340). -/
def State.mspiClearFrame (s : State) : State :=
  (s.requestClearing 3 s.activeCount).modMspi fun m => { m with data := 0xA55A5AA5, done := true }

/-- A CMD with its ADDR and DATA is one that the table of R336 allows. -/
def cmdValid (cmd addr v : Nat) : Bool :=
  match cmd with
  | 0x00 => addr == 0 && v == 0
  | 0x01 => v == 0
  | 0x02 => true
  | 0xC3 => addr == 0 && v == 0xA55A5AA5
  | _ => false

/-- A good frame with a command error (R336) (DEDUCED, log entry 43). -/
def State.mspiBadCmd (s : State) (cmd addr v : Nat) : State :=
  if cmdValid cmd addr v then s else (s.bump .MSPI_CNT_CMD).modMspi fun m => { m with addr, cmderr := true }

/-- A frame discarded: the cause, and the counter (R338). -/
def State.mspiDiscard (s : State) (cause : Nat) : State :=
  ((s.bump .MSPI_CNT_FRAME).setFld .MSPI_STAT_LAST_CAUSE 0 cause).modMspi fun m =>
    { m with ferr := cause == 1, cerr := cause == 2 }

/-- Why a frame of a number of bits is discarded: 1 its length, 2 its CRC; 0 for a good frame (R337, R338). -/
def discardCause (bits frame : Nat) : Nat :=
  if bits ≠ 72 then 1 else if crc8 (frame / 256) ≠ frame % 256 then 2 else 0

/-- The command that a frame of `bits` bits is: its CMD names it, with the fields that the table requires (R335, R336, R338). -/
def frameCommand (bits : Nat) (frame : BitVec 72) : Instr :=
  let w := frame.toNat
  let cmd := w / 2 ^ 64
  let addr := w / 2 ^ 40 % 2 ^ 24
  let v := w / 2 ^ 8 % 2 ^ 32
  if discardCause bits w ≠ 0 then .mspiFrameDiscard bits frame false
  else if cmdValid cmd addr v = false then .mspiCmdError (BitVec.ofNat 8 cmd) (BitVec.ofNat 24 addr) (BitVec.ofNat 32 v)
  else match cmd with
    | 0x00 => .mspiNop
    | 0x01 => .mspiRead (BitVec.ofNat 24 addr)
    | 0x02 => .mspiWrite (BitVec.ofNat 24 addr) (BitVec.ofNat 32 v)
    | _ => .mspiClear

/-- MSPI_FRAME_DISCARD (R338): `early` is a fall of SEL# within 400 ns of its rise, which starts no frame and forms no
response. A frame that nothing speaks against is none of this command's. -/
def State.mspiDiscardFrame (s : State) (bits frame : Nat) (early : Bool) : State :=
  if early then
    if s.mspiOn then (s.modMspi fun m => { first := m.first, miso := none }).mspiDiscard 1
    else s.modMspi fun m => { m with miso := none }
  else if discardCause bits frame = 0 then s
  else s.mspiRun bits fun s => s.mspiDiscard (discardCause bits frame)

end Sys2Proof.Machine
end

