-- ==== Sys2Proof/Machine/Ports.lean ====
section
/-! DEFINITION. The meanings of the commands of the monitor SPI port and of the PCI Express endpoint (R334 to R362). -/

namespace Sys2Proof.Machine

/-! ### The monitor SPI port (R334 to R341) -/

/-- MSPI_NOP: collects the previous response (R336). -/
def execMspiNop (s : State) : Host.Outcome State Fault Refusal :=
  run s fun s => s.mspiRun 72 State.mspiNopFrame

/-- MSPI_READ: a 32-bit read (R337). -/
def execMspiRead (addr : BitVec 24) (s : State) : Host.Outcome State Fault Refusal :=
  run s fun s => s.mspiRun 72 fun s => s.mspiReadFrame addr.toNat

/-- MSPI_WRITE: a 32-bit write (R337). -/
def execMspiWrite (addr : BitVec 24) (v : Word) (s : State) : Host.Outcome State Fault Refusal :=
  run s fun s => s.mspiRun 72 fun s => s.mspiWriteFrame addr.toNat v.toNat

/-- MSPI_CLEAR: the Clearing command (R340). -/
def execMspiClear (s : State) : Host.Outcome State Fault Refusal :=
  run s fun s => s.mspiRun 72 State.mspiClearFrame

/-- MSPI_CMD_ERROR: a good frame whose CMD or fields are not in the table (R336). -/
def execMspiCmdError (cmd : BitVec 8) (addr : BitVec 24) (v : Word) (s : State) : Host.Outcome State Fault Refusal :=
  run s fun s => s.mspiRun 72 fun s => s.mspiBadCmd cmd.toNat addr.toNat v.toNat

/-- MSPI_FRAME_DISCARD: a frame of a wrong length, time or CRC (R338). -/
def execMspiFrameDiscard (bits : Nat) (frame : BitVec 72) (early : Bool) (s : State) : Host.Outcome State Fault Refusal :=
  run s fun s => s.mspiDiscardFrame bits frame.toNat early

/-! ### PCI Express (R344 to R359) -/

/-- CONVENTIONAL_RESET: PERST#, Hot Reset or link down: the endpoint alone (R346). -/
def execConventionalReset (cause : ConvReset) (s : State) : Host.Outcome State Fault Refusal :=
  runLive s fun s => (s.conventional cause).dmaPump

/-- PERST_DEASSERT: PERST# is deasserted (R359). -/
def execPerstDeassert (s : State) : Host.Outcome State Fault Refusal :=
  runLive s fun s => s.perstOff

/-- CONFIG_RETRY_END: configuration requests are no longer answered with a retry (R359). -/
def execConfigRetryEnd (s : State) : Host.Outcome State Fault Refusal :=
  runLive s fun s => s.retryEnd

/-- LINK_UP: the link trains (R359). -/
def execLinkUp (speed : Fin 3) (width : Fin 2) (s : State) : Host.Outcome State Fault Refusal :=
  runLive s fun s => s.linkTrained speed width

/-- BUS_MASTER_ENABLE_SET: Bus Master Enable of F0 is set (R305). -/
def execBusMasterEnableSet (s : State) : Host.Outcome State Fault Refusal :=
  runLive s fun s => (s.unmask 0 .busMaster).dmaPump

/-- POWER_STATE_CHANGE: a function enters D3hot or D0 (R349). -/
def execPowerStateChange (f : Fin 4) (d3 : Bool) (s : State) : Host.Outcome State Fault Refusal :=
  runLive s fun s => (s.modFn f fun x => { x with d3 }).dmaPump

/-- FLR: a Function Level Reset (R354 to R358). -/
def execFlr (f : Fin 4) (s : State) : Host.Outcome State Fault Refusal :=
  runPer s fun s => s.flr f

/-- F1_BLOCK_RESET: the block reset of F1, once it may begin (R356, R357). -/
def execF1BlockReset (s : State) : Host.Outcome State Fault Refusal :=
  runPer s fun s => s.f1BlockReset

/-- FLR_HANDOVER_FALLBACK: HO_MS have passed (R357). -/
def execFlrHandoverFallback (s : State) : Host.Outcome State Fault Refusal :=
  runPer s fun s => s.hoFallback

/-- PCIE_FOREIGN_ACCESS: an access outside the ranges of a function (R352). -/
def execPcieForeignAccess (f : Fin 4) (off : BitVec 24) (wr : Bool) (s : State) : Host.Outcome State Fault Refusal :=
  runPer s fun s => s.foreignAccess f off.toNat wr

end Sys2Proof.Machine
end

