-- ==== Sys2Proof/Machine/Programs.lean ====
section
/-! DEFINITION. The meanings of the commands that reach the sequencers, the service slots and the timing outputs from outside (R82
to R89, R107, R127, R139, R154 to R159). -/

namespace Sys2Proof.Machine

/-! ### Sequencers (R82, R107, R127, R139) -/

/-- SEQ_START: SEQ[n]_CMD with START at 1 (R82). -/
def execSeqStart (src : Src) (n : Fin 24) (s : State) : Host.Outcome State Fault Refusal :=
  runPer s fun s => s.hostStore src .SEQ_CMD n 1

/-- SEQ_RESET: SEQ[n]_CMD with RESET at 1 (R107). -/
def execSeqReset (src : Src) (n : Fin 24) (s : State) : Host.Outcome State Fault Refusal :=
  runPer s fun s => s.hostStore src .SEQ_CMD n 2

/-- SEQ_SWAP_REQ: SEQ[n]_SWAP with REQ at 1 (R139). -/
def execSeqSwapReq (src : Src) (n : Fin 24) (s : State) : Host.Outcome State Fault Refusal :=
  runPer s fun s => s.hostStore src .SEQ_SWAP n 1

/-- SEQ_FLAGS_CLEAR: SEQ[n]_FLAGS written, W1C (R127). -/
def execSeqFlagsClear (src : Src) (n : Fin 24) (mask : BitVec 16) (s : State) : Host.Outcome State Fault Refusal :=
  runPer s fun s => s.hostStore src .SEQ_FLAGS n mask.toNat

/-- SEQ_FLAGS_SET: SEQ[n]_FLAGS_SET written (R127). -/
def execSeqFlagsSet (src : Src) (n : Fin 24) (mask : BitVec 16) (s : State) : Host.Outcome State Fault Refusal :=
  runPer s fun s => s.hostStore src .SEQ_FLAGS_SET n mask.toNat

/-! ### Memories (R84, R86, R89) -/

/-- PROGRAM_BANK_WRITE: an instruction word written (R84). -/
def execProgramBankWrite (src : Src) (n : Fin 24) (b : Fin 2) (i : Fin 2048) (v : Word) (s : State) : Host.Outcome State Fault Refusal :=
  runPer s fun s => s.hostMem src (progAddr n b i) 15 v.toNat

/-- DATA_MEMORY_WRITE: a word of a data memory written (R16, R87). -/
def execDataMemoryWrite (src : Src) (n : Fin 24) (i : Fin 1024) (v : Word) (s : State) : Host.Outcome State Fault Refusal :=
  runPer s fun s => s.hostMem src (dmemAddr n i) 15 v.toNat

/-- MAPM_WRITE: a word of the map memory written (R89). -/
def execMapmWrite (src : Src) (a : Fin 65536) (be : BitVec 4) (v : Word) (s : State) : Host.Outcome State Fault Refusal :=
  runPer s fun s => s.hostMem src (mapmAddr (4 * a.val)) be.toNat v.toNat

/-! ### Service slots and outputs (R154 to R159) -/

/-- SVC_CFG_WRITE: SVC[k]_CFG written (R156). -/
def execSvcCfgWrite (src : Src) (k : Fin 64) (v : Word) (s : State) : Host.Outcome State Fault Refusal :=
  runPer s fun s => s.hostStore src .SVC_CFG k v.toNat

/-- SVC_TARGET_WRITE: SVC[k]_TARGET written (R156). -/
def execSvcTargetWrite (src : Src) (k : Fin 64) (v : Word) (s : State) : Host.Outcome State Fault Refusal :=
  runPer s fun s => s.hostStore src .SVC_TARGET k v.toNat

/-- OUT_OWNER_WRITE: OUT[ch]_OWNER written (R154). -/
def execOutOwnerWrite (src : Src) (ch : Fin 96) (v : Word) (s : State) : Host.Outcome State Fault Refusal :=
  runPer s fun s => s.hostStore src .OUT_OWNER ch v.toNat

/-- COMPLETE_CAP_EXPIRY: COMPLETE_CAP ends a completing channel (R158). -/
def execCompleteCapExpiry (ch : Fin 96) (s : State) : Host.Outcome State Fault Refusal :=
  runEv s fun s => s.capExpiry ch

end Sys2Proof.Machine
end

