-- ==== Sys2Proof/Machine/Sequencers.lean ====
section
/-! DEFINITION. The meanings of the sequencers' commands: every Phiad instruction, map-memory transactions, waits that
end, stalls that end, and firings (R78 to R149). -/

namespace Sys2Proof.Machine

/-! ### ALU (R96) -/

/-- ADD: rs1 + rs2, modulo 2^32 (R96). -/
def execAdd (n : Fin 24) (s : State) : Host.Outcome State Fault Refusal :=
  runLive s fun s => s.phiad n .add fun s i => s.alu i (fun a b _ => a + b)

/-- SUB: rs1 − rs2, modulo 2^32 (R96). -/
def execSub (n : Fin 24) (s : State) : Host.Outcome State Fault Refusal :=
  runLive s fun s => s.phiad n .sub fun s i => s.alu i (fun a b _ => a + 2 ^ 32 - b)

/-- AND: rs1 AND rs2 (R96). -/
def execAnd (n : Fin 24) (s : State) : Host.Outcome State Fault Refusal :=
  runLive s fun s => s.phiad n .and' fun s i => s.alu i (fun a b _ => a &&& b)

/-- OR: rs1 OR rs2 (R96). -/
def execOr (n : Fin 24) (s : State) : Host.Outcome State Fault Refusal :=
  runLive s fun s => s.phiad n .or' fun s i => s.alu i (fun a b _ => a ||| b)

/-- XOR: rs1 XOR rs2 (R96). -/
def execXor (n : Fin 24) (s : State) : Host.Outcome State Fault Refusal :=
  runLive s fun s => s.phiad n .xor' fun s i => s.alu i (fun a b _ => a ^^^ b)

/-- SLL: rs1 shifted left by rs2[4:0] (R96). -/
def execSll (n : Fin 24) (s : State) : Host.Outcome State Fault Refusal :=
  runLive s fun s => s.phiad n .sll fun s i => s.alu i (fun a b _ => a * 2 ^ (b % 32))

/-- SRL: rs1 shifted right logically by rs2[4:0] (R96). -/
def execSrl (n : Fin 24) (s : State) : Host.Outcome State Fault Refusal :=
  runLive s fun s => s.phiad n .srl fun s i => s.alu i (fun a b _ => a / 2 ^ (b % 32))

/-- SRA: rs1 shifted right arithmetically by rs2[4:0] (R96). -/
def execSra (n : Fin 24) (s : State) : Host.Outcome State Fault Refusal :=
  runLive s fun s => s.phiad n .sra fun s i => s.alu i (fun a b _ => wrapI 32 (sgn a / 2 ^ (b % 32)))

/-- SLT: 1 if rs1 < rs2 signed (R96). -/
def execSlt (n : Fin 24) (s : State) : Host.Outcome State Fault Refusal :=
  runLive s fun s => s.phiad n .slt fun s i => s.alu i (fun a b _ => truth (decide (sgn a < sgn b)))

/-- SLTU: 1 if rs1 < rs2 unsigned (R96). -/
def execSltu (n : Fin 24) (s : State) : Host.Outcome State Fault Refusal :=
  runLive s fun s => s.phiad n .sltu fun s i => s.alu i (fun a b _ => truth (decide (a < b)))

/-- MIN: the smaller, signed (R96). -/
def execMin (n : Fin 24) (s : State) : Host.Outcome State Fault Refusal :=
  runLive s fun s => s.phiad n .min' fun s i => s.alu i (fun a b _ => if sgn a < sgn b then a else b)

/-- MAX: the larger, signed (R96). -/
def execMax (n : Fin 24) (s : State) : Host.Outcome State Fault Refusal :=
  runLive s fun s => s.phiad n .max' fun s i => s.alu i (fun a b _ => if sgn a < sgn b then b else a)

/-- MINU: the smaller, unsigned (R96). -/
def execMinu (n : Fin 24) (s : State) : Host.Outcome State Fault Refusal :=
  runLive s fun s => s.phiad n .minu fun s i => s.alu i (fun a b _ => min a b)

/-- MAXU: the larger, unsigned (R96). -/
def execMaxu (n : Fin 24) (s : State) : Host.Outcome State Fault Refusal :=
  runLive s fun s => s.phiad n .maxu fun s i => s.alu i (fun a b _ => max a b)

/-- CLAMP: min(max(rd, rs1), rs2), signed (R96). -/
def execClamp (n : Fin 24) (s : State) : Host.Outcome State Fault Refusal :=
  runLive s fun s => s.phiad n .clamp fun s i => s.alu i (fun a b x => wrapI 32 (min (max (sgn x) (sgn a)) (sgn b)))

/-- CLAMPU: as CLAMP, unsigned (R96). -/
def execClampu (n : Fin 24) (s : State) : Host.Outcome State Fault Refusal :=
  runLive s fun s => s.phiad n .clampu fun s i => s.alu i (fun a b x => min (max x a) b)

/-- PACK: rs2[15:0] above rs1[15:0] (R96). -/
def execPack (n : Fin 24) (s : State) : Host.Outcome State Fault Refusal :=
  runLive s fun s => s.phiad n .pack fun s i => s.alu i (fun a b _ => b % 65536 * 65536 + a % 65536)

/-! ### Immediates (R97) -/

/-- ADDI: rs1 plus the sign-extended IMM18 (R97). -/
def execAddi (n : Fin 24) (s : State) : Host.Outcome State Fault Refusal :=
  runLive s fun s => s.phiad n .addi fun s i => s.aluImm i (fun a m => wrapI 32 ((a : Int) + sextN 18 m))

/-- ANDI: rs1 AND the zero-extended IMM18 (R97). -/
def execAndi (n : Fin 24) (s : State) : Host.Outcome State Fault Refusal :=
  runLive s fun s => s.phiad n .andi fun s i => s.aluImm i (fun a m => a &&& m)

/-- ORI: rs1 OR IMM18 (R97). -/
def execOri (n : Fin 24) (s : State) : Host.Outcome State Fault Refusal :=
  runLive s fun s => s.phiad n .ori fun s i => s.aluImm i (fun a m => a ||| m)

/-- XORI: rs1 XOR IMM18 (R97). -/
def execXori (n : Fin 24) (s : State) : Host.Outcome State Fault Refusal :=
  runLive s fun s => s.phiad n .xori fun s i => s.aluImm i (fun a m => a ^^^ m)

/-- SLLI: rs1 shifted left by IMM18[4:0] (R97). -/
def execSlli (n : Fin 24) (s : State) : Host.Outcome State Fault Refusal :=
  runLive s fun s => s.phiad n .slli fun s i => s.aluImm i (fun a m => a * 2 ^ (m % 32))

/-- SRLI: rs1 shifted right logically by IMM18[4:0] (R97). -/
def execSrli (n : Fin 24) (s : State) : Host.Outcome State Fault Refusal :=
  runLive s fun s => s.phiad n .srli fun s i => s.aluImm i (fun a m => a / 2 ^ (m % 32))

/-- SRAI: rs1 shifted right arithmetically by IMM18[4:0] (R97). -/
def execSrai (n : Fin 24) (s : State) : Host.Outcome State Fault Refusal :=
  runLive s fun s => s.phiad n .srai fun s i => s.aluImm i (fun a m => wrapI 32 (sgn a / 2 ^ (m % 32)))

/-- RORI: rs1 rotated right by IMM18[4:0] (R97). -/
def execRori (n : Fin 24) (s : State) : Host.Outcome State Fault Refusal :=
  runLive s fun s => s.phiad n .rori fun s i => s.aluImm i (fun a m => rotr a (m % 32))

/-- LUI: IMM22 shifted left by 10 (R97). -/
def execLui (n : Fin 24) (s : State) : Host.Outcome State Fault Refusal :=
  runLive s fun s => s.phiad n .lui fun s i => s.result i (phA i.word) (phImm22 i.word * 1024) 1

/-! ### Multiply and divide (R98) -/

/-- MULU: the unsigned 64-bit product over RD and RD + 1 (R98). -/
def execMulu (n : Fin 24) (s : State) : Host.Outcome State Fault Refusal :=
  runLive s fun s => s.phiad n .mulu fun s i => s.wide i (s.rs1 i * s.rs2 i)

/-- MULS: the signed 64-bit product over RD and RD + 1 (R98). -/
def execMuls (n : Fin 24) (s : State) : Host.Outcome State Fault Refusal :=
  runLive s fun s => s.phiad n .muls fun s i => s.wide i (wrapI 64 (s.sprod i))

/-- MUL: the low 32 bits of the product (R98). -/
def execMul (n : Fin 24) (s : State) : Host.Outcome State Fault Refusal :=
  runLive s fun s => s.phiad n .mul fun s i => s.result i (phA i.word) (s.rs1 i * s.rs2 i) 3

/-- MULQ: the signed product shifted right by 16, saturated (R98). -/
def execMulq (n : Fin 24) (s : State) : Host.Outcome State Fault Refusal :=
  runLive s fun s => s.phiad n .mulq fun s i => s.result i (phA i.word) (wrapI 32 (satI (-(2 ^ 31)) (2 ^ 31 - 1) (s.sprod i / 65536))) 3

/-- DIVU: rs1 / rs2 unsigned; 0xFFFF_FFFF over 0 (R98). -/
def execDivu (n : Fin 24) (s : State) : Host.Outcome State Fault Refusal :=
  runLive s fun s => s.phiad n .divu fun s i => s.divide i (fun a b => a / b) (2 ^ 32 - 1)

/-- DIVS: rs1 / rs2 signed, truncated; −1 over 0 (R98). -/
def execDivs (n : Fin 24) (s : State) : Host.Outcome State Fault Refusal :=
  runLive s fun s => s.phiad n .divs fun s i => s.divide i (fun a b => wrapI 32 ((sgn a).tdiv (sgn b))) (2 ^ 32 - 1)

/-- REMU: the remainder of DIVU; rs1 over 0 (R98). -/
def execRemu (n : Fin 24) (s : State) : Host.Outcome State Fault Refusal :=
  runLive s fun s => s.phiad n .remu fun s i => s.divide i (fun a b => a % b) (s.rs1 i)

/-- REMS: the remainder of DIVS, with the sign of rs1; rs1 over 0 (R98). -/
def execRems (n : Fin 24) (s : State) : Host.Outcome State Fault Refusal :=
  runLive s fun s => s.phiad n .rems fun s i => s.divide i (fun a b => wrapI 32 ((sgn a).tmod (sgn b))) (s.rs1 i)

/-! ### Loads, stores and map memory (R86 to R91, R99 to R102) -/

/-- LW: a word of the data memory (R99). -/
def execLw (n : Fin 24) (s : State) : Host.Outcome State Fault Refusal :=
  runLive s fun s => s.phiad n .lw fun s i => s.loadWord i

/-- SW: a word stored in the data memory (R99). -/
def execSw (n : Fin 24) (s : State) : Host.Outcome State Fault Refusal :=
  runLive s fun s => s.phiad n .sw fun s i => s.storeWord i

/-- LMU: posts the read of a zero-extended half-word (R90, R99). -/
def execLmu (n : Fin 24) (s : State) : Host.Outcome State Fault Refusal :=
  runLive s fun s => s.phiad n .lmu fun s i => s.loadMap i .lmu 2

/-- LMS: posts the read of a sign-extended half-word (R90, R99). -/
def execLms (n : Fin 24) (s : State) : Host.Outcome State Fault Refusal :=
  runLive s fun s => s.phiad n .lms fun s i => s.loadMap i .lms 2

/-- LMW: posts the read of a word (R90, R99). -/
def execLmw (n : Fin 24) (s : State) : Host.Outcome State Fault Refusal :=
  runLive s fun s => s.phiad n .lmw fun s i => s.loadMap i .lmw 4

/-- MAP2: posts a bilinear lookup (R90, R102). -/
def execMap2 (n : Fin 24) (s : State) : Host.Outcome State Fault Refusal :=
  runLive s fun s => s.phiad n .map2 fun s i => s.issueMap2 i

/-- MAPM_TRANSACTION: the posted transaction of sequencer `n` takes its turn (R90, R91). -/
def execMapmTransaction (n : Fin 24) (ecc : Ecc) (s : State) : Host.Outcome State Fault Refusal :=
  runSeq s fun s => s.mapTransaction n ecc

/-! ### Conversions and special registers (R80, R81, R103) -/

/-- A2T: an angle distance as a time (R103). -/
def execA2t (n : Fin 24) (s : State) : Host.Outcome State Fault Refusal :=
  runLive s fun s => s.phiad n .a2t fun s i => s.a2t i

/-- T2A: a time as an angle distance (R103). -/
def execT2a (n : Fin 24) (s : State) : Host.Outcome State Fault Refusal :=
  runLive s fun s => s.phiad n .t2a fun s i => s.t2a i

/-- RDS: a special register sampled as it issues (R80, R81). -/
def execRds (n : Fin 24) (s : State) : Host.Outcome State Fault Refusal :=
  runLive s fun s => s.phiad n .rds fun s i => s.result i (phA i.word) (s.special (s.seqDomain i.n) (phImm i.word) (2 * i.c)) 1

/-! ### Branches and jumps (R100) -/

/-- BEQ: taken when rs1 = rs2 (R100). -/
def execBeq (n : Fin 24) (s : State) : Host.Outcome State Fault Refusal :=
  runLive s fun s => s.phiad n .beq fun s i => s.branch i (fun a b => a == b)

/-- BNE: taken when rs1 ≠ rs2 (R100). -/
def execBne (n : Fin 24) (s : State) : Host.Outcome State Fault Refusal :=
  runLive s fun s => s.phiad n .bne fun s i => s.branch i (fun a b => a != b)

/-- BLT: taken when rs1 < rs2, signed (R100). -/
def execBlt (n : Fin 24) (s : State) : Host.Outcome State Fault Refusal :=
  runLive s fun s => s.phiad n .blt fun s i => s.branch i (fun a b => decide (sgn a < sgn b))

/-- BGE: taken when rs1 ≥ rs2, signed (R100). -/
def execBge (n : Fin 24) (s : State) : Host.Outcome State Fault Refusal :=
  runLive s fun s => s.phiad n .bge fun s i => s.branch i (fun a b => decide (sgn b ≤ sgn a))

/-- BLTU: taken when rs1 < rs2, unsigned (R100). -/
def execBltu (n : Fin 24) (s : State) : Host.Outcome State Fault Refusal :=
  runLive s fun s => s.phiad n .bltu fun s i => s.branch i (fun a b => decide (a < b))

/-- BGEU: taken when rs1 ≥ rs2, unsigned (R100). -/
def execBgeu (n : Fin 24) (s : State) : Host.Outcome State Fault Refusal :=
  runLive s fun s => s.phiad n .bgeu fun s i => s.branch i (fun a b => decide (b ≤ a))

/-- BMLT: taken when rs1 − rs2 is negative, modulo 2^32 (R100). -/
def execBmlt (n : Fin 24) (s : State) : Host.Outcome State Fault Refusal :=
  runLive s fun s => s.phiad n .bmlt fun s i => s.branch i modLess

/-- BMGE: taken when rs1 − rs2 is not negative, modulo 2^32 (R100). -/
def execBmge (n : Fin 24) (s : State) : Host.Outcome State Fault Refusal :=
  runLive s fun s => s.phiad n .bmge fun s i => s.branch i (fun a b => !modLess a b)

/-- JAL: PC + 1 to RD, and PC to PC + OFF22 (R100). -/
def execJal (n : Fin 24) (s : State) : Host.Outcome State Fault Refusal :=
  runLive s fun s => s.phiad n .jal fun s i => (s.result i (phA i.word) ((i.pc + 1) % 2048) 1).jumpTo i ((i.pc : Int) + sextN 22 (phImm22 i.word))

/-- JALR: PC + 1 to RD, and PC to rs1 + IMM18 (R100). -/
def execJalr (n : Fin 24) (s : State) : Host.Outcome State Fault Refusal :=
  runLive s fun s => s.phiad n .jalr fun s i => (s.result i (phA i.word) ((i.pc + 1) % 2048) 1).jumpTo i (s.effAddr i)

/-! ### Slots (R109 to R121) -/

/-- ARM: a slot on an angle (R113). -/
def execArm (n : Fin 24) (s : State) : Host.Outcome State Fault Refusal :=
  runLive s fun s => s.phiad n .arm fun s i => s.slotBody .arm i

/-- ARMT: a slot on a time (R113). -/
def execArmt (n : Fin 24) (s : State) : Host.Outcome State Fault Refusal :=
  runLive s fun s => s.phiad n .armt fun s i => s.slotBody .armt i

/-- PULSE: a pulse from an angle, for a duration, up to a limit angle (R115 to R118). -/
def execPulse (n : Fin 24) (s : State) : Host.Outcome State Fault Refusal :=
  runLive s fun s => s.phiad n .pulse fun s i => s.slotBody .pulse i

/-- CANCEL of the slot whose handle is in rs1 (R104, R119). -/
def execCancelHandle (n : Fin 24) (s : State) : Host.Outcome State Fault Refusal :=
  runLive s fun s => s.phiad n .cancelHandle fun s i => s.cancelBody i fun t _ k => t.handle i.n k == s.rs1 i

/-- CANCEL of every armed slot of a channel (R104, R119). -/
def execCancelChannel (n : Fin 24) (s : State) : Host.Outcome State Fault Refusal :=
  runLive s fun s => s.phiad n .cancelChannel fun s i => s.cancelBody i fun _ x _ => x.kind.onChannel && x.arg == phCh i.word

/-- CANCEL of every armed slot of the sequencer (R104, R119). -/
def execCancelAll (n : Fin 24) (s : State) : Host.Outcome State Fault Refusal :=
  runLive s fun s => s.phiad n .cancelAll fun s i => s.cancelBody i fun _ _ _ => true

/-! ### Waits and tasks (R122 to R132) -/

/-- WAITA: waits for an angle (R124). -/
def execWaita (n : Fin 24) (s : State) : Host.Outcome State Fault Refusal :=
  runLive s fun s => s.phiad n .waita fun s i => s.slotBody .waita i

/-- WAITT: waits for a time (R124). -/
def execWaitt (n : Fin 24) (s : State) : Host.Outcome State Fault Refusal :=
  runLive s fun s => s.phiad n .waitt fun s i => s.slotBody .waitt i

/-- WAITE TOOTH: ends the task, and waits for a tooth event or takes the pending one (R125, R128, R130). -/
def execWaiteTooth (n : Fin 24) (s : State) : Host.Outcome State Fault Refusal :=
  runLive s fun s => s.phiad n .waiteTooth fun s i => s.waiteToothBody i

/-- WAITE on an ICU line (R126). -/
def execWaiteIcu (n : Fin 24) (s : State) : Host.Outcome State Fault Refusal :=
  runLive s fun s => s.phiad n .waiteIcu fun s i => s.waiteIcuBody i

/-- WAITE FENCE (R127). -/
def execWaiteFence (n : Fin 24) (s : State) : Host.Outcome State Fault Refusal :=
  runLive s fun s => s.phiad n .waiteFence fun s i => s.waiteFenceBody i

/-- WAITE EPOCH: waits for the next mode change that the sequencer applies (R127). -/
def execWaiteEpoch (n : Fin 24) (s : State) : Host.Outcome State Fault Refusal :=
  runLive s fun s => s.phiad n .waiteEpoch fun s i => s.enterWaite i.n (.epoch (phA i.word))

/-- WAITE FLAG (R127). -/
def execWaiteFlag (n : Fin 24) (s : State) : Host.Outcome State Fault Refusal :=
  runLive s fun s => s.phiad n .waiteFlag fun s i => s.waiteFlagBody i

/-- TASK_START: the tooth event that ended a WAITE TOOTH starts the next instruction (R123, R128). -/
def execTaskStart (n : Fin 24) (s : State) : Host.Outcome State Fault Refusal :=
  runSeq s fun s => s.taskStart n

/-- WAITE_WAKE: the condition of a wait on a line, a fence or flags is true (R123). -/
def execWaiteWake (n : Fin 24) (s : State) : Host.Outcome State Fault Refusal :=
  runSeq s fun s => s.waiteWake n

/-- SAFEPT: applies the accepted mode change (R135), and meets a pending swap (R140). -/
def execSafept (n : Fin 24) (s : State) : Host.Outcome State Fault Refusal :=
  runLive s fun s => s.phiad n .safept fun s i => s.safeptBody i

/-- FENCE: the token of source 32 + n (R104, R136). -/
def execFence (n : Fin 24) (s : State) : Host.Outcome State Fault Refusal :=
  runLive s fun s => s.phiad n .fence fun s i => s.fenceToken (32 + i.n) ((s.rs1 i + phImm i.word) % 65536)

/-- BUDGET: the allowance of the tasks (R104, R129). -/
def execBudget (n : Fin 24) (s : State) : Host.Outcome State Fault Refusal :=
  runLive s fun s => s.phiad n .budget fun s i => s.budgetBody i

/-- YIELD: ends the task without waiting (R132). -/
def execYield (n : Fin 24) (s : State) : Host.Outcome State Fault Refusal :=
  runLive s fun s => s.phiad n .yield fun s i => s.yieldBody i

/-- HALT (R137). -/
def execHalt (n : Fin 24) (s : State) : Host.Outcome State Fault Refusal :=
  runLive s fun s => s.phiad n .halt fun s i => s.stopSeq i.n .halted

/-- HANDOVER of a channel (R138). -/
def execHandover (n : Fin 24) (s : State) : Host.Outcome State Fault Refusal :=
  runLive s fun s => s.phiad n .handover fun s i => s.handoverBody i

/-- HANDOVER_TRANSFER: a stalled HANDOVER goes on (R138). -/
def execHandoverTransfer (n : Fin 24) (s : State) : Host.Outcome State Fault Refusal :=
  runSeq s fun s => s.handoverDone n

/-- SLOT_STALL_RESUME: slots have become free for a stalled instruction (R133). -/
def execSlotStallResume (n : Fin 24) (s : State) : Host.Outcome State Fault Refusal :=
  runSeq s fun s => s.slotResume n

/-- BUDGET_EXPIRY: the budget clock reaches the allowance (R129). -/
def execBudgetExpiry (n : Fin 24) (s : State) : Host.Outcome State Fault Refusal :=
  runSeq s fun s => s.budgetExpiry n

/-! ### Faults of the fetch, and firings (R85, R93, R146, R156) -/

/-- PROG_ECC: an error in the fetched word, of two bits or of one (R85). -/
def execProgEcc (e : ProgError) (s : State) : Host.Outcome State Fault Refusal :=
  runLive s fun s => s.progEccStep e.n e.double

/-- ILLEGAL: the fetched word is no instruction (R93). -/
def execIllegal (n : Fin 24) (s : State) : Host.Outcome State Fault Refusal :=
  runLive s fun s => s.illegalStep n

/-- SLOT_FIRE: slot `k` of sequencer `n` fires on the word evaluated now, if it is reached (R143, R146). -/
def execSlotFire (n : Fin 24) (k : Fin 64) (s : State) : Host.Outcome State Fault Refusal :=
  runEv s fun s => s.slotFire n k

/-- SVC_FIRE: service slot `k` fires on the word evaluated now, if it is reached (R143, R156). -/
def execSvcFire (k : Fin 64) (s : State) : Host.Outcome State Fault Refusal :=
  runEv s fun s => s.svcFireNow k

end Sys2Proof.Machine
end

