-- ==== Sys2Proof/Machine/Supply.lean ====
section
/-! DEFINITION. The meanings of the commands of power, clocks, reset and the wellspring (R392 to R413). -/

namespace Sys2Proof.Machine

/-! ### Resets (R393, R411) -/

/-- POWER_ON_RESET: power-on reset releases, with the slot address straps (R393, R446). -/
def execPowerOnReset (straps : Fin 8) (s : State) : Host.Outcome State Fault Refusal :=
  run s fun s => s.powerOn straps

/-- POWER_ON_RESET_ASSERT: VIN falls below the threshold (R393). -/
def execPowerOnResetAssert (s : State) : Host.Outcome State Fault Refusal :=
  run s fun s => s.porAssert

/-- DEBUG_HALT: a debug halt is requested (R161, R260). -/
def execDebugHalt (s : State) : Host.Outcome State Fault Refusal :=
  runLive s fun s => s.debugHalt

/-- TEST_LOGIC_RESET: a test-logic reset (R411). -/
def execTestLogicReset (s : State) : Host.Outcome State Fault Refusal :=
  runLive s fun s => s.testReset

/-! ### Sensor supplies (R396, R397) -/

/-- SUP_OVERLOAD: a supply is asked for more than its limit (R397). -/
def execSupOverload (n : Fin 4) (s : State) : Host.Outcome State Fault Refusal :=
  runLive s fun s => s.supOverload n

/-- SUP_OFF: the overload has lasted 1 ms (R397). -/
def execSupOff (n : Fin 4) (s : State) : Host.Outcome State Fault Refusal :=
  runLive s fun s => s.supTrip n

/-- SUP_RETRY: 10 ms after it switched off (R397). -/
def execSupRetry (n : Fin 4) (s : State) : Host.Outcome State Fault Refusal :=
  runLive s fun s => s.supRetry n

/-- OVERLOAD_END: the overload ends (R397). -/
def execOverloadEnd (n : Fin 4) (s : State) : Host.Outcome State Fault Refusal :=
  runLive s fun s => s.supEnd n

/-! ### Clocks (R399, R403, R404) -/

/-- CLOCK_FAIL: the monitor finds a clock failure (R403). -/
def execClockFail (code : FailCode) (s : State) : Host.Outcome State Fault Refusal :=
  runLive s fun s => s.clockFail code

/-- CLOCK_RECOVERY: every clock has passed the monitor for 1 ms (R404). -/
def execClockRecovery (s : State) : Host.Outcome State Fault Refusal :=
  runLive s fun s => s.clockRecover

/-- OSCILLATOR_WINDOW_LEAVE: the wellspring oscillator leaves its window (R399). -/
def execOscillatorWindowLeave (s : State) : Host.Outcome State Fault Refusal :=
  run s fun s => s.oscLeave

/-! ### Dormant (R407 to R410) -/

/-- DORMANT_ENTRY_DONE: the entry is complete (R407). -/
def execDormantEntryDone (s : State) : Host.Outcome State Fault Refusal :=
  runLive s fun s => s.dormantDone

/-- WAKE_WHEEL: a wake comparator of input `w` (R408). -/
def execWakeWheel (w : Fin 8) (s : State) : Host.Outcome State Fault Refusal :=
  run s fun s => s.wakeWheel w

/-- WAKE_PIN: WAKE# is low (R408). -/
def execWakePin (s : State) : Host.Outcome State Fault Refusal :=
  run s fun s => s.wakePin

/-- WAKE_TIMER: the wake timer (R408). -/
def execWakeTimer (s : State) : Host.Outcome State Fault Refusal :=
  run s fun s => s.wakeTimer

/-- WAKE_RELEASE: the fast clocks are released (R409). -/
def execWakeRelease (s : State) : Host.Outcome State Fault Refusal :=
  run s fun s => s.wakeRelease

/-- FIRST_EDGE_CATCH: the first-edge catcher keeps an edge (R410). -/
def execFirstEdgeCatch (w : Fin 8) (stamp : Nat) (rising : Bool) (s : State) : Host.Outcome State Fault Refusal :=
  run s fun s => s.firstCatch w stamp rising

end Sys2Proof.Machine
end

