-- ==== Sys2Proof/Machine/Wheels.lean ====
section
/-! DEFINITION. The meanings of the commands of the wheels, the decoders, the angle and the tooth-correction learner
(R3, R20 to R77). -/

namespace Sys2Proof.Machine

/-! ### Crossings and edges (R20 to R27) -/

/-- WFE_CROSSING: a crossing reported by front end `w` (R20, R23, R24). -/
def execWfeCrossing (w : Fin 8) (stamp : Nat) (rising : Bool) (s : State) : Host.Outcome State Fault Refusal :=
  runEv s fun s => s.wfeCross w stamp rising

/-- PEAK_DECAY: one second without an arming (R21). -/
def execPeakDecay (w : Fin 8) (s : State) : Host.Outcome State Fault Refusal :=
  runEv s fun s => s.peakDecay w

/-- DETECTOR_ARM: the VR detector of input `w` arms (R20, R21, R25). -/
def execDetectorArm (w : Fin 8) (peak : BitVec 16) (s : State) : Host.Outcome State Fault Refusal :=
  runEv s fun s => s.detectorArm w peak.toNat

/-- EDGE_ACCEPT: the filter time of the oldest crossing of an input has passed (R25, R26). -/
def execEdgeAccept (d : Fin 4) (phase : Bool) (s : State) : Host.Outcome State Fault Refusal :=
  runEv s fun s => s.edgeAccept d phase

/-- PRIMARY_EDGE: the decoder processes the next accepted primary edge (R33 to R48). -/
def execPrimaryEdge (d : Fin 4) (s : State) : Host.Outcome State Fault Refusal :=
  runEv s fun s => s.primaryEdge d

/-- PHASE_EDGE: the decoder processes the next accepted phase edge (R37, R41, R45). -/
def execPhaseEdge (d : Fin 4) (s : State) : Host.Outcome State Fault Refusal :=
  runEv s fun s => s.phaseEdge d

/-! ### Sync and angle (R3, R40, R43, R60) -/

/-- STALL: no accepted edge for STALL_MS (R43). -/
def execStall (d : Fin 4) (s : State) : Host.Outcome State Fault Refusal :=
  runEv s fun s => s.stallEvent d

/-- DESYNC: AD[d]_CMD with DESYNC at 1 (R43). -/
def execDesync (src : Src) (d : Fin 4) (s : State) : Host.Outcome State Fault Refusal :=
  runPer s fun s => s.hostStore src .AD_CMD d 1

/-- RESEED: AD[d]_CMD with RESEED at 1 (R40). -/
def execReseed (src : Src) (d : Fin 4) (s : State) : Host.Outcome State Fault Refusal :=
  runPer s fun s => s.hostStore src .AD_CMD d 2

/-- ANGLE_CLAMP: the angle reaches the next tooth before its edge (R60). -/
def execAngleClamp (d : Fin 4) (s : State) : Host.Outcome State Fault Refusal :=
  runEv s fun s => s.clampEvent d

/-- CYCLE_BOUNDARY: the angle passes 0 AU, with all that waits for it (R3). -/
def execCycleBoundary (d : Fin 4) (s : State) : Host.Outcome State Fault Refusal :=
  runEv s fun s => s.cycleBoundary d

/-! ### The learner and the maps (R28, R30, R69 to R75) -/

/-- TCL_SWAP: AD[d]_TCL_CMD with SWAP at 1 (R73, R74). -/
def execTclSwap (src : Src) (d : Fin 4) (s : State) : Host.Outcome State Fault Refusal :=
  runPer s fun s => s.hostStore src .AD_TCL_CMD d 1

/-- TCL_RESTART: AD[d]_TCL_CMD with RESTART at 1 (R71). -/
def execTclRestart (src : Src) (d : Fin 4) (s : State) : Host.Outcome State Fault Refusal :=
  runPer s fun s => s.hostStore src .AD_TCL_CMD d 2

/-- CORRECTION_BANK_WRITE: a factor written by a host (R75). -/
def execCorrectionBankWrite (src : Src) (d : Fin 4) (b : Fin 2) (k : Fin 1024) (v : Word) (s : State) : Host.Outcome State Fault Refusal :=
  runPer s fun s => s.hostMem src (tclAddr d b k) 15 v.toNat

/-- MAP_WRITE: a word of a tooth map, a phase map or a map register written (R30). -/
def execMapWrite (src : Src) (off : Nat) (v : Word) (s : State) : Host.Outcome State Fault Refusal :=
  runPer s fun s => s.hostMem src (off) 15 v.toNat

end Sys2Proof.Machine
end

