-- ==== Sys2Proof/Machine/Dispatch.lean ====
section
/-! DEFINITION. Every command of the table and its meaning. -/

namespace Sys2Proof.Machine

def exec (i : Instr) (s : State) : Host.Outcome State Fault Refusal :=
  match i with
  | .wfeCrossing w stamp rising => Sys2Proof.Machine.execWfeCrossing w stamp rising s
  | .peakDecay w => Sys2Proof.Machine.execPeakDecay w s
  | .edgeAccept d phase => Sys2Proof.Machine.execEdgeAccept d phase s
  | .primaryEdge d => Sys2Proof.Machine.execPrimaryEdge d s
  | .phaseEdge d => Sys2Proof.Machine.execPhaseEdge d s
  | .stall d => Sys2Proof.Machine.execStall d s
  | .desync src d => Sys2Proof.Machine.execDesync src d s
  | .reseed src d => Sys2Proof.Machine.execReseed src d s
  | .angleClamp d => Sys2Proof.Machine.execAngleClamp d s
  | .cycleBoundary d => Sys2Proof.Machine.execCycleBoundary d s
  | .tclSwap src d => Sys2Proof.Machine.execTclSwap src d s
  | .tclRestart src d => Sys2Proof.Machine.execTclRestart src d s
  | .correctionBankWrite src d b k v => Sys2Proof.Machine.execCorrectionBankWrite src d b k v s
  | .mapWrite src off v => Sys2Proof.Machine.execMapWrite src off v s
  | .seqStart src n => Sys2Proof.Machine.execSeqStart src n s
  | .seqReset src n => Sys2Proof.Machine.execSeqReset src n s
  | .seqSwapReq src n => Sys2Proof.Machine.execSeqSwapReq src n s
  | .seqFlagsClear src n mask => Sys2Proof.Machine.execSeqFlagsClear src n mask s
  | .seqFlagsSet src n mask => Sys2Proof.Machine.execSeqFlagsSet src n mask s
  | .programBankWrite src n b idx v => Sys2Proof.Machine.execProgramBankWrite src n b idx v s
  | .dataMemoryWrite src n idx v => Sys2Proof.Machine.execDataMemoryWrite src n idx v s
  | .mapmWrite src a be v => Sys2Proof.Machine.execMapmWrite src a be v s
  | .progEcc e => Sys2Proof.Machine.execProgEcc e s
  | .illegal n => Sys2Proof.Machine.execIllegal n s
  | .add n => Sys2Proof.Machine.execAdd n s
  | .sub n => Sys2Proof.Machine.execSub n s
  | .and n => Sys2Proof.Machine.execAnd n s
  | .or n => Sys2Proof.Machine.execOr n s
  | .xor n => Sys2Proof.Machine.execXor n s
  | .sll n => Sys2Proof.Machine.execSll n s
  | .srl n => Sys2Proof.Machine.execSrl n s
  | .sra n => Sys2Proof.Machine.execSra n s
  | .slt n => Sys2Proof.Machine.execSlt n s
  | .sltu n => Sys2Proof.Machine.execSltu n s
  | .min n => Sys2Proof.Machine.execMin n s
  | .max n => Sys2Proof.Machine.execMax n s
  | .minu n => Sys2Proof.Machine.execMinu n s
  | .maxu n => Sys2Proof.Machine.execMaxu n s
  | .clamp n => Sys2Proof.Machine.execClamp n s
  | .clampu n => Sys2Proof.Machine.execClampu n s
  | .pack n => Sys2Proof.Machine.execPack n s
  | .addi n => Sys2Proof.Machine.execAddi n s
  | .andi n => Sys2Proof.Machine.execAndi n s
  | .ori n => Sys2Proof.Machine.execOri n s
  | .xori n => Sys2Proof.Machine.execXori n s
  | .slli n => Sys2Proof.Machine.execSlli n s
  | .srli n => Sys2Proof.Machine.execSrli n s
  | .srai n => Sys2Proof.Machine.execSrai n s
  | .rori n => Sys2Proof.Machine.execRori n s
  | .lui n => Sys2Proof.Machine.execLui n s
  | .mulu n => Sys2Proof.Machine.execMulu n s
  | .muls n => Sys2Proof.Machine.execMuls n s
  | .mul n => Sys2Proof.Machine.execMul n s
  | .mulq n => Sys2Proof.Machine.execMulq n s
  | .divu n => Sys2Proof.Machine.execDivu n s
  | .divs n => Sys2Proof.Machine.execDivs n s
  | .remu n => Sys2Proof.Machine.execRemu n s
  | .rems n => Sys2Proof.Machine.execRems n s
  | .lw n => Sys2Proof.Machine.execLw n s
  | .sw n => Sys2Proof.Machine.execSw n s
  | .lmu n => Sys2Proof.Machine.execLmu n s
  | .lms n => Sys2Proof.Machine.execLms n s
  | .lmw n => Sys2Proof.Machine.execLmw n s
  | .map2 n => Sys2Proof.Machine.execMap2 n s
  | .mapmTransaction n ecc => Sys2Proof.Machine.execMapmTransaction n ecc s
  | .a2t n => Sys2Proof.Machine.execA2t n s
  | .t2a n => Sys2Proof.Machine.execT2a n s
  | .rds n => Sys2Proof.Machine.execRds n s
  | .beq n => Sys2Proof.Machine.execBeq n s
  | .bne n => Sys2Proof.Machine.execBne n s
  | .blt n => Sys2Proof.Machine.execBlt n s
  | .bge n => Sys2Proof.Machine.execBge n s
  | .bltu n => Sys2Proof.Machine.execBltu n s
  | .bgeu n => Sys2Proof.Machine.execBgeu n s
  | .bmlt n => Sys2Proof.Machine.execBmlt n s
  | .bmge n => Sys2Proof.Machine.execBmge n s
  | .jal n => Sys2Proof.Machine.execJal n s
  | .jalr n => Sys2Proof.Machine.execJalr n s
  | .arm n => Sys2Proof.Machine.execArm n s
  | .armt n => Sys2Proof.Machine.execArmt n s
  | .pulse n => Sys2Proof.Machine.execPulse n s
  | .cancelHandle n => Sys2Proof.Machine.execCancelHandle n s
  | .cancelChannel n => Sys2Proof.Machine.execCancelChannel n s
  | .cancelAll n => Sys2Proof.Machine.execCancelAll n s
  | .waita n => Sys2Proof.Machine.execWaita n s
  | .waitt n => Sys2Proof.Machine.execWaitt n s
  | .waiteTooth n => Sys2Proof.Machine.execWaiteTooth n s
  | .waiteIcu n => Sys2Proof.Machine.execWaiteIcu n s
  | .waiteFence n => Sys2Proof.Machine.execWaiteFence n s
  | .waiteEpoch n => Sys2Proof.Machine.execWaiteEpoch n s
  | .waiteFlag n => Sys2Proof.Machine.execWaiteFlag n s
  | .taskStart n => Sys2Proof.Machine.execTaskStart n s
  | .waiteWake n => Sys2Proof.Machine.execWaiteWake n s
  | .safept n => Sys2Proof.Machine.execSafept n s
  | .fence n => Sys2Proof.Machine.execFence n s
  | .budget n => Sys2Proof.Machine.execBudget n s
  | .yield n => Sys2Proof.Machine.execYield n s
  | .halt n => Sys2Proof.Machine.execHalt n s
  | .handover n => Sys2Proof.Machine.execHandover n s
  | .handoverTransfer n => Sys2Proof.Machine.execHandoverTransfer n s
  | .slotStallResume n => Sys2Proof.Machine.execSlotStallResume n s
  | .budgetExpiry n => Sys2Proof.Machine.execBudgetExpiry n s
  | .slotFire n k => Sys2Proof.Machine.execSlotFire n k s
  | .svcFire k => Sys2Proof.Machine.execSvcFire k s
  | .svcCfgWrite src k v => Sys2Proof.Machine.execSvcCfgWrite src k v s
  | .svcTargetWrite src k v => Sys2Proof.Machine.execSvcTargetWrite src k v s
  | .outOwnerWrite src ch v => Sys2Proof.Machine.execOutOwnerWrite src ch v s
  | .completeCapExpiry ch => Sys2Proof.Machine.execCompleteCapExpiry ch s
  | .modeReqDormant src => Sys2Proof.Machine.execModeReqDormant src s
  | .modeReqStandby src => Sys2Proof.Machine.execModeReqStandby src s
  | .modeReqSeek src => Sys2Proof.Machine.execModeReqSeek src s
  | .modeReqRun src imm d => Sys2Proof.Machine.execModeReqRun src imm d s
  | .modeReqClearing src => Sys2Proof.Machine.execModeReqClearing src s
  | .autoRun => Sys2Proof.Machine.execAutoRun s
  | .autoLimp => Sys2Proof.Machine.execAutoLimp s
  | .autoLimpToRun => Sys2Proof.Machine.execAutoLimpToRun s
  | .modeEpoch => Sys2Proof.Machine.execModeEpoch s
  | .modeTimeout => Sys2Proof.Machine.execModeTimeout s
  | .adcConversion k code instant => Sys2Proof.Machine.execAdcConversion k code instant s
  | .adcCfgWrite src k v => Sys2Proof.Machine.execAdcCfgWrite src k v s
  | .adcCommit src k => Sys2Proof.Machine.execAdcCommit src k s
  | .adcCal src k => Sys2Proof.Machine.execAdcCal src k s
  | .adcFltReset src k => Sys2Proof.Machine.execAdcFltReset src k s
  | .adcCalDone p skew => Sys2Proof.Machine.execAdcCalDone p skew s
  | .ainCfgWrite src a v => Sys2Proof.Machine.execAinCfgWrite src a v s
  | .basCfgWrite src k v => Sys2Proof.Machine.execBasCfgWrite src k v s
  | .basOpen src k => Sys2Proof.Machine.execBasOpen src k s
  | .basClose src k => Sys2Proof.Machine.execBasClose src k s
  | .basCloseOpen src k => Sys2Proof.Machine.execBasCloseOpen src k s
  | .basinLatch k => Sys2Proof.Machine.execBasinLatch k s
  | .basValueRead src k => Sys2Proof.Machine.execBasValueRead src k s
  | .basTagRead src k => Sys2Proof.Machine.execBasTagRead src k s
  | .readInProgressTimeout src k => Sys2Proof.Machine.execReadInProgressTimeout src k s
  | .trkMaxRead src k => Sys2Proof.Machine.execTrkMaxRead src k s
  | .feedDataRead src f high => Sys2Proof.Machine.execFeedDataRead src f high s
  | .wtSwap src d => Sys2Proof.Machine.execWtSwap src d s
  | .weightWrite src d b idx v => Sys2Proof.Machine.execWeightWrite src d b idx v s
  | .settlingEnd d => Sys2Proof.Machine.execSettlingEnd d s
  | .cmpCrossing k raw => Sys2Proof.Machine.execCmpCrossing k raw s
  | .cmpFilterPass k => Sys2Proof.Machine.execCmpFilterPass k s
  | .cmpDacWrite src k v => Sys2Proof.Machine.execCmpDacWrite src k v s
  | .cmpHoldEnd k => Sys2Proof.Machine.execCmpHoldEnd k s
  | .pwmCtrlWrite src g v => Sys2Proof.Machine.execPwmCtrlWrite src g v s
  | .pwmBoundary g => Sys2Proof.Machine.execPwmBoundary g s
  | .pwmMidLoad g => Sys2Proof.Machine.execPwmMidLoad g s
  | .pwmCompare g => Sys2Proof.Machine.execPwmCompare g s
  | .deadtimeExpiry g b => Sys2Proof.Machine.execDeadtimeExpiry g b s
  | .pwmMarker g second => Sys2Proof.Machine.execPwmMarker g second s
  | .tripFilterPass t => Sys2Proof.Machine.execTripFilterPass t s
  | .tripSw src g => Sys2Proof.Machine.execTripSw src g s
  | .tripClr src g => Sys2Proof.Machine.execTripClr src g s
  | .pwmForceWrite src g v => Sys2Proof.Machine.execPwmForceWrite src g v s
  | .pwmOutcfgWrite src g v => Sys2Proof.Machine.execPwmOutcfgWrite src g v s
  | .auxOvercurrent a => Sys2Proof.Machine.execAuxOvercurrent a s
  | .pwmSyncRestart src mask => Sys2Proof.Machine.execPwmSyncRestart src mask s
  | .ioeCtrlWrite src e v => Sys2Proof.Machine.execIoeCtrlWrite src e v s
  | .ioeReset src e => Sys2Proof.Machine.execIoeReset src e s
  | .ioeInject src e v => Sys2Proof.Machine.execIoeInject src e v s
  | .ioeGroupStart src grp => Sys2Proof.Machine.execIoeGroupStart src grp s
  | .ioeGroupRephase src grp => Sys2Proof.Machine.execIoeGroupRephase src grp s
  | .ioeQoutRead src e => Sys2Proof.Machine.execIoeQoutRead src e s
  | .ioeQinWrite src e v => Sys2Proof.Machine.execIoeQinWrite src e v s
  | .ioeFlagsClear src e mask => Sys2Proof.Machine.execIoeFlagsClear src e mask s
  | .ioeFlagsSet src e mask => Sys2Proof.Machine.execIoeFlagsSet src e mask s
  | .gioCfgWrite src p v => Sys2Proof.Machine.execGioCfgWrite src p v s
  | .imemWrite src e idx v => Sys2Proof.Machine.execImemWrite src e idx v s
  | .gioEdge p level stamp => Sys2Proof.Machine.execGioEdge p level stamp s
  | .ioeStepWake e => Sys2Proof.Machine.execIoeStepWake e s
  | .ioeTimedAction e => Sys2Proof.Machine.execIoeTimedAction e s
  | .ioeJmp e => Sys2Proof.Machine.execIoeJmp e s
  | .ioeWaitp e => Sys2Proof.Machine.execIoeWaitp e s
  | .ioeWaitf e => Sys2Proof.Machine.execIoeWaitf e s
  | .ioeWaiti e => Sys2Proof.Machine.execIoeWaiti e s
  | .ioeWaitt e => Sys2Proof.Machine.execIoeWaitt e s
  | .ioePin e => Sys2Proof.Machine.execIoePin e s
  | .ioeShin e => Sys2Proof.Machine.execIoeShin e s
  | .ioeShout e => Sys2Proof.Machine.execIoeShout e s
  | .ioeMov e => Sys2Proof.Machine.execIoeMov e s
  | .ioeAdd e => Sys2Proof.Machine.execIoeAdd e s
  | .ioeSub e => Sys2Proof.Machine.execIoeSub e s
  | .meas e => Sys2Proof.Machine.execMeas e s
  | .setu e => Sys2Proof.Machine.execSetu e s
  | .crc e => Sys2Proof.Machine.execCrc e s
  | .push e => Sys2Proof.Machine.execPush e s
  | .pull e => Sys2Proof.Machine.execPull e s
  | .post e => Sys2Proof.Machine.execPost e s
  | .setf e => Sys2Proof.Machine.execSetf e s
  | .ioeIrq e => Sys2Proof.Machine.execIoeIrq e s
  | .ioeHalt e => Sys2Proof.Machine.execIoeHalt e s
  | .ioeIllegal e => Sys2Proof.Machine.execIoeIllegal e s
  | .icuTgtWrite src k v => Sys2Proof.Machine.execIcuTgtWrite src k v s
  | .icuEoi f vec => Sys2Proof.Machine.execIcuEoi f vec s
  | .msixUnmask f cond => Sys2Proof.Machine.execMsixUnmask f cond s
  | .icuSwiSet src j mask => Sys2Proof.Machine.execIcuSwiSet src j mask s
  | .rmgrSource k => Sys2Proof.Machine.execRmgrSource k s
  | .dmaTail src c v => Sys2Proof.Machine.execDmaTail src c v s
  | .dmaCfgWrite src c v => Sys2Proof.Machine.execDmaCfgWrite src c v s
  | .dmaAbort src c => Sys2Proof.Machine.execDmaAbort src c s
  | .dmaSkip src c => Sys2Proof.Machine.execDmaSkip src c s
  | .dmaRdWrite src c v => Sys2Proof.Machine.execDmaRdWrite src c v s
  | .dmaReadCompletion c tag data => Sys2Proof.Machine.execDmaReadCompletion c tag data s
  | .dmaFeedTransfer c => Sys2Proof.Machine.execDmaFeedTransfer c s
  | .completionTimeout c => Sys2Proof.Machine.execCompletionTimeout c s
  | .registerWrite src space off be d => Sys2Proof.Machine.execRegisterWrite src space off be d s
  | .rcRead src space off be => Sys2Proof.Machine.execRcRead src space off be s
  | .pairLowRead src space off be => Sys2Proof.Machine.execPairLowRead src space off be s
  | .fenceWrite src token => Sys2Proof.Machine.execFenceWrite src token s
  | .elogRdWrite src v => Sys2Proof.Machine.execElogRdWrite src v s
  | .lostEntry => Sys2Proof.Machine.execLostEntry s
  | .mspiNop => Sys2Proof.Machine.execMspiNop s
  | .mspiRead addr => Sys2Proof.Machine.execMspiRead addr s
  | .mspiWrite addr v => Sys2Proof.Machine.execMspiWrite addr v s
  | .mspiClear => Sys2Proof.Machine.execMspiClear s
  | .mspiCmdError cmd addr v => Sys2Proof.Machine.execMspiCmdError cmd addr v s
  | .mspiFrameDiscard bits frame early => Sys2Proof.Machine.execMspiFrameDiscard bits frame early s
  | .conventionalReset cause => Sys2Proof.Machine.execConventionalReset cause s
  | .linkUp speed width => Sys2Proof.Machine.execLinkUp speed width s
  | .flr f => Sys2Proof.Machine.execFlr f s
  | .f1BlockReset => Sys2Proof.Machine.execF1BlockReset s
  | .flrHandoverFallback => Sys2Proof.Machine.execFlrHandoverFallback s
  | .pcieForeignAccess f off wr => Sys2Proof.Machine.execPcieForeignAccess f off wr s
  | .powerStateChange f d3 => Sys2Proof.Machine.execPowerStateChange f d3 s
  | .pairStartDecide peerLead peerDen => Sys2Proof.Machine.execPairStartDecide peerLead peerDen s
  | .leadConflict => Sys2Proof.Machine.execLeadConflict s
  | .rmgrRefresh => Sys2Proof.Machine.execRmgrRefresh s
  | .denStop => Sys2Proof.Machine.execDenStop s
  | .denSilence => Sys2Proof.Machine.execDenSilence s
  | .leadForceOff => Sys2Proof.Machine.execLeadForceOff s
  | .heartbeatSend => Sys2Proof.Machine.execHeartbeatSend s
  | .heartbeat flags ack state => Sys2Proof.Machine.execHeartbeat flags ack state s
  | .digest bytes => Sys2Proof.Machine.execDigest bytes s
  | .modeFrame seq target cause dom imm angle => Sys2Proof.Machine.execModeFrame seq target cause dom imm angle s
  | .tokenOffer seq => Sys2Proof.Machine.execTokenOffer seq s
  | .tokenAccept seq => Sys2Proof.Machine.execTokenAccept seq s
  | .tokenRefuse seq => Sys2Proof.Machine.execTokenRefuse seq s
  | .tokenAbort seq => Sys2Proof.Machine.execTokenAbort seq s
  | .tokenReleased seq => Sys2Proof.Machine.execTokenReleased seq s
  | .joinReq seq => Sys2Proof.Machine.execJoinReq seq s
  | .joinStart seq => Sys2Proof.Machine.execJoinStart seq s
  | .joinEnd seq len crc => Sys2Proof.Machine.execJoinEnd seq len crc s
  | .joinAbortFrame seq => Sys2Proof.Machine.execJoinAbortFrame seq s
  | .bulk seq off data => Sys2Proof.Machine.execBulk seq off data s
  | .writeFrame seq source be off v => Sys2Proof.Machine.execWriteFrame seq source be off v s
  | .linkFrameDiscard => Sys2Proof.Machine.execLinkFrameDiscard s
  | .linkDown => Sys2Proof.Machine.execLinkDown s
  | .linkRetry => Sys2Proof.Machine.execLinkRetry s
  | .takeover cond => Sys2Proof.Machine.execTakeover cond s
  | .pairHandover src => Sys2Proof.Machine.execPairHandover src s
  | .pairJoinAbort src => Sys2Proof.Machine.execPairJoinAbort src s
  | .idleInstant => Sys2Proof.Machine.execIdleInstant s
  | .idleWaitExpiry => Sys2Proof.Machine.execIdleWaitExpiry s
  | .presentMake => Sys2Proof.Machine.execPresentMake s
  | .presentBreak => Sys2Proof.Machine.execPresentBreak s
  | .debugHalt => Sys2Proof.Machine.execDebugHalt s
  | .testLogicReset => Sys2Proof.Machine.execTestLogicReset s
  | .powerOnReset straps => Sys2Proof.Machine.execPowerOnReset straps s
  | .powerOnResetAssert => Sys2Proof.Machine.execPowerOnResetAssert s
  | .supOverload n => Sys2Proof.Machine.execSupOverload n s
  | .supOff n => Sys2Proof.Machine.execSupOff n s
  | .supRetry n => Sys2Proof.Machine.execSupRetry n s
  | .clockFail code => Sys2Proof.Machine.execClockFail code s
  | .clockRecovery => Sys2Proof.Machine.execClockRecovery s
  | .wakeWheel w => Sys2Proof.Machine.execWakeWheel w s
  | .wakePin => Sys2Proof.Machine.execWakePin s
  | .wakeTimer => Sys2Proof.Machine.execWakeTimer s
  | .wakeRelease => Sys2Proof.Machine.execWakeRelease s
  | .firstEdgeCatch w stamp rising => Sys2Proof.Machine.execFirstEdgeCatch w stamp rising s
  | .detectorArm w peak => Sys2Proof.Machine.execDetectorArm w peak s
  | .tripPinChange t level => Sys2Proof.Machine.execTripPinChange t level s
  | .overloadEnd n => Sys2Proof.Machine.execOverloadEnd n s
  | .oscillatorWindowLeave => Sys2Proof.Machine.execOscillatorWindowLeave s
  | .heartbeatMiss => Sys2Proof.Machine.execHeartbeatMiss s
  | .dormantEntryDone => Sys2Proof.Machine.execDormantEntryDone s
  | .perstDeassert => Sys2Proof.Machine.execPerstDeassert s
  | .configRetryEnd => Sys2Proof.Machine.execConfigRetryEnd s
  | .busMasterEnableSet => Sys2Proof.Machine.execBusMasterEnableSet s

end Sys2Proof.Machine
end

