-- ==== Sys2Proof/Machine/Step.lean ====
section
/-! DEFINITION. One step: the command at the front of the queue, or the passing of time where none waits. -/

namespace Sys2Proof.Machine

/-- One step: the front command runs with the queue's rest; on an empty queue time passes (DESIGN CHOICE, log entry 1).
(DESIGN CHOICE, log entry 2) (DESIGN CHOICE, log entry 55). -/
def step (s : State) : Host.Outcome State Fault Refusal :=
  match s.pending with
  | [] => .next s.idle
  | c :: r => exec c { s with pending := r }

/-- The state with the command that a word of the table spells put at the front of its queue.
(DESIGN CHOICE, log entry 8). -/
def State.withFetchWord (s : State) (nbits w : Nat) : State :=
  match decodeTableWord nbits w with
  | some c => { s with pending := c :: s.pending }
  | none => s

end Sys2Proof.Machine
end

