-- ==== Sys2Proof/Machine/Frames.lean ====
section
/-! DEFINITION. Frames of the Berfer link as bytes: layouts, CRCs, lanes, and the command that a received frame is (R375 to
R377, R379). -/

namespace Sys2Proof.Machine

/-- One byte taken into the CRC-16 of heartbeats (R375). -/
def crc16Byte (c b : Nat) : Nat :=
  (upto 8).foldl (fun c _ => if 0x8000 ≤ c then c * 2 % 65536 ^^^ 0x1021 else c * 2) (c ^^^ (b * 256))

/-- The CRC-16 of heartbeats (R375). -/
def crc16 (bs : List Nat) : Nat := bs.foldl crc16Byte 0xFFFF

/-- The bytes of a frame before its CRC: TYPE, FLAGS, and what R376 lists; DOMAIN lies in bits 1:0 and IMMEDIATE in bit 7 of
their byte (DESIGN CHOICE, log entry 56). -/
def Frame.body : Frame → List Nat
  | .heartbeat flags ack state => [1, flags] ++ bytesBE 2 ack ++ bytesBE 2 state
  | .digest bytes => [2, 0, 0, 0] ++ bytes
  | .mode seq target cause dom imm angle =>
    [3, 0] ++ bytesBE 2 seq ++ [target, cause, dom % 4 + 128 * (imm % 2), 0] ++ bytesBE 4 angle
  | .token seq code => [4, 0] ++ bytesBE 2 seq ++ [code, 0]
  | .join seq code len crc => [5, 0] ++ bytesBE 2 seq ++ [code, 0] ++ bytesBE 4 len ++ bytesBE 4 crc
  | .bulk seq off data => [6, 0] ++ bytesBE 2 seq ++ bytesBE 4 off ++ data
  | .write seq src be off data => [7, 0] ++ bytesBE 2 seq ++ [src, be] ++ bytesBE 4 off ++ bytesBE 4 data

/-- The CRC that closes the bytes of a frame: CRC-16 in a heartbeat, TYPE 1, CRC-32 in every other frame (R375). -/
def closing (body : List Nat) : List Nat := if body.head? = some 1 then bytesBE 2 (crc16 body) else bytesBE 4 (crc32 body)

/-- A frame with its CRC (R375, R376). -/
def Frame.bytes (f : Frame) : List Nat := f.body ++ closing f.body

/-- A character of a lane: the delimiters K27.7 and K29.7, and data (R375). -/
inductive Sym where
  | start
  | stop
  | data (b : Nat)
  deriving DecidableEq, Repr

/-- The bytes of one lane: byte 2i on lane 0 and byte 2i + 1 on lane 1 (R375). -/
def lane (second : Bool) : List Nat → List Nat
  | a :: b :: r => (if second then b else a) :: lane second r
  | _ => []

/-- The characters of a frame on one lane (R375). -/
def Frame.onLane (f : Frame) (second : Bool) : List Sym := [.start] ++ (lane second f.bytes).map .data ++ [.stop]

/-- The bytes that both lanes carry between the delimiters, in frame order (R375). -/
def merge : List Nat → List Nat → List Nat
  | a :: r, b :: q => a :: b :: merge r q
  | _, _ => []

/-- A number sent most significant byte first. -/
def ofBE (bs : List Nat) : Nat := bs.foldl (fun n b => n * 256 + b) 0

/-- The bytes before the CRC of a received frame, where its length and CRC are good (R375, R376). -/
def goodBody (bs : List Nat) : Option (List Nat) :=
  let n := bs.length
  let k := n - (if bs.head? = some 1 then 2 else 4)
  let size := match bs.head? with
    | some 1 => n == 8
    | some 2 => n == 40
    | some 3 => n == 16
    | some 4 => n == 10
    | some 5 => n == 18
    | some 6 => decide (20 ≤ n ∧ n ≤ 228) && n % 8 == 4
    | some 7 => n == 18
    | _ => false
  if size && (bs.drop k == closing (bs.take k)) then some (bs.take k) else none

/-- The command that a received frame is: one of a bad length, CRC, TYPE, TARGET or CODE is discarded (R375, R376).
(DESIGN CHOICE, log entry 56). -/
def linkCommand (bs : List Nat) : Instr :=
  match goodBody bs with
  | none => .linkFrameDiscard
  | some w =>
    let num := fun (from' n : Nat) => ofBE ((w.drop from').take n)
    let seq := BitVec.ofNat 16 (num 2 2)
    let code := num 4 1
    match w.headD 0 with
    | 1 => .heartbeat (BitVec.ofNat 8 (num 1 1)) (BitVec.ofNat 16 (num 2 2)) (BitVec.ofNat 16 (num 4 2))
    | 2 => .digest ((w.drop 4).map (BitVec.ofNat 8))
    | 3 =>
      if h : code < 6 then
        .modeFrame seq ⟨code, h⟩ (BitVec.ofNat 8 (num 5 1)) (Fin.ofNat 4 (num 6 1)) (bitN (num 6 1) 7) (BitVec.ofNat 32 (num 8 4))
      else .linkFrameDiscard
    | 4 => match code with
      | 1 => .tokenOffer seq
      | 2 => .tokenAccept seq
      | 3 => .tokenRefuse seq
      | 4 => .tokenAbort seq
      | 5 => .tokenReleased seq
      | _ => .linkFrameDiscard
    | 5 => match code with
      | 1 => .joinReq seq
      | 2 => .joinStart seq
      | 3 => .joinEnd seq (num 6 4) (BitVec.ofNat 32 (num 10 4))
      | 4 => .joinAbortFrame seq
      | _ => .linkFrameDiscard
    | 6 => .bulk seq (BitVec.ofNat 24 (num 4 4)) ((w.drop 8).map (BitVec.ofNat 8))
    | 7 => .writeFrame seq (BitVec.ofNat 8 code) (BitVec.ofNat 4 (num 5 1)) (BitVec.ofNat 24 (num 6 4)) (BitVec.ofNat 32 (num 10 4))
    | _ => .linkFrameDiscard

end Sys2Proof.Machine
end

