-- ==== Sys2Proof/Safety.lean ====
section
/-! DEFINITION. What holds of the state of every run: each table in its canonical form, each stored value within its
field, TNOW within 64 bits, no error-log entry left unwritten between steps. -/

namespace Sys2Proof.Machine

/-- A table in canonical form: keys rise, and no entry equals what an unlisted key holds. -/
def Tab.canonical {α : Type} [DecidableEq α] (d : α) (t : Tab α) : Bool := Tab.rising t && Tab.every (fun _ v => v != d) t

/-- A stored field value: within the width of its field (R5, R7), and not the reset value, which is never listed. -/
def fieldFits (k v : Nat) : Bool :=
  decide (v < 2 ^ (Fld.ofNat (k / 1024)).width) && v != (Fld.ofNat (k / 1024)).resetAt (k % 1024)

/-- The field store. -/
def fieldsOk (t : Tab Nat) : Bool := Tab.rising t && Tab.every fieldFits t

/-- The registers, slots and latencies of a sequencer: x0 is never stored, and every register holds 32 bits (R79). -/
def Seq.ok (q : Seq) : Bool :=
  Tab.rising q.xs && Tab.every (fun k v => k != 0 && v != 0 && decide (v < 2 ^ 32)) q.xs &&
    Tab.rising q.slots && Tab.rising q.ready

/-- The sequencers. -/
def seqsOk (t : Tab Seq) : Bool := Tab.canonical {} t && Tab.every (fun _ q => q.ok) t

/-- The invariant of the machine. -/
structure State.Inv (s : State) : Prop where
  regs : fieldsOk s.regs = true
  mem : Memory.wf s.mem = true
  seqs : seqsOk s.seqs = true
  doms : Tab.canonical {} s.doms = true
  chans : Tab.canonical {} s.chans = true
  svcs : Tab.canonical {} s.svcs = true
  adcs : Tab.canonical {} s.adcs = true
  basins : Tab.canonical {} s.basins = true
  feeds : Tab.canonical {} s.feeds = true
  cmps : Tab.canonical {} s.cmps = true
  trips : Tab.canonical {} s.trips = true
  pwms : Tab.canonical {} s.pwms = true
  ioes : Tab.canonical {} s.ioes = true
  gio : Tab.canonical .z s.gio = true
  dmas : Tab.canonical {} s.dmas = true
  fns : Tab.canonical {} s.pcie.fns = true
  progErr : Tab.rising s.progErr = true
  latched : Tab.rising s.latched = true
  heldLow : Tab.rising s.heldLow = true
  armAt : Tab.rising s.armAt = true
  settle : Tab.rising s.settle = true
  trkLatch : Tab.rising s.trkLatch = true
  weightSwap : Tab.rising s.weightSwap = true
  /-- R4: TNOW has 64 bits. -/
  tnow : s.tnow < 2 ^ 64

/-- A state between two commands: every entry of the last command is in the error log (R423). -/
structure State.Sound (s : State) : Prop where
  inv : s.Inv
  log : s.logNew = []

end Sys2Proof.Machine
end

