-- ==== Sys2Proof/Safety/Parts.lean ====
section
/-! DEFINITION. The parts of the state, and which of them a command may write: the frame of every command. -/

namespace Sys2Proof.Machine

/-- The parts of the state: one for each field. -/
inductive Part where
  | pending | tnow | wsNs | regs | mem | progErr | resp | latched | heldLow | logNew | lostOwed | armAt | doms | seqs
  | mapm | dataIn | chans | svcs | change | adcs | settle | basins | trkLatch | feeds | weightSwap | hold3 | hold2 | cmps
  | trips | pwms | auxOff | clkStopAt | ioes | gio | dmas | pcie | mspi | power | den | pair
  deriving DecidableEq, Repr

/-- Every part but the queue. -/
def Part.all : List Part :=
  [.tnow, .wsNs, .regs, .mem, .progErr, .resp, .latched, .heldLow, .logNew, .lostOwed, .armAt, .doms, .seqs, .mapm, .dataIn,
   .chans, .svcs, .change, .adcs, .settle, .basins, .trkLatch, .feeds, .weightSwap, .hold3, .hold2, .cmps, .trips, .pwms,
   .auxOff, .clkStopAt, .ioes, .gio, .dmas, .pcie, .mspi, .power, .den, .pair]

/-- A part of `t` is as in `s`. -/
def Part.Kept (s t : State) : Part → Prop
  | .pending => t.pending = s.pending
  | .tnow => t.tnow = s.tnow
  | .wsNs => t.wsNs = s.wsNs
  | .regs => t.regs = s.regs
  | .mem => t.mem = s.mem
  | .progErr => t.progErr = s.progErr
  | .resp => t.resp = s.resp
  | .latched => t.latched = s.latched
  | .heldLow => t.heldLow = s.heldLow
  | .logNew => t.logNew = s.logNew
  | .lostOwed => t.lostOwed = s.lostOwed
  | .armAt => t.armAt = s.armAt
  | .doms => t.doms = s.doms
  | .seqs => t.seqs = s.seqs
  | .mapm => t.mapm = s.mapm
  | .dataIn => t.dataIn = s.dataIn
  | .chans => t.chans = s.chans
  | .svcs => t.svcs = s.svcs
  | .change => t.change = s.change
  | .adcs => t.adcs = s.adcs
  | .settle => t.settle = s.settle
  | .basins => t.basins = s.basins
  | .trkLatch => t.trkLatch = s.trkLatch
  | .feeds => t.feeds = s.feeds
  | .weightSwap => t.weightSwap = s.weightSwap
  | .hold3 => t.hold3 = s.hold3
  | .hold2 => t.hold2 = s.hold2
  | .cmps => t.cmps = s.cmps
  | .trips => t.trips = s.trips
  | .pwms => t.pwms = s.pwms
  | .auxOff => t.auxOff = s.auxOff
  | .clkStopAt => t.clkStopAt = s.clkStopAt
  | .ioes => t.ioes = s.ioes
  | .gio => t.gio = s.gio
  | .dmas => t.dmas = s.dmas
  | .pcie => t.pcie = s.pcie
  | .mspi => t.mspi = s.mspi
  | .power => t.power = s.power
  | .den => t.den = s.den
  | .pair => t.pair = s.pair

/-- The parts that the end of any command may write: registers, for the error log and the counters of the interrupt controller,
the log's own state, the messages sent, and the stop of a debug halt. -/
def endParts : List Part := [.regs, .logNew, .lostOwed, .clkStopAt, .pcie]

/-- The parts that the issue of an instruction may write: its sequencer, and the time, which passes to its issue cycle. -/
def seqParts : List Part := [.seqs, .tnow, .wsNs] ++ endParts

/-- The parts that an instruction which may halt or fault its sequencer may write: a sequencer
that stops applies a mode that waits for it (R184). -/
def haltParts : List Part := [.change, .chans, .dataIn, .mem] ++ seqParts

/-- The parts that a change of mode, or a spillway path, may write beside. -/
def modeParts : List Part :=
  [.basins, .change, .chans, .dataIn, .doms, .hold2, .hold3, .mem, .pair, .power, .pwms, .seqs, .svcs] ++ endParts

/-- The parts that a write to a register or a memory of the unified map may write, at whatever offset. -/
def accessParts : List Part :=
  [.adcs, .auxOff, .cmps, .dmas, .feeds, .gio, .heldLow, .ioes, .mapm, .mspi, .progErr, .settle, .trips, .trkLatch] ++ modeParts

/-- A list of parts and further ones. -/
def besides (base more : List Part) : List Part := more ++ base

/-- The parts that a command may write. -/
def writesOf : Instr → List Part
  | .wfeCrossing _ _ _ | .edgeAccept _ _ | .angleClamp _ => besides endParts [.doms]
  | .peakDecay _ | .adcCalDone _ _ | .settlingEnd _ | .msixUnmask _ _ | .lostEntry | .linkUp _ _ | .supRetry _ |
    .overloadEnd _ | .perstDeassert | .configRetryEnd => endParts
  | .primaryEdge _ | .phaseEdge _ | .stall _ | .modeEpoch | .modeTimeout | .flrHandoverFallback | .pairStartDecide _ _
    | .heartbeat _ _ _ | .joinEnd _ _ _ | .presentMake | .presentBreak | .debugHalt => modeParts
  | .desync _ _ | .reseed _ _ | .tclSwap _ _ | .tclRestart _ _ | .correctionBankWrite _ _ _ _ _ | .mapWrite _ _ _ |
    .seqStart _ _ | .seqReset _ _ | .seqSwapReq _ _ | .seqFlagsClear _ _ _ | .seqFlagsSet _ _ _ |
    .programBankWrite _ _ _ _ _ | .dataMemoryWrite _ _ _ _ | .mapmWrite _ _ _ _ | .svcCfgWrite _ _ _ |
    .svcTargetWrite _ _ _ | .outOwnerWrite _ _ _ | .modeReqDormant _ | .modeReqStandby _ | .modeReqSeek _ |
    .modeReqRun _ _ _ | .modeReqClearing _ | .adcCfgWrite _ _ _ | .adcCommit _ _ | .adcCal _ _ | .adcFltReset _ _ |
    .ainCfgWrite _ _ _ | .basCfgWrite _ _ _ | .basOpen _ _ | .basClose _ _ | .basCloseOpen _ _ | .basValueRead _ _ |
    .basTagRead _ _ | .trkMaxRead _ _ | .feedDataRead _ _ _ | .wtSwap _ _ | .weightWrite _ _ _ _ _ | .cmpDacWrite _ _ _
    | .pwmCtrlWrite _ _ _ | .tripSw _ _ | .tripClr _ _ | .pwmForceWrite _ _ _ | .pwmOutcfgWrite _ _ _ |
    .pwmSyncRestart _ _ | .ioeCtrlWrite _ _ _ | .ioeReset _ _ | .ioeInject _ _ _ | .ioeGroupStart _ _ |
    .ioeGroupRephase _ _ | .ioeQoutRead _ _ | .ioeQinWrite _ _ _ | .ioeFlagsClear _ _ _ | .ioeFlagsSet _ _ _ |
    .gioCfgWrite _ _ _ | .imemWrite _ _ _ _ | .icuTgtWrite _ _ _ | .icuSwiSet _ _ _ | .dmaTail _ _ _ |
    .dmaCfgWrite _ _ _ | .dmaAbort _ _ | .dmaSkip _ _ | .dmaRdWrite _ _ _ | .registerWrite _ _ _ _ _ |
    .rcRead _ _ _ _ | .pairLowRead _ _ _ _ | .elogRdWrite _ _ | .pairHandover _ | .pairJoinAbort _ => besides
    accessParts [.latched, .resp]
  | .cycleBoundary _ => besides modeParts [.weightSwap]
  | .progEcc _ => besides haltParts [.progErr]
  | .illegal _ | .divu _ | .divs _ | .remu _ | .rems _ | .lw _ | .sw _ | .lmu _ | .lms _ | .lmw _ | .map2 _ | .a2t _ |
    .t2a _ | .arm _ | .armt _ | .pulse _ | .waita _ | .waitt _ | .waiteTooth _ | .waiteIcu _ | .waiteFence _ |
    .waiteEpoch _ | .waiteFlag _ | .safept _ | .halt _ | .slotStallResume _ => haltParts
  | .add _ | .sub _ | .and _ | .or _ | .xor _ | .sll _ | .srl _ | .sra _ | .slt _ | .sltu _ | .min _ | .max _ |
    .minu _ | .maxu _ | .clamp _ | .clampu _ | .pack _ | .addi _ | .andi _ | .ori _ | .xori _ | .slli _ | .srli _ |
    .srai _ | .rori _ | .lui _ | .mulu _ | .muls _ | .mul _ | .mulq _ | .rds _ | .beq _ | .bne _ | .blt _ | .bge _ |
    .bltu _ | .bgeu _ | .bmlt _ | .bmge _ | .jal _ | .jalr _ | .fence _ | .budget _ | .yield _ => seqParts
  | .mapmTransaction _ _ => besides haltParts [.mapm]
  | .cancelHandle _ | .cancelChannel _ | .cancelAll _ | .handover _ => besides seqParts [.chans]
  | .taskStart _ | .waiteWake _ | .budgetExpiry _ => besides endParts [.seqs]
  | .handoverTransfer _ | .completeCapExpiry _ => besides endParts [.chans, .seqs]
  | .slotFire _ _ | .svcFire _ => besides endParts [.basins, .chans, .seqs, .svcs]
  | .autoRun | .autoLimp | .autoLimpToRun => besides endParts [.change, .chans, .dataIn, .mem, .pair, .seqs]
  | .adcConversion _ _ _ => besides endParts [.adcs, .basins]
  | .basinLatch _ | .dmaReadCompletion _ _ _ | .completionTimeout _ | .mspiWrite _ _ | .conventionalReset _ |
    .powerStateChange _ _ | .writeFrame _ _ _ _ _ | .busMasterEnableSet => besides accessParts [.latched]
  | .readInProgressTimeout _ _ | .pwmMarker _ _ => besides endParts [.basins]
  | .cmpCrossing _ _ => besides endParts [.cmps]
  | .cmpFilterPass _ | .cmpHoldEnd _ => besides endParts [.cmps, .ioes, .trips]
  | .pwmBoundary _ | .pwmMidLoad _ | .pwmCompare _ | .deadtimeExpiry _ _ | .tripFilterPass _ | .auxOvercurrent _ =>
    besides endParts [.pwms]
  | .gioEdge _ _ _ | .ioeStepWake _ | .ioeJmp _ | .ioeWaitp _ | .ioeWaitf _ | .ioeWaiti _ | .ioeWaitt _ | .ioeShin _ |
    .ioeMov _ | .ioeAdd _ | .ioeSub _ | .meas _ | .setu _ | .crc _ | .push _ | .pull _ | .setf _ | .ioeIrq _ |
    .ioeHalt _ | .ioeIllegal _ => besides endParts [.ioes]
  | .ioeTimedAction _ | .ioePin _ | .ioeShout _ => besides endParts [.gio, .ioes]
  | .post _ => besides endParts [.dataIn, .ioes, .mem]
  | .icuEoi _ _ | .fenceWrite _ _ => besides accessParts [.resp]
  | .rmgrSource _ | .leadForceOff | .heartbeatSend | .digest _ | .tokenOffer _ | .tokenAccept _ | .tokenRefuse _ |
    .tokenAbort _ | .tokenReleased _ | .joinReq _ | .joinStart _ | .joinAbortFrame _ | .linkFrameDiscard | .linkDown |
    .linkRetry | .heartbeatMiss => besides endParts [.pair]
  | .dmaFeedTransfer _ | .mspiRead _ => besides endParts [.basins, .feeds, .ioes, .latched, .mspi, .seqs, .trkLatch]
  | .mspiNop | .mspiCmdError _ _ _ | .mspiFrameDiscard _ _ _ => besides endParts [.mspi]
  | .mspiClear => besides modeParts [.mspi]
  | .flr _ => besides modeParts [.adcs, .cmps, .dmas, .feeds, .gio, .ioes, .settle, .trips, .trkLatch]
  | .f1BlockReset => besides modeParts [.armAt]
  | .pcieForeignAccess _ _ _ => besides endParts [.resp]
  | .leadConflict | .idleInstant | .idleWaitExpiry => besides endParts [.chans, .pair]
  | .rmgrRefresh | .denSilence | .clockRecovery => besides modeParts [.den]
  | .denStop => besides endParts [.den]
  | .modeFrame _ _ _ _ _ _ => besides modeParts [.auxOff, .gio]
  | .bulk _ _ _ => besides modeParts [.adcs, .auxOff, .cmps, .dmas, .gio, .ioes, .mapm, .mspi, .progErr, .settle,
    .trips]
  | .takeover _ => besides endParts [.chans, .pair, .seqs]
  | .testLogicReset => besides endParts [.pwms, .seqs]
  | .powerOnReset _ | .powerOnResetAssert | .wakeRelease => Part.all
  | .supOverload _ | .supOff _ | .wakeWheel _ | .wakePin | .wakeTimer | .firstEdgeCatch _ _ _ => besides endParts
    [.power]
  | .clockFail _ => besides endParts [.den, .power, .pwms]
  | .detectorArm _ _ => besides endParts [.armAt, .doms]
  | .tripPinChange _ _ => besides endParts [.trips]
  | .oscillatorWindowLeave => besides endParts [.den, .power]
  | .dormantEntryDone => besides endParts [.change, .dmas, .power]

/-- The commands that the wellspring, the backplane or the serial port carries out, without the fast clocks. -/
def selfClocked : Instr → Bool
  | .denStop | .leadForceOff | .presentMake | .presentBreak | .mspiNop | .mspiRead _
  | .mspiWrite _ _ | .mspiClear | .mspiCmdError _ _ _ | .mspiFrameDiscard _ _ _ | .powerOnReset _ | .powerOnResetAssert
  | .oscillatorWindowLeave | .wakeWheel _ | .wakePin | .wakeTimer | .wakeRelease | .firstEdgeCatch _ _ _ => true
  | _ => false

end Sys2Proof.Machine
end

