-- ==== Sys2Proof/Safety/Terms.lean ====
section
/-! DEFINITION. The terms of the claims: when a command's preconditions hold, what the end of a command adds to its effect, and what
the commands of each family leave. -/

namespace Sys2Proof.Machine

/-- No DMA channel has anything to do: none is enabled, and none works on a descriptor or waits for a read. -/
def State.dmaIdle (s : State) : Bool := (upto 16).all fun c => !s.dmaBusy c

/-- A command of the blocks that the fast clocks run finds them running, none failed, and the DMA engine at rest. -/
structure State.Ready (s : State) : Prop where
  sound : s.Sound
  up : s.up = true
  rest : s.dmaIdle = true

/-- What the end of a command may do beside the error log: messages of vectors whose level is 1 are committed (R295), and a
debug halt stops the sequencer clocks (R161). Nothing else differs from `u`. -/
structure State.Delivers (u v : State) : Prop where
  parts : v = { u with regs := v.regs, pcie := v.pcie, clkStopAt := v.clkStopAt }
  fields : ∀ f i, f ≠ .DBG_STAT_CLK_STOPPED → v.fld f i = u.fld f i
  pcie : v.pcie = { u.pcie with fns := v.pcie.fns, due := v.pcie.due }
  fns : ∀ f, v.fn f = { u.fn f with sent := (v.fn f).sent }
  due : ∃ l, v.pcie.due = u.pcie.due ++ l
  clocks : u.flag .DBG_STAT_HALTED = false → v.flag .DBG_STAT_CLK_STOPPED = u.flag .DBG_STAT_CLK_STOPPED

/-- What the end of a command adds to the state `u` that its effect leaves, where `m` is the mode at its start: the command's entries
of the error log (R421, R423), with none of which the log is as it was, and then what is delivered. -/
def State.EndOf (u : State) (m : Nat) (t : State) : Prop := (u.logFlush m).Delivers t

/-- Command `c` has a next state: the end of the command on the state `u` that its effect leaves. -/
def Ends (c : Instr) (s u : State) : Prop := ∃ t, exec c s = .next t ∧ u.EndOf s.mode t

/-- Command `c` has a next state, and its effect leaves a state in which `p` holds. -/
def EndsIn (c : Instr) (s : State) (p : State → Prop) : Prop := ∃ u, p u ∧ Ends c s u

/-- A write of a source to an offset of the unified map reaches it: a function's memory requests are enabled and it
decodes the offset (R351, R352); the MSPI and the DMA engine reach every offset. -/
def State.carries (s : State) (src : Src) (off : Nat) : Bool :=
  match src with
  | .f k => s.reaches k.val && decodes k.val off
  | _ => true

/-- A write of a source takes effect: it is carried, and neither an FLR of F1 nor the state of a Follow discards it
(R358, R366). -/
structure State.Takes (s : State) (src : Src) (off : Nat) : Prop where
  ready : s.Ready
  carried : s.carries src off = true
  allowed : s.writeBarred off true = false

/-- A write whose effect leaves `u`: a Lead forwards it to its partner where its offset lies in the pair's ranges (R367). -/
def State.passedOn (u : State) (src : Src) (off v : Nat) (be : Nat := 15) : State :=
  if inPair off then u.forward (srcNum src) off be v else u

/-- Command `c` has a next state, in which `p` holds. -/
def Runs (c : Instr) (s : State) (p : State → Prop) : Prop := ∃ t, exec c s = .next t ∧ p t

/-- Register command `c` of a source, a write of `v` at an offset, has the effect `u` on a state that takes it. -/
def Stores (c : Instr) (s : State) (src : Src) (off v : Nat) (u : State) : Prop :=
  s.Takes src off → Ends c s (u.passedOn src off v)

/-- The state in which a write begins: it has no completion of its own. -/
def State.cleared (s : State) : State := { s with resp := .none }

/-! ### Sequencers -/

/-- Sequencer `n` can issue the instruction `o`, whose word `w` stands at its PC: it runs, nothing has stopped its clock, the
word has no double-bit error, and no posted map-memory transaction holds it (R10, R82, R85, R90, R161). -/
structure State.Issues (s : State) (n : Nat) (o : PhOp) (w : Nat) : Prop where
  sound : s.Sound
  live : s.live = true
  run : (s.seq n).state = .run
  clock : s.seqStopped = false
  ecc : Tab.get 0 s.progErr (s.pcAddr n) ≠ 2
  word : s.word (s.pcAddr n) = w
  op : phDecode w = some o
  map : (s.seq n).mapBlocks o w = false

/-- The counters that the issue of an instruction advances (R85, R108). -/
def issueCounters : List Fld := [.SEQ_CNT_STALL, .SEQ_CNT_ECC]

/-- `u` comes from `s` by what sequencer `n` may do to its own registers, slots and timing, to its two counters, and to
its fields in `fs`; everything else, the time among it, is as in `s`. -/
structure State.Within (s u : State) (n : Nat) (fs : List Fld) : Prop where
  parts : u = { s with regs := u.regs, seqs := u.seqs }
  others : ∀ m, m ≠ n → u.seq m = s.seq m
  fields : ∀ f i, ¬ (i % 1024 = n ∧ (f ∈ issueCounters ∨ f ∈ fs)) → u.fld f i = s.fld f i

/-- The sequencer after an instruction: PC, the registers and the timing of R95 follow the instruction; wait, slots, bank
and state are as before. -/
def Seq.moved (q r : Seq) : Prop :=
  r = { q with xs := r.xs, pc := r.pc, nextIssue := r.nextIssue, waite := none, safeAt := none
               ready := r.ready, divFree := r.divFree }

/-- The registers of sequencer `n` with `v` in register `rd`; x0 reads 0 whatever is written (R79). -/
def State.withX (s : State) (n rd v k : Nat) : Nat := if k = rd ∧ k ≠ 0 then v else s.x n k

/-- Instruction `o` of sequencer `n` has run on, to the next instruction or to `pc`: from its issue, to which time has passed,
it changes the registers to `xs`, costs `cost` cycles, and changes nothing but its counters and its fields in `fs`. -/
structure State.RunsOn (s u : State) (n : Nat) (o : PhOp) (w : Nat) (fs : List Fld) (xs : Nat → Nat) (pc cost : Nat) : Prop where
  within : (s.atIssue n o w).Within u n fs
  xs : ∀ k, u.x n k = xs k
  pc : (u.seq n).pc = pc
  next : (u.seq n).nextIssue = s.issueCycle n o w + cost
  seq : (s.seq n).moved (u.seq n)

/-- The PC after the instruction at PC (R83). -/
def State.pcNext (s : State) (n : Nat) : Nat := ((s.seq n).pc + 1) % 2048

/-- Instruction `o` has written `v` to register `rd`, readable `lat` cycles after its issue, and costs one cycle. -/
structure State.Writes (s u : State) (n : Nat) (o : PhOp) (w rd v lat : Nat) : Prop where
  run : s.RunsOn u n o w [] (s.withX n rd v) (s.pcNext n) 1
  ready : rd ≠ 0 → Tab.get 0 (u.seq n).ready rd = s.issueCycle n o w + lat

/-- The operands of an instruction as 32-bit words: the registers that its RS1, RS2 and RD fields name (R92). -/
def State.rs1W (s : State) (n w : Nat) : Word := BitVec.ofNat 32 (s.x n (phB w))
def State.rs2W (s : State) (n w : Nat) : Word := BitVec.ofNat 32 (s.x n (phC w))
def State.rdW (s : State) (n w : Nat) : Word := BitVec.ofNat 32 (s.x n (phA w))

end Sys2Proof.Machine
end

