-- ==== Sys2Proof/Certificates/Slice0/Obligations.lean ====
section
/-! DEFINITION. The statements about the machine, with the terms each family of commands needs. A statement over several
claims is their conjunction, and each claim stands above it. -/

namespace Sys2Proof.Machine

/-! ### Phiad: arithmetic, loads, branches (R79 to R103) -/

/-- The ALU instructions, with their results in words: rs1, rs2 and the old rd (R96). -/
def aluTable (n : Fin 24) : List (Instr × PhOp × (Word → Word → Word → Word)) :=
  [(.add n, .add, fun a b _ => a + b), (.sub n, .sub, fun a b _ => a - b), (.and n, .and', fun a b _ => a &&& b),
   (.or n, .or', fun a b _ => a ||| b), (.xor n, .xor', fun a b _ => a ^^^ b),
   (.sll n, .sll, fun a b _ => a <<< (b.toNat % 32)), (.srl n, .srl, fun a b _ => a >>> (b.toNat % 32)),
   (.sra n, .sra, fun a b _ => a.sshiftRight (b.toNat % 32)), (.slt n, .slt, fun a b _ => if a.slt b then 1#32 else 0#32),
   (.sltu n, .sltu, fun a b _ => if a < b then 1#32 else 0#32), (.min n, .min', fun a b _ => if a.slt b then a else b),
   (.max n, .max', fun a b _ => if a.slt b then b else a), (.minu n, .minu, fun a b _ => if a < b then a else b),
   (.maxu n, .maxu, fun a b _ => if a < b then b else a),
   (.clamp n, .clamp, fun a b d => let m := if d.slt a then a else d; if b.slt m then b else m),
   (.clampu n, .clampu, fun a b d => let m := if d < a then a else d; if b < m then b else m),
   (.pack n, .pack, fun a b _ => b.extractLsb' 0 16 ++ a.extractLsb' 0 16)]

/-- R96: an ALU instruction writes its function of rs1, rs2 and rd to RD, readable after one cycle, and changes nothing else.
(Rests on choices of the model: log entry 1.) -/
def AluResultsClaim : Prop :=
  ∀ (n : Fin 24) (s : State) (w : Nat), ∀ p ∈ aluTable n, s.Issues n p.2.1 w →
    EndsIn p.1 s fun u => s.Writes u n p.2.1 w (phA w) (p.2.2 (s.rs1W n w) (s.rs2W n w) (s.rdW n w)).toNat 1

/-- The immediate instructions, with their results in words: rs1 and IMM18 (R97). -/
def immTable (n : Fin 24) : List (Instr × PhOp × (Word → BitVec 18 → Word)) :=
  [(.addi n, .addi, fun a m => a + m.signExtend 32), (.andi n, .andi, fun a m => a &&& m.zeroExtend 32),
   (.ori n, .ori, fun a m => a ||| m.zeroExtend 32), (.xori n, .xori, fun a m => a ^^^ m.zeroExtend 32),
   (.slli n, .slli, fun a m => a <<< (m.toNat % 32)), (.srli n, .srli, fun a m => a >>> (m.toNat % 32)),
   (.srai n, .srai, fun a m => a.sshiftRight (m.toNat % 32)), (.rori n, .rori, fun a m => a.rotateRight (m.toNat % 32))]

/-- R97: an immediate instruction writes its function of rs1 and IMM18 to RD, and LUI writes IMM22 shifted left by 10.
(Rests on choices of the model: log entry 1.) -/
def ImmediateResultsClaim : Prop :=
  ∀ (n : Fin 24) (s : State) (w : Nat),
    (∀ p ∈ immTable n, s.Issues n p.2.1 w →
      EndsIn p.1 s fun u => s.Writes u n p.2.1 w (phA w) (p.2.2 (s.rs1W n w) (BitVec.ofNat 18 w)).toNat 1) ∧
    (s.Issues n .lui w →
      EndsIn (.lui n) s fun u => s.Writes u n .lui w (phA w) (BitVec.ofNat 22 w ++ 0#10).toNat 1)

/-- Registers RD and RD + 1 of sequencer `n` after a 64-bit product (R98); x0 discards the low word. -/
def State.withProduct (s : State) (n rd : Nat) (p : BitVec 64) (k : Nat) : Nat :=
  if k = rd + 1 then (p.extractLsb' 32 32).toNat else s.withX n rd (p.extractLsb' 0 32).toNat k

/-- The divisions, with their results in words: rs1 and rs2, which is not 0 (R98). -/
def divTable (n : Fin 24) : List (Instr × PhOp × (Word → Word → Word) × (Word → Word)) :=
  [(.divu n, .divu, fun a b => a / b, fun _ => 0xFFFFFFFF#32), (.divs n, .divs, fun a b => a.sdiv b, fun _ => 0xFFFFFFFF#32),
   (.remu n, .remu, fun a b => a % b, fun a => a), (.rems n, .rems, fun a b => a.srem b, fun a => a)]

end Sys2Proof.Machine

open Sys2Proof Sys2Proof.Machine in
/-- R98: multiply and divide instructions with a divisor other than 0. (Rests on choices of the model: log entry 1.) -/
def Obligations.MultiplyDivideResults : Prop :=
  ∀ (n : Fin 24) (s : State) (w : Nat),
    (s.Issues n .mulu w → EndsIn (.mulu n) s fun u => s.RunsOn u n .mulu w []
      (s.withProduct n (phA w) ((s.rs1W n w).zeroExtend 64 * (s.rs2W n w).zeroExtend 64)) (s.pcNext n) 1) ∧
    (s.Issues n .muls w → EndsIn (.muls n) s fun u => s.RunsOn u n .muls w []
      (s.withProduct n (phA w) ((s.rs1W n w).signExtend 64 * (s.rs2W n w).signExtend 64)) (s.pcNext n) 1) ∧
    (s.Issues n .mul w → EndsIn (.mul n) s fun u =>
      s.Writes u n .mul w (phA w) (s.rs1W n w * s.rs2W n w).toNat 3) ∧
    (s.Issues n .mulq w → EndsIn (.mulq n) s fun u =>
      s.Writes u n .mulq w (phA w)
        (BitVec.ofInt 32 (max (-(2 ^ 31)) (min (2 ^ 31 - 1) ((s.rs1W n w).toInt * (s.rs2W n w).toInt / 2 ^ 16)))).toNat 3) ∧
    ∀ p ∈ divTable n, s.rs2W n w ≠ 0 → s.Issues n p.2.1 w → EndsIn p.1 s fun u =>
      s.Writes u n p.2.1 w (phA w) (p.2.2.1 (s.rs1W n w) (s.rs2W n w)).toNat 16

namespace Sys2Proof.Machine

/-- What a core fault that does not stop its sequencer leaves (R105, R421): its bit, FAULT_PC, and an entry of the error
log. `v` goes to register `rd`. -/
structure State.FaultsOn (s u : State) (n : Nat) (o : PhOp) (w rd v code : Nat) (bit : Fld) : Prop where
  run : s.RunsOn { u with logNew := [] } n o w [bit, .SEQ_FAULT_PC_CAUSE, .SEQ_FAULT_PC_BANK, .SEQ_FAULT_PC]
    (s.withX n rd v) (s.pcNext n) 1
  bit : u.fld bit n = 1
  cause : u.fld .SEQ_FAULT_PC_CAUSE n = code
  bank : u.fld .SEQ_FAULT_PC_BANK n = (s.seq n).bank % 2
  pc : u.fld .SEQ_FAULT_PC n = (s.seq n).pc % 2048
  log : u.logNew = [⟨3, n, code, code * 65536 + (s.seq n).bank * 4096 + (s.seq n).pc⟩]

/-- R98, R105: a divisor of 0 gives the stated result, sets DIV0, records the fault, and the sequencer goes on.
(Rests on choices of the model: log entry 1.) -/
def DivideByZeroClaim : Prop :=
  ∀ (n : Fin 24) (s : State) (w : Nat), ∀ p ∈ divTable n, s.rs2W n w = 0 → s.Issues n p.2.1 w →
    EndsIn p.1 s fun u => s.FaultsOn u n p.2.1 w (phA w) (p.2.2.2 (s.rs1W n w)).toNat 6 .SEQ_FAULT_DIV0

end Sys2Proof.Machine

/-- The ALU and the immediate instructions, with their frame. -/
def Obligations.AluAndImmediateResults : Prop :=
  Sys2Proof.Machine.AluResultsClaim ∧ Sys2Proof.Machine.ImmediateResultsClaim

namespace Sys2Proof.Machine

/-! ### Phiad: data memory, map memory, special registers, branches (R81 to R105) -/

/-- The effective address of a load or store: rs1 plus the sign-extended IMM18, modulo 2^32 (R99). -/
def State.eaW (s : State) (n w : Nat) : Word := s.rs1W n w + (BitVec.ofNat 18 w).signExtend 32

/-- Another source than its sequencer has written byte `b` of the data memories in sequencer cycle `c` (R87). -/
def State.writtenIn (s : State) (c b : Nat) : Prop := s.dataIn.1 = c ∧ ∃ w ∈ s.dataIn.2, w.1 = b ∧ 0 < w.2

/-- A store of the word `v` at `a` in sequencer cycle `c`: the four bytes, low byte first, but for those that another source
writes in that cycle, whose value stands; every other byte is as before (R16, R87, R320). -/
def State.Stored (s u : State) (a c : Nat) (v : Word) : Prop :=
  ∀ b, (a ≤ b ∧ b < a + 4 ∧ ¬ s.writtenIn c b → u.byte b = v.extractLsb' (8 * (b - a)) 8) ∧
    (¬ (a ≤ b ∧ b < a + 4) ∨ s.writtenIn c b → u.byte b = s.byte b)

/-- R87, R99: LW reads a word of the sequencer's own data memory; SW stores rs1 at its address and changes no other byte, and a byte
that another source writes in the cycle of the store holds that source's value. (Rests on choices of the model: log entry 1.) -/
def DataMemoryLoadStoreClaim : Prop :=
  ∀ (n : Fin 24) (s : State) (w : Nat), s.eaW n w < 1024 →
    (s.Issues n .lw w →
      EndsIn (.lw n) s fun u => s.Writes u n .lw w (phA w) (s.word (dmemAddr n (s.eaW n w).toNat)) 2) ∧
    (s.Issues n .sw w → EndsIn (.sw n) s fun u =>
      s.RunsOn { u with mem := s.mem } n .sw w [] (s.x n) (s.pcNext n) 1 ∧
        s.Stored u (dmemAddr n (s.eaW n w).toNat) (s.issueCycle n .sw w) (s.rdW n w))

/-- The instructions that post a map-memory transaction: kind, and the bytes that it reads and must be aligned to. -/
def mapTable (n : Fin 24) : List (Instr × PhOp × MapKind × Nat) :=
  [(.lmu n, .lmu, .lmu, 2), (.lms n, .lms, .lms, 2), (.lmw n, .lmw, .lmw, 4)]

/-- Sequencer `n` has posted a transaction and runs on: its registers are as before (R90). -/
def State.Posts (s u : State) (n : Nat) (o : PhOp) (w : Nat) (kind : MapKind) (addr input : Nat) : Prop :=
  s.RunsOn (u.setSeq n { u.seq n with mapReq := (s.seq n).mapReq }) n o w [] (s.x n) (s.pcNext n) 1 ∧
    (u.seq n).mapReq = some { kind, rd := phA w, addr, input, pc := (s.seq n).pc, bank := (s.seq n).bank
                              cycle := s.issueCycle n o w } ∧
    u = { s.atIssue n o w with regs := u.regs, seqs := u.seqs }

/-- The descriptor base of a MAP2: rs2 plus 16 times IMM14, modulo 2^32 (R102). -/
def State.baseW (s : State) (n w : Nat) : Word := s.rs2W n w + 16 * (BitVec.ofNat 14 w).zeroExtend 32

/-- R90, R99, R102: an aligned load from MAPM, or a MAP2 with an aligned base in it, posts its transaction and the
sequencer runs on. (Rests on choices of the model: log entries 1 and 18.) -/
def MapMemoryPostsClaim : Prop :=
  ∀ (n : Fin 24) (s : State) (w : Nat),
    (∀ p ∈ mapTable n, s.Issues n p.2.1 w → (s.eaW n w).toNat % p.2.2.2 = 0 → s.eaW n w < 0x40000 →
      EndsIn p.1 s fun u => s.Posts u n p.2.1 w p.2.2.1 (s.eaW n w).toNat 0) ∧
    (s.Issues n .map2 w → (s.baseW n w).toNat % 16 = 0 → s.baseW n w < 0x40000 →
      EndsIn (.map2 n) s fun u => s.Posts u n .map2 w .map2 (s.baseW n w).toNat (s.rs1W n w).toNat)

/-- The address that an instruction of data or map memory uses is none that it may use (R99, R102). -/
def State.badAddress (s : State) (n w : Nat) : PhOp → Prop
  | .lw | .sw => 1024 ≤ (s.eaW n w).toNat
  | .lmu | .lms => (s.eaW n w).toNat % 2 ≠ 0 ∨ 0x40000 ≤ (s.eaW n w).toNat
  | .lmw => (s.eaW n w).toNat % 4 ≠ 0 ∨ 0x40000 ≤ (s.eaW n w).toNat
  | .map2 => (s.baseW n w).toNat % 16 ≠ 0 ∨ 0x40000 ≤ (s.baseW n w).toNat
  | _ => False

/-- The instructions of data and map memory, with the register that an ADDR fault sets to 0: a store has none. -/
def addrTable (n : Fin 24) (w : Nat) : List (Instr × PhOp × Nat) :=
  [(.lw n, .lw, phA w), (.sw n, .sw, 0), (.lmu n, .lmu, phA w), (.lms n, .lms, phA w), (.lmw n, .lmw, phA w),
   (.map2 n, .map2, phA w)]

/-- R99, R105, R106: with FAULT_HALT at 0 an address fault gives 0, records the fault, and the sequencer goes on: no
transaction is posted and no byte stored. -/
def AddressFaultRunsOnClaim : Prop :=
  ∀ (n : Fin 24) (s : State) (w : Nat), ∀ p ∈ addrTable n w, s.badAddress n w p.2.1 → s.fld .SEQ_CTRL_FAULT_HALT n = 0 →
    s.Issues n p.2.1 w → EndsIn p.1 s fun u => s.FaultsOn u n p.2.1 w p.2.2 0 3 .SEQ_FAULT_ADDR

/-- The branches, with what their condition says of rd and rs1, the fields in bits [25:22] and [21:18] (R100). -/
def branchTable (n : Fin 24) : List (Instr × PhOp × (Word → Word → Bool)) :=
  [(.beq n, .beq, fun a b => a == b), (.bne n, .bne, fun a b => a != b), (.blt n, .blt, fun a b => a.slt b),
   (.bge n, .bge, fun a b => b.sle a), (.bltu n, .bltu, fun a b => a.ult b), (.bgeu n, .bgeu, fun a b => b.ule a),
   (.bmlt n, .bmlt, fun a b => (a - b).msb), (.bmge n, .bmge, fun a b => !(a - b).msb)]

end Sys2Proof.Machine

open Sys2Proof Sys2Proof.Machine in
/-- R100: a branch sets PC to its own PC plus OFF14 where its condition holds, and to the next instruction where it does
not; JAL and JALR write PC + 1 to RD and jump. A jump costs 3 cycles. (Rests on choices of the model: log entry 1.) -/
def Obligations.BranchesAndJumps : Prop :=
  ∀ (n : Fin 24) (s : State) (w : Nat),
    let here := BitVec.ofNat 11 (s.seq n).pc
    (∀ p ∈ branchTable n, s.Issues n p.2.1 w → EndsIn p.1 s fun u =>
      if p.2.2 (s.rdW n w) (s.rs1W n w)
      then s.RunsOn u n p.2.1 w [] (s.x n) (here + (BitVec.ofNat 14 w).setWidth 11).toNat 3
      else s.RunsOn u n p.2.1 w [] (s.x n) (s.pcNext n) 1) ∧
    (s.Issues n .jal w → EndsIn (.jal n) s fun u =>
      s.RunsOn u n .jal w [] (s.withX n (phA w) (here + 1).toNat) (here + (BitVec.ofNat 22 w).setWidth 11).toNat 3) ∧
    (s.Issues n .jalr w → EndsIn (.jalr n) s fun u =>
      s.RunsOn u n .jalr w [] (s.withX n (phA w) (here + 1).toNat) ((s.eaW n w).setWidth 11).toNat 3)

namespace Sys2Proof.Machine

/-- A number rounded to the nearest, a half upwards: `q` is the quotient of `a` by `b`. -/
def roundsTo (a b q : Nat) : Prop := 2 * b * q ≤ 2 * a + b ∧ 2 * a + b < 2 * b * (q + 1)

/-- A quotient rounded to the nearest number, at most 0xFFFF_FFFF (R103). -/
def saturates (a b v : Nat) : Prop := ∃ q, roundsTo a b q ∧ v = min q (2 ^ 32 - 1)

end Sys2Proof.Machine

open Sys2Proof Sys2Proof.Machine in
/-- R80, R81, R103: RDS samples in the first event-clock cycle of its issue: TLO, and CYC, which before a boundary of the same sequencer
cycle is still the old one; A2T and T2A convert with the domain's RATE of their issue, rounded and
saturated. (Rests on choices of the model: log entry 1.) -/
def Obligations.ConversionsAndSpecials : Prop :=
  ∀ (n : Fin 24) (s : State) (w : Nat),
    let d := s.fld .SEQ_CTRL_DOMAIN n
    (s.Issues n .rds w → EndsIn (.rds n) s fun u =>
      s.Writes u n .rds w (phA w) (s.special d (phImm w) (2 * s.issueCycle n .rds w) % 2 ^ 32) 1) ∧
    (s.Issues n .rds w → phImm w = 4 →
      s.special d (phImm w) (2 * s.issueCycle n .rds w) = 2 * s.issueCycle n .rds w % 2 ^ 32) ∧
    (s.Issues n .rds w → phImm w = 3 →
      ((∀ b, (s.dom d).boundAt = some b → b ≤ 2 * s.issueCycle n .rds w) →
        s.special d (phImm w) (2 * s.issueCycle n .rds w) = s.fld .AD_CYC d) ∧
      (∀ b, (s.dom d).boundAt = some b → 2 * s.issueCycle n .rds w < b →
        s.special d (phImm w) (2 * s.issueCycle n .rds w) = (s.fld .AD_CYC d + (2 ^ 32 - 1)) % 2 ^ 32)) ∧
    (∀ r, s.rateAt d (2 * s.issueCycle n .a2t w) = r → r ≠ 0 → s.Issues n .a2t w → EndsIn (.a2t n) s fun u =>
      ∃ v, saturates ((s.rs1W n w).toNat * 65536) r v ∧ s.Writes u n .a2t w (phA w) v 18) ∧
    (∀ r, s.rateAt d (2 * s.issueCycle n .t2a w) = r → r ≠ 0 → s.Issues n .t2a w → EndsIn (.t2a n) s fun u =>
      ∃ v, saturates ((s.rs1W n w).toNat * r) 65536 v ∧ s.Writes u n .t2a w (phA w) v 4)

namespace Sys2Proof.Machine

/-- R103, R105: without a rate A2T gives 0xFFFF_FFFF and T2A gives 0, NORATE is set, and the sequencer goes on.
(Rests on choices of the model: log entry 1.) -/
def NoRateFaultClaim : Prop :=
  ∀ (n : Fin 24) (s : State) (w : Nat),
    let d := s.fld .SEQ_CTRL_DOMAIN n
    (s.rateAt d (2 * s.issueCycle n .a2t w) = 0 → s.Issues n .a2t w → EndsIn (.a2t n) s fun u =>
      s.FaultsOn u n .a2t w (phA w) (2 ^ 32 - 1) 7 .SEQ_FAULT_NORATE) ∧
    (s.rateAt d (2 * s.issueCycle n .t2a w) = 0 → s.Issues n .t2a w → EndsIn (.t2a n) s fun u =>
      s.FaultsOn u n .t2a w (phA w) 0 7 .SEQ_FAULT_NORATE)

end Sys2Proof.Machine

/-- LW and SW complete at issue; LMU, LMS, LMW and MAP2 post their transaction. -/
def Obligations.LoadsAndStores : Prop :=
  Sys2Proof.Machine.DataMemoryLoadStoreClaim ∧ Sys2Proof.Machine.MapMemoryPostsClaim

namespace Sys2Proof.Machine

/-! ### Phiad: faults that stop a sequencer, HALT, and map-memory transactions (R85 to R93, R102 to R107, R137) -/

/-- Sequencer `n` has stopped in `st` (R106, R137): no task, no pending tooth event, no wait; its registers hold `xs`, its slots
stay as they are, other sequencers too, and of the memories at most its mode word has changed. A pending swap takes effect. -/
structure State.Stops (s u : State) (n : Nat) (st : SeqState) (xs : Nat → Nat) : Prop where
  state : (u.seq n).state = st
  wait : (u.seq n).wait = .none
  task : u.flag .SEQ_TASK_STAT_IN_TASK n = false
  tooth : u.flag .SEQ_TASK_STAT_TOOTH_PENDING n = false
  xs : ∀ k, u.x n k = xs k
  slots : (u.seq n).slots = (s.seq n).slots
  bank : (u.seq n).bank = if s.flag .SEQ_SWAP_STAT_PENDING n then 1 - (s.seq n).bank else (s.seq n).bank
  swap : u.flag .SEQ_SWAP_STAT_PENDING n = false
  others : ∀ m, m ≠ n → u.seq m = s.seq m
  mem : ∀ b, ¬ (dmemAddr n 1023 ≤ b ∧ b < dmemAddr n 1024) → u.byte b = s.byte b

/-- The core fault `code` of the instruction at PC is recorded (R105). -/
structure State.Records (s u : State) (n code : Nat) (bit : Fld) : Prop where
  bit : u.fld bit n = 1
  cause : u.fld .SEQ_FAULT_PC_CAUSE n = code
  bank : u.fld .SEQ_FAULT_PC_BANK n = (s.seq n).bank % 2
  pc : u.fld .SEQ_FAULT_PC n = (s.seq n).pc % 2048
  log : u.logNew = [⟨3, n, code, code * 65536 + (s.seq n).bank * 4096 + (s.seq n).pc⟩]

/-- R99, R106: with FAULT_HALT at 1 an address fault gives 0, records the fault and stops the sequencer in FAULTED. -/
def AddressFaultHaltsClaim : Prop :=
  ∀ (n : Fin 24) (s : State) (w : Nat), ∀ p ∈ addrTable n w, s.badAddress n w p.2.1 → s.fld .SEQ_CTRL_FAULT_HALT n ≠ 0 →
    s.Issues n p.2.1 w → EndsIn p.1 s fun u =>
      s.Stops u n .faulted (s.withX n p.2.2 0) ∧ s.Records u n 3 .SEQ_FAULT_ADDR

/-- Sequencer `n` can issue, whatever stands at its PC. -/
structure State.CanFetch (s : State) (n : Nat) : Prop where
  sound : s.Sound
  live : s.live = true
  run : (s.seq n).state = .run
  clock : s.seqStopped = false

/-- R85, R93, R105: an illegal word and a double-bit program error have no effect but to record the fault and stop the
sequencer in FAULTED, at the PC of the word; the error stays in the word. A single-bit error only marks the word. -/
def FetchFaultsClaim : Prop :=
  ∀ (n : Fin 24) (s : State), s.CanFetch n →
    (Tab.get 0 s.progErr (s.pcAddr n) ≠ 2 → phDecode (s.word (s.pcAddr n)) = none → EndsIn (.illegal n) s fun u =>
      s.Stops u n .faulted (s.x n) ∧ s.Records u n 1 .SEQ_FAULT_ILLEGAL ∧ (u.seq n).pc = (s.seq n).pc ∧
        u.progErr = s.progErr) ∧
    (EndsIn (.progEcc ⟨n, true⟩) s fun u =>
      s.Stops u n .faulted (s.x n) ∧ s.Records u n 2 .SEQ_FAULT_PROG_ECC ∧ (u.seq n).pc = (s.seq n).pc ∧
        Tab.get 0 u.progErr (s.pcAddr n) = 2) ∧
    EndsIn (.progEcc ⟨n, false⟩) s fun u => u = { s with progErr := u.progErr } ∧
      ∀ a, Tab.get 0 u.progErr a =
        if a = s.pcAddr n then max 1 (Tab.get 0 s.progErr a) else Tab.get 0 s.progErr a

/-- R85: a single-bit error in the word of an instruction is corrected as it issues and counted in CNT_ECC; it stays in the word, and
the instruction has its effect. Without one CNT_ECC is as before. -/
def SingleBitErrorsClaim : Prop :=
  ∀ (n : Fin 24) (s : State) (w : Nat), ∀ p ∈ aluTable n, s.Issues n p.2.1 w → EndsIn p.1 s fun u =>
    s.Writes u n p.2.1 w (phA w) (p.2.2 (s.rs1W n w) (s.rs2W n w) (s.rdW n w)).toNat 1 ∧ u.progErr = s.progErr ∧
    u.fld .SEQ_CNT_ECC n = if Tab.get 0 s.progErr (s.pcAddr n) = 1 then min (s.fld .SEQ_CNT_ECC n + 1) (2 ^ 32 - 1)
      else s.fld .SEQ_CNT_ECC n

/-- R137: HALT stops the sequencer in HALTED, with PC at the next instruction and no entry of the error log. -/
def HaltStopsClaim : Prop :=
  ∀ (n : Fin 24) (s : State) (w : Nat), s.Issues n .halt w → EndsIn (.halt n) s fun u =>
    s.Stops u n .halted (s.x n) ∧ (u.seq n).pc = s.pcNext n ∧ u.logNew = []

/-- The transaction `r` of sequencer `n` is the next that MAPM starts (R90). -/
structure State.MapTurn (s : State) (n : Nat) (r : MapReq) : Prop where
  sound : s.Sound
  live : s.live = true
  clock : s.seqStopped = false
  req : (s.seq n).mapReq = some r
  turn : s.mapTurn = some n

/-- The transaction has delivered `v` (R90): it starts in its cycle, to which time passes, its register holds the result, MAPM turns to
the sequencer after `n` and starts nothing else in that cycle, and nothing else changes but the registers that `regs` may name. -/
structure State.MapDelivers (s u : State) (n : Nat) (r : MapReq) (v : Nat) : Prop where
  parts : u = { s.passTo (s.mapStart r) with
    regs := u.regs, seqs := u.seqs, mapm := { s.mapm with next := (n + 1) % 24, free := s.mapStart r + 1 } }
  others : ∀ m, m ≠ n → u.seq m = s.seq m
  xs : ∀ k, u.x n k = s.withX n r.rd v k
  seq : u.seq n = { s.seq n with
    xs := (u.seq n).xs, ready := (u.seq n).ready, mapReq := none, mapFree := s.mapStart r + 1 }
  ready : r.rd ≠ 0 → Tab.get 0 (u.seq n).ready r.rd = s.mapStart r + r.kind.lat

/-- R90, R91, R99: a transaction in its turn delivers what it reads: LMU a zero-extended half-word, LMS a sign-extended one,
LMW a word, two cycles after its start; every corrected 64-bit word counts in MAPM_ECC_CNT.CORR. -/
def MapTransactionsClaim : Prop :=
  ∀ (n : Fin 24) (s : State) (r : MapReq), s.MapTurn n r →
    let half := BitVec.ofNat 16 (s.half (mapmAddr r.addr))
    (r.kind = .lmu → EndsIn (.mapmTransaction n .clean) s fun u => s.MapDelivers u n r half.toNat ∧ u.regs = s.regs) ∧
    (r.kind = .lms → EndsIn (.mapmTransaction n .clean) s fun u =>
      s.MapDelivers u n r (half.signExtend 32).toNat ∧ u.regs = s.regs) ∧
    (r.kind = .lmw → EndsIn (.mapmTransaction n .clean) s fun u =>
      s.MapDelivers u n r (s.word (mapmAddr r.addr)) ∧ u.regs = s.regs) ∧
    (∀ k : Fin 16, r.kind = .lmw → EndsIn (.mapmTransaction n (.corrected k)) s fun u =>
      s.MapDelivers u n r (s.word (mapmAddr r.addr)) ∧
        u.fld .MAPM_ECC_CNT_CORR = min (s.fld .MAPM_ECC_CNT_CORR + k) (2 ^ Fld.width .MAPM_ECC_CNT_CORR - 1) ∧
        ∀ f i, f ≠ .MAPM_ECC_CNT_CORR → u.fld f i = s.fld f i)

/-- A map that MAP2 can read (R101, R102): a legal header, an array inside MAPM, and breakpoints that ascend. -/
structure State.MapAt (s : State) (base nx ny : Nat) : Prop where
  header : s.mapHeader base = true
  countX : s.mapHalf base = nx
  countY : s.mapHalf (base + 2) = ny
  room : base + 16 + 2 * nx + 2 * ny + 2 * nx * ny ≤ 0x40000
  xs : ∀ k, k + 1 < nx → s.mapHalf (base + 16 + 2 * k) < s.mapHalf (base + 16 + 2 * (k + 1))
  ys : ∀ k, k + 1 < ny → s.mapHalf (base + 16 + 2 * nx + 2 * k) < s.mapHalf (base + 16 + 2 * nx + 2 * (k + 1))

/-- Point (i, j) of a map, as a signed or an unsigned half-word (R101). -/
def State.mapPoint (s : State) (base nx ny i j : Nat) : Int :=
  let h := BitVec.ofNat 16 (s.mapHalf (base + 16 + 2 * nx + 2 * ny + 2 * (j * nx + i)))
  if s.mapHalf (base + 4) = 1 then h.toInt else h.toNat

/-- The segment of an axis for an input, and the fraction in it (R102): breakpoint `k` of `n` is `bp k`; the input is clamped to the
range of the breakpoints, and the segment is the last but one at most. -/
def inSegment (bp : Nat → Nat) (n x i f : Nat) : Prop :=
  let v := max (bp 0) (min (bp (n - 1)) x)
  i + 2 ≤ n ∧ bp i ≤ v ∧ (v < bp (i + 1) ∨ i + 2 = n) ∧ f = (v - bp i) * 65536 / (bp (i + 1) - bp i)

/-- R102: MAP2 clamps its inputs, finds their segments, and gives the interpolation between the four corners, in Q16.16, rounded.
(Rests on choices of the model: log entries 18 and 1.) -/
def MapInterpolatesClaim : Prop :=
  ∀ (n : Fin 24) (s : State) (r : MapReq) (nx ny i j fx fy : Nat), s.MapTurn n r → r.kind = .map2 → s.MapAt r.addr nx ny →
    inSegment (fun k => s.mapHalf (r.addr + 16 + 2 * k)) nx (r.input % 65536) i fx →
    inSegment (fun k => s.mapHalf (r.addr + 16 + 2 * nx + 2 * k)) ny (r.input / 65536) j fy →
    let p := s.mapPoint r.addr nx ny
    let r0 := p i j * (65536 - fx) + p (i + 1) j * fx
    let r1 := p i (j + 1) * (65536 - fx) + p (i + 1) (j + 1) * fx
    EndsIn (.mapmTransaction n .clean) s fun u =>
      s.MapDelivers u n r (BitVec.ofInt 32 ((r0 * (65536 - fy) + r1 * fy + 32768) / 65536)).toNat ∧ u.regs = s.regs

/-- The fault of a transaction (R91, R102, R105): its code and its bit. A double-bit error comes first; then a MAP2 checks its header, its
extent, and then its breakpoints in the segments of its inputs: the segment that an x input selects between a first and a last
breakpoint in order, or any segment where none of the axis ascends. -/
def State.mapFails (s : State) (r : MapReq) (e : Ecc) (code : Nat) (bit : Fld) : Prop :=
  let nx := s.mapHalf r.addr
  let ny := s.mapHalf (r.addr + 2)
  let xs := fun k => s.mapHalf (r.addr + 16 + 2 * k)
  let ys := fun k => s.mapHalf (r.addr + 16 + 2 * nx + 2 * k)
  let room := r.addr + 16 + 2 * nx + 2 * ny + 2 * nx * ny ≤ 0x40000
  (∃ a k, e = .double a k ∧ code = 5 ∧ bit = .SEQ_FAULT_MAP_ECC) ∨
  (e = .clean ∧ r.kind = .map2 ∧
    ((s.mapHeader r.addr = false ∧ code = 4 ∧ bit = .SEQ_FAULT_MAP_FMT) ∨
     (s.mapHeader r.addr = true ∧ ¬ room ∧ code = 3 ∧ bit = .SEQ_FAULT_ADDR) ∨
     (s.mapHeader r.addr = true ∧ room ∧ xs 0 ≤ xs (nx - 1) ∧ ys 0 ≤ ys (ny - 1) ∧
      (∃ i, i + 2 ≤ nx ∧ (∀ k, k + 2 ≤ nx → i < k → max (xs 0) (min (xs (nx - 1)) (r.input % 65536)) < xs k) ∧
        xs i ≤ max (xs 0) (min (xs (nx - 1)) (r.input % 65536)) ∧ xs (i + 1) ≤ xs i) ∧ code = 4 ∧ bit = .SEQ_FAULT_MAP_FMT) ∨
     (s.mapHeader r.addr = true ∧ room ∧ ((∀ i, i + 2 ≤ nx → xs (i + 1) ≤ xs i) ∨ ∀ j, j + 2 ≤ ny → ys (j + 1) ≤ ys j) ∧
      code = 4 ∧ bit = .SEQ_FAULT_MAP_FMT)))

/-- R91, R102, R105, R106: a transaction that fails gives 0 and records its fault at the instruction that posted it. With FAULT_HALT at 0 the
sequencer goes on; otherwise it stops in FAULTED. (Rests on choices of the model: log entries 18 and 1.) -/
def MapFaultsClaim : Prop :=
  ∀ (n : Fin 24) (s : State) (r : MapReq) (e : Ecc) (code : Nat) (bit : Fld), s.MapTurn n r → s.mapFails r e code bit →
    EndsIn (.mapmTransaction n e) s fun u =>
      u.fld bit n = 1 ∧ u.fld .SEQ_FAULT_PC_CAUSE n = code ∧ u.fld .SEQ_FAULT_PC n = r.pc % 2048 ∧
      u.fld .SEQ_FAULT_PC_BANK n = r.bank % 2 ∧ u.logNew = [⟨3, n, code, code * 65536 + r.bank * 4096 + r.pc⟩] ∧
      (∀ a k, e = .double a k →
        u.fld .MAPM_ECC_ADDR = (if r.kind = .map2 then a.toNat else r.addr) / 8 * 8 % 2 ^ Fld.width .MAPM_ECC_ADDR ∧
        u.fld .MAPM_ECC_CNT_CORR = min (s.fld .MAPM_ECC_CNT_CORR + k) (2 ^ Fld.width .MAPM_ECC_CNT_CORR - 1)) ∧
      (s.fld .SEQ_CTRL_FAULT_HALT n = 0 → s.MapDelivers { u with logNew := [] } n r 0) ∧
      (s.fld .SEQ_CTRL_FAULT_HALT n ≠ 0 → s.Stops u n .faulted (s.withX n r.rd 0))

end Sys2Proof.Machine

/-- The core faults. DIV0 and NORATE let the program go on; ADDR goes on or stops as SEQ_CFG asks; an illegal word and a
double-bit error stop the sequencer. -/
def Obligations.CoreFaults : Prop :=
  Sys2Proof.Machine.DivideByZeroClaim ∧ Sys2Proof.Machine.NoRateFaultClaim ∧ Sys2Proof.Machine.AddressFaultRunsOnClaim ∧ Sys2Proof.Machine.AddressFaultHaltsClaim ∧ Sys2Proof.Machine.FetchFaultsClaim ∧ Sys2Proof.Machine.SingleBitErrorsClaim

/-- The transactions of the map memory. (Rests on choices of the model: log entry 1.) -/
def Obligations.MapTransactions : Prop :=
  Sys2Proof.Machine.MapTransactionsClaim ∧ Sys2Proof.Machine.MapInterpolatesClaim ∧ Sys2Proof.Machine.MapFaultsClaim

namespace Sys2Proof.Machine

/-! ### Phiad: slots (R104, R109 to R121, R133) -/

/-- Slot `k` is the lowest free slot of sequencer `n` (R109). -/
def State.LowestFree (s : State) (n k : Nat) : Prop :=
  k < 64 ∧ (s.slot n k).armed = false ∧ ∀ j, j < k → (s.slot n j).armed = true

/-- Sequencer `n` as in `q` but for its slots, its state and its wait. -/
def Seq.apartSlots (r q : Seq) : Seq := { r with slots := q.slots, state := q.state, wait := q.wait }

/-- A slot armed as `x` says, in the cycle of the issue (R110, R111, R145): the generation counts on, and the reference is the value of
the word that is evaluated then, formed 24 ns before (R143), or of the first later one in which the angle is valid, if it has one. -/
def State.armedAs (s : State) (n k : Nat) (x : Slot) : Slot :=
  { x with armed := true, gen := ((s.slot n k).gen + 1) % 256
           ref := s.firstRead (s.fld .SEQ_CTRL_DOMAIN n) x.kind.timed (s.tnow - 24) }

/-- A slot freed in the present cycle (R109, R110): it keeps its generation, and can be taken from the following sequencer cycle on. -/
def State.freed (s : State) (n k : Nat) : Slot := { gen := (s.slot n k).gen, freeFrom := s.tnow / 2 + 1 }

/-- Instruction `o` has armed slot `k` alone as `x` says, written the slot's handle (R104) to RD where `rd` is given, and
run on; SLOTS.PEAK follows the slots in use. -/
structure State.Arms (s u : State) (n : Nat) (o : PhOp) (w k : Nat) (x : Slot) (rd : Nat) : Prop where
  run : s.RunsOn (u.setSeq n ((u.seq n).apartSlots (s.seq n))) n o w [.SEQ_SLOTS_PEAK]
    (s.withX n rd ((s.armedAs n k x).gen * 256 + k)) (s.pcNext n) 1
  parts : u = { s.atIssue n o w with regs := u.regs, seqs := u.seqs }
  slot : u.slot n k = (s.atIssue n o w).armedAs n k x
  rest : ∀ j, j ≠ k → u.slot n j = s.slot n j
  peak : u.fld .SEQ_SLOTS_PEAK n = max (s.fld .SEQ_SLOTS_PEAK n) (u.inUse n) % 2 ^ Fld.width .SEQ_SLOTS_PEAK

/-- The slot that an ARM or ARMT word describes (R104, R113): kind by ACT, target rs1, and its channel, basin or flag. -/
def armWords (timed : Bool) (act : Nat) (target ch basin flag : Nat) : Option Slot :=
  match act, timed with
  | 0, false => some { kind := .aSet, target, arg := ch }
  | 1, false => some { kind := .aClear, target, arg := ch }
  | 2, false => some { kind := .aOpen, target, arg := basin }
  | 3, false => some { kind := .aClose, target, arg := basin }
  | 4, false => some { kind := .aFlag, target, arg := flag }
  | 0, true => some { kind := .tSet, target, arg := ch }
  | 1, true => some { kind := .tClear, target, arg := ch }
  | 2, true => some { kind := .tOpen, target, arg := basin }
  | 3, true => some { kind := .tClose, target, arg := basin }
  | 4, true => some { kind := .tFlag, target, arg := flag }
  | _, _ => none

/-- R104, R110, R113, R145: ARM and ARMT arm the lowest free slot as their fields say and write its handle to RD.
(Rests on choices of the model: log entries 1 and 9.) -/
def ArmInstructionsClaim : Prop :=
  ∀ (n : Fin 24) (s : State) (w k : Nat) (x : Slot), s.LowestFree n k →
    (phAct w ≤ 1 → s.owner (phCh w) = some n.val) →
    (s.Issues n .arm w → armWords false (phAct w) (s.rs1W n w).toNat (phCh w) ((s.rs2W n w).toNat % 512) (phFl w) = some x →
      EndsIn (.arm n) s fun u => s.Arms u n .arm w k x (phA w) ∧ (u.seq n).state = .run) ∧
    (s.Issues n .armt w → armWords true (phAct w) (s.rs1W n w).toNat (phCh w) ((s.rs2W n w).toNat % 512) (phFl w) = some x →
      EndsIn (.armt n) s fun u => s.Arms u n .armt w k x (phA w) ∧ (u.seq n).state = .run)

/-- R115 to R118: PULSE with NOLIMIT arms its start slot; otherwise the lowest free slot as its start and the next as its
limit, which waits for the start. The duration is at least 8 ns. (Rests on choices of the model: log entries 1 and 9.) -/
def PulseInstructionClaim : Prop :=
  ∀ (n : Fin 24) (s : State) (w k : Nat), s.Issues n .pulse w → s.LowestFree n k → s.owner (phCh w) = some n.val →
    let start : Slot := { kind := .pulseStart, target := (s.rs1W n w).toNat, arg := phCh w, dur := max 8 (s.rs2W n w).toNat }
    (bitN w 0 = true → EndsIn (.pulse n) s fun u => s.Arms u n .pulse w k start 0 ∧ (u.seq n).state = .run) ∧
    (∀ j, bitN w 0 = false → k < j → j < 64 → (s.slot n j).armed = false → (∀ i, k < i → i < j → (s.slot n i).armed = true) →
      1 ≤ (s.rdW n w - s.rs1W n w).toNat → (s.rdW n w - s.rs1W n w).toNat < 2 ^ 31 →
      EndsIn (.pulse n) s fun u =>
        u.slot n k = { (s.atIssue n .pulse w).armedAs n k start with partner := some j } ∧
        u.slot n j = (s.atIssue n .pulse w).armedAs n j
          { kind := .pulseLimit, target := (s.rdW n w).toNat, arg := phCh w, partner := some k, waiting := true } ∧
        (∀ i, i ≠ k → i ≠ j → u.slot n i = s.slot n i) ∧
        s.RunsOn (u.setSeq n ((u.seq n).apartSlots (s.seq n))) n .pulse w [.SEQ_SLOTS_PEAK] (s.x n) (s.pcNext n) 1)

/-- R112, R117: an arming instruction on a channel that the sequencer does not own, or with a limit out of range, arms nothing: it sets
its task fault, or both where both hold, and ARM and ARMT write 0xFFFF_FFFF to RD. -/
def ArmingRefusedClaim : Prop :=
  ∀ (n : Fin 24) (s : State) (w : Nat),
    (∀ p ∈ [(Instr.arm n, PhOp.arm), (Instr.armt n, PhOp.armt)], s.Issues n p.2 w → phAct w ≤ 1 →
      s.owner (phCh w) ≠ some n.val → EndsIn p.1 s fun u =>
        s.RunsOn u n p.2 w [.SEQ_TASK_FLT_BAD_CHANNEL] (s.withX n (phA w) (2 ^ 32 - 1)) (s.pcNext n) 1 ∧
          u.fld .SEQ_TASK_FLT_BAD_CHANNEL n = 1 ∧ ∀ k, u.slot n k = s.slot n k) ∧
    (s.Issues n .pulse w →
      let foreign := s.owner (phCh w) ≠ some n.val
      let badLimit := bitN w 0 = false ∧ (s.rdW n w = s.rs1W n w ∨ 2 ^ 31 ≤ (s.rdW n w - s.rs1W n w).toNat)
      foreign ∨ badLimit → EndsIn (.pulse n) s fun u =>
        s.RunsOn u n .pulse w [.SEQ_TASK_FLT_BAD_CHANNEL, .SEQ_TASK_FLT_BAD_LIMIT] (s.x n) (s.pcNext n) 1 ∧
        (∀ k, u.slot n k = s.slot n k) ∧
        (foreign → u.fld .SEQ_TASK_FLT_BAD_CHANNEL n = 1) ∧
        (¬ foreign → u.fld .SEQ_TASK_FLT_BAD_CHANNEL n = s.fld .SEQ_TASK_FLT_BAD_CHANNEL n) ∧
        (badLimit → u.fld .SEQ_TASK_FLT_BAD_LIMIT n = 1) ∧
        (¬ badLimit → u.fld .SEQ_TASK_FLT_BAD_LIMIT n = s.fld .SEQ_TASK_FLT_BAD_LIMIT n))

/-- The instructions that need free slots: how many, and the register that a skip sets to 0xFFFF_FFFF; PULSE has none. -/
def slotTable (n : Fin 24) (w : Nat) : List (Instr × PhOp × Nat × Nat) :=
  [(.arm n, .arm, 1, phA w), (.armt n, .armt, 1, phA w), (.pulse n, .pulse, if bitN w 0 then 1 else 2, 0),
   (.waita n, .waita, 1, phA w), (.waitt n, .waitt, 1, phA w)]

/-- Nothing but the slots stands in the way of an arming instruction. -/
def State.mayArm (s : State) (n w : Nat) : PhOp → Prop
  | .arm | .armt => phAct w ≤ 1 → s.owner (phCh w) = some n
  | .pulse => s.owner (phCh w) = some n ∧
      (bitN w 0 = false → 1 ≤ (s.rdW n w - s.rs1W n w).toNat ∧ (s.rdW n w - s.rs1W n w).toNat < 2 ^ 31)
  | _ => True

/-- R128, R129, R133: with too few free slots an arming instruction is skipped whole where no budget clock runs or its allowance is used
up: nothing is armed, SLOT_EXHAUST is set and counted; in a task whose clock has not expired, as one under an allowance of 0 never
does, it stalls at its PC instead. -/
def SlotsExhaustedClaim : Prop :=
  ∀ (n : Fin 24) (s : State) (w : Nat), ∀ p ∈ slotTable n w, s.Issues n p.2.1 w → s.mayArm n w p.2.1 →
    ((upto 64).filter fun k => !(s.slot n k).armed).length < p.2.2.1 →
    let ends := (s.seq n).taskStart + s.fld .SEQ_BUDGET_ALLOW n
    (s.flag .SEQ_TASK_STAT_IN_TASK n = false ∨
        (s.fld .SEQ_BUDGET_ALLOW n ≠ 0 ∧ ((s.seq n).expired = true ∨ ends ≤ s.issueCycle n p.2.1 w)) →
      EndsIn p.1 s fun u =>
        s.RunsOn u n p.2.1 w [.SEQ_TASK_FLT_SLOT_EXHAUST, .SEQ_CNT_EXHAUST] (s.withX n p.2.2.2 (2 ^ 32 - 1)) (s.pcNext n) 1 ∧
        u.fld .SEQ_TASK_FLT_SLOT_EXHAUST n = 1 ∧
        u.fld .SEQ_CNT_EXHAUST n = min (s.fld .SEQ_CNT_EXHAUST n + 1) (2 ^ Fld.width .SEQ_CNT_EXHAUST - 1)) ∧
    (s.flag .SEQ_TASK_STAT_IN_TASK n = true →
      s.fld .SEQ_BUDGET_ALLOW n = 0 ∨ ((s.seq n).expired = false ∧ s.issueCycle n p.2.1 w < ends) → EndsIn p.1 s fun u =>
        (u.seq n).state = .stall ∧ (u.seq n).slotStall = true ∧ (u.seq n).pc = (s.seq n).pc ∧
          (∀ k, u.slot n k = s.slot n k) ∧ (∀ k, u.x n k = s.x n k) ∧
          (s.atIssue n p.2.1 w).Within u n [])

/-- The channel that an ended pulse leaves, and the channels, holds and fields of everything else, are as before. -/
def State.keepsChannels (s u : State) : Prop := u.chans = s.chans ∧ ∀ c, u.level c = s.level c

/-- R104, R119: CANCEL frees the armed slots that it names, and RD receives their number, readable after 4 cycles. A slot of
no pulse is freed alone, and its channel keeps its level. -/
def CancelInstructionsClaim : Prop :=
  ∀ (n : Fin 24) (s : State) (w : Nat), (∀ k, k < 64 → (s.slot n k).partner = none ∧ (s.slot n k).kind ≠ .pulseEnd) →
    let named : PhOp → Slot → Nat → Bool := fun o x k => match o with
      | .cancelHandle => x.gen * 256 + k == (s.rs1W n w).toNat
      | .cancelChannel => x.kind.onChannel && x.arg == phCh w
      | _ => true
    ∀ p ∈ [(Instr.cancelHandle n, PhOp.cancelHandle), (.cancelChannel n, .cancelChannel), (.cancelAll n, .cancelAll)],
      s.Issues n p.2 w → EndsIn p.1 s fun u =>
        (∀ k, k < 64 → u.slot n k = if (s.slot n k).armed && named p.2 (s.slot n k) k 
          then (s.atIssue n p.2 w).freed n k else s.slot n k) ∧
        s.RunsOn (u.setSeq n { u.seq n with slots := (s.seq n).slots }) n p.2 w []
          (s.withX n (phA w) ((upto 64).filter fun k => (s.slot n k).armed && named p.2 (s.slot n k) k).length) (s.pcNext n) 1 ∧
        s.keepsChannels u

/-- R116, R119, R120: CANCEL of a pulse by the handle of either slot frees both and counts 2; once the pulse has started, its
channel goes inactive. -/
def CancelPulseClaim : Prop :=
  ∀ (n : Fin 24) (s : State) (w k j c : Nat), s.Issues n .cancelHandle w → k < 64 → j < 64 → j ≠ k → c < 96 →
    (s.slot n k).armed = true → (s.slot n j).armed = true → (s.slot n k).partner = some j → (s.slot n j).partner = some k →
    (s.slot n k).arg = c → (s.rs1W n w).toNat = (s.slot n k).gen * 256 + k →
    EndsIn (.cancelHandle n) s fun u =>
      u.slot n k = (s.atIssue n .cancelHandle w).freed n k ∧ u.slot n j = (s.atIssue n .cancelHandle w).freed n j ∧
      (∀ i, i ≠ k → i ≠ j → i < 64 → u.slot n i = s.slot n i) ∧ (∀ i, u.x n i = s.withX n (phA w) 2 i) ∧
      (u.seq n).pc = s.pcNext n ∧
      ((s.slot n k).kind = .pulseEnd ∨ (s.slot n j).kind = .pulseEnd → u.level c = false) ∧
      ((s.slot n k).kind ≠ .pulseEnd → (s.slot n j).kind ≠ .pulseEnd → s.keepsChannels u)

end Sys2Proof.Machine

/-- ARM, ARMT and PULSE arm slots, refuse what R112 and R117 name, and without a free slot stall or are skipped. -/
def Obligations.SlotsArmed : Prop :=
  Sys2Proof.Machine.ArmInstructionsClaim ∧ Sys2Proof.Machine.PulseInstructionClaim ∧ Sys2Proof.Machine.ArmingRefusedClaim ∧ Sys2Proof.Machine.SlotsExhaustedClaim

/-- CANCEL by handle, of a channel and of everything, and of a pulse under way. -/
def Obligations.Cancels : Prop :=
  Sys2Proof.Machine.CancelInstructionsClaim ∧ Sys2Proof.Machine.CancelPulseClaim

namespace Sys2Proof.Machine

/-! ### Phiad: waits and tasks (R122 to R132) -/

/-- Sequencer `n` has entered WAIT by instruction `o` for `wt`: CNT_CYC has counted up to its issue (R108), and nothing but its counters
and its fields in `fs` differs. -/
structure State.EntersWait (s v : State) (n : Nat) (o : PhOp) (w : Nat) (fs : List Fld) (wt : Wait) : Prop where
  within : (s.atIssue n o w).Within v n (.SEQ_CNT_CYC :: fs)
  cycles : v.fld .SEQ_CNT_CYC n =
    min (s.fld .SEQ_CNT_CYC n + ((s.atIssue n o w).tnow / 2 + 1 - (s.seq n).counted)) (2 ^ 32 - 1)
  seq : v.seq n = { s.seq n with
    state := .wait, wait := wt, pc := s.pcNext n, nextIssue := s.issueCycle n o w + 1, counted := (v.seq n).counted
    stallCounted := (v.seq n).stallCounted, waite := none, safeAt := none }

/-- A wait of sequencer `n` is over, or was at once: it runs, `v` is in register `rd`, and nothing but its counters and its
fields in `fs` differs. -/
structure State.Resumes (s u : State) (n rd v : Nat) (fs : List Fld) : Prop where
  within : s.Within u n fs
  state : (u.seq n).state = .run
  wait : (u.seq n).wait = .none
  xs : ∀ k, u.x n k = s.withX n rd v k
  slots : (u.seq n).slots = (s.seq n).slots
  bank : (u.seq n).bank = (s.seq n).bank

/-- R124, R145, R184: WAITA and WAITT arm the lowest free slot with rs1 as its target and wait for it; a mode change that the
sequencer owes it applies by its row of R184. (Rests on choices of the model: log entries 1 and 9.) -/
def WaitForSlotClaim : Prop :=
  ∀ (n : Fin 24) (s : State) (w k : Nat), s.LowestFree n k →
    ∀ p ∈ [(Instr.waita n, PhOp.waita, SlotKind.aWake), (.waitt n, .waitt, .tWake)], s.Issues n p.2.1 w →
      EndsIn p.1 s fun u => ∃ v, u = v.enterWait n (.slot (phA w) k) ∧
        s.Arms v n p.2.1 w k { kind := p.2.2, target := (s.rs1W n w).toNat } 0 ∧
        (u.seq n).state = .wait ∧ (u.seq n).wait = .slot (phA w) k

/-- The fields of a task (R128, R142). -/
def taskFields : List Fld :=
  [.SEQ_TASK_STAT_IN_TASK, .SEQ_TASK_STAT_YIELDED, .SEQ_TASK_STAT_TOOTH_PENDING, .SEQ_TASK_STAT_COALESCE, .SEQ_TASK_MAX]

/-- TASK_MAX after a task that ends in cycle `c`: the longest task so far (R128). -/
def State.taskMax (s : State) (n c : Nat) : Nat :=
  if s.flag .SEQ_TASK_STAT_IN_TASK n then max (s.fld .SEQ_TASK_MAX n) (min (c - (s.seq n).taskStart) (2 ^ 32 - 1))
  else s.fld .SEQ_TASK_MAX n

/-- R125, R128, R130: WAITE TOOTH ends the task. With a tooth event pending it takes that event at once: RD receives its
word with the coalesced count, and a new task begins; without one the sequencer waits. (Rests on choices of the model: log entry 16.) -/
def WaitForToothClaim : Prop :=
  ∀ (n : Fin 24) (s : State) (w : Nat), s.Issues n .waiteTooth w →
    let c := s.issueCycle n .waiteTooth w
    (s.flag .SEQ_TASK_STAT_TOOTH_PENDING n = false → EndsIn (.waiteTooth n) s fun u => ∃ v,
      u = (v.modeSettle n).swapSettle n ∧ s.EntersWait v n .waiteTooth w taskFields (.tooth (phA w)) ∧
        v.flag .SEQ_TASK_STAT_IN_TASK n = false ∧ v.fld .SEQ_TASK_MAX n = s.taskMax n c % 2 ^ 32) ∧
    (s.flag .SEQ_TASK_STAT_TOOTH_PENDING n = true → EndsIn (.waiteTooth n) s fun u => ∃ v, u = v.swapSettle n ∧
      (s.atIssue n .waiteTooth w).Resumes v n (phA w) (((s.seq n).tooth + 65536 * s.fld .SEQ_TASK_STAT_COALESCE n) % 2 ^ 32) taskFields ∧
        v.flag .SEQ_TASK_STAT_TOOTH_PENDING n = false ∧ v.fld .SEQ_TASK_STAT_COALESCE n = 0 ∧
        v.flag .SEQ_TASK_STAT_IN_TASK n = true ∧ v.flag .SEQ_TASK_STAT_YIELDED n = false ∧
        v.fld .SEQ_TASK_MAX n = s.taskMax n c % 2 ^ 32 ∧ (v.seq n).taskStart = c ∧ (v.seq n).pc = s.pcNext n)

/-- R126, R142: WAITE on an ICU line whose target names the sequencer takes an asserted line at once, with RD = 1, and waits
for any other; on a line that does not name it BAD_WAIT is set and RD is 0. -/
def WaitForLineClaim : Prop :=
  ∀ (n : Fin 24) (s : State) (w : Nat), s.Issues n .waiteIcu w →
    let k := phImm14 w
    let mine := s.fld .ICU_TGT_TYPE k = 6 ∧ s.fld .ICU_TGT_IDX k = n
    (¬ mine → EndsIn (.waiteIcu n) s fun u => ∃ v, u = v.swapSettle n ∧
      (s.atIssue n .waiteIcu w).Resumes v n (phA w) 0 [.SEQ_TASK_FLT_BAD_WAIT] ∧
      v.fld .SEQ_TASK_FLT_BAD_WAIT n = 1 ∧ (v.seq n).pc = s.pcNext n) ∧
    (mine → s.source k = true → EndsIn (.waiteIcu n) s fun u => ∃ v, u = v.swapSettle n ∧
      (s.atIssue n .waiteIcu w).Resumes v n (phA w) 1 [] ∧ (v.seq n).pc = s.pcNext n) ∧
    (mine → s.source k = false → EndsIn (.waiteIcu n) s fun u => ∃ v, u = (v.modeSettle n).swapSettle n ∧
      s.EntersWait v n .waiteIcu w [] (.icu (phA w) k))

/-- FENCE_DONE of a source as 16 bits; a number that names no source reads 0. -/
def State.doneW (s : State) (k : Nat) : BitVec 16 := if k < 56 then BitVec.ofNat 16 (s.fld .FENCE_DONE k) else 0

/-- R127: WAITE FENCE completes at once where FENCE_DONE lies at or past the token, WAITE FLAG where a flag of its mask is
1 or the mask is 0; WAITE EPOCH waits. -/
def WaitForFenceFlagEpochClaim : Prop :=
  ∀ (n : Fin 24) (s : State) (w : Nat),
    let k := phImm14 w
    let tok := BitVec.ofNat 16 (s.x n (phB w))
    let got := BitVec.ofNat 16 (s.fld .SEQ_FLAGS n) &&& tok
    (s.Issues n .waiteFence w → (s.doneW k - tok).msb = false → EndsIn (.waiteFence n) s fun u => ∃ v, u = v.swapSettle n ∧
      (s.atIssue n .waiteFence w).Resumes v n (phA w) (s.doneW k).toNat [] ∧ (v.seq n).pc = s.pcNext n) ∧
    (s.Issues n .waiteFence w → (s.doneW k - tok).msb = true → EndsIn (.waiteFence n) s fun u => ∃ v,
      u = (v.modeSettle n).swapSettle n ∧ s.EntersWait v n .waiteFence w [] (.fence (phA w) k tok.toNat)) ∧
    (s.Issues n .waiteFlag w → tok = 0 ∨ got ≠ 0 → EndsIn (.waiteFlag n) s fun u => ∃ v, u = v.swapSettle n ∧
      (s.atIssue n .waiteFlag w).Resumes v n (phA w) got.toNat [.SEQ_FLAGS] ∧ (v.seq n).pc = s.pcNext n ∧
        v.fld .SEQ_FLAGS n = (BitVec.ofNat 16 (s.fld .SEQ_FLAGS n) &&& ~~~tok).toNat) ∧
    (s.Issues n .waiteFlag w → tok ≠ 0 → got = 0 → EndsIn (.waiteFlag n) s fun u => ∃ v,
      u = (v.modeSettle n).swapSettle n ∧ s.EntersWait v n .waiteFlag w [] (.flag (phA w) tok.toNat)) ∧
    (s.Issues n .waiteEpoch w → EndsIn (.waiteEpoch n) s fun u => ∃ v,
      u = (v.modeSettle n).swapSettle n ∧ s.EntersWait v n .waiteEpoch w [] (.epoch (phA w)))

/-- The sequencers' clock runs. -/
structure State.SeqLive (s : State) : Prop where
  sound : s.Sound
  live : s.live = true
  clock : s.seqStopped = false

end Sys2Proof.Machine

open Sys2Proof Sys2Proof.Machine in
/-- R123, R125 to R128: a WAITE completes when its condition has become true, with its value in RD; while it has not, nothing
happens. (Rests on choices of the model: log entry 50.) -/
def Obligations.WaitsEnd : Prop :=
  ∀ (n : Fin 24) (s : State), s.SeqLive →
    (∀ rd, (s.seq n).wait = .tooth rd →
      ((s.seq n).woken = true → EndsIn (.taskStart n) s fun u => s.Resumes u n rd ((s.seq n).tooth % 2 ^ 32) []) ∧
      ((s.seq n).woken = false → Ends (.taskStart n) s s)) ∧
    (∀ rd k, (s.seq n).wait = .icu rd k →
      (s.source k = true → s.fld .ICU_TGT_TYPE k = 6 → s.fld .ICU_TGT_IDX k = n →
        EndsIn (.waiteWake n) s fun u => s.Resumes u n rd 1 []) ∧
      (s.source k = false → Ends (.waiteWake n) s s)) ∧
    (∀ rd k tok, (s.seq n).wait = .fence rd k tok → tok < 2 ^ 16 →
      ((s.doneW k - BitVec.ofNat 16 tok).msb = false →
        EndsIn (.waiteWake n) s fun u => s.Resumes u n rd (s.doneW k).toNat []) ∧
      ((s.doneW k - BitVec.ofNat 16 tok).msb = true → Ends (.waiteWake n) s s)) ∧
    (∀ rd m, (s.seq n).wait = .flag rd m → m < 2 ^ 16 →
      let got := BitVec.ofNat 16 (s.fld .SEQ_FLAGS n) &&& BitVec.ofNat 16 m
      (got ≠ 0 → EndsIn (.waiteWake n) s fun u => s.Resumes u n rd got.toNat [.SEQ_FLAGS] ∧
        u.fld .SEQ_FLAGS n = (BitVec.ofNat 16 (s.fld .SEQ_FLAGS n) &&& ~~~BitVec.ofNat 16 m).toNat) ∧
      (got = 0 → Ends (.waiteWake n) s s))

namespace Sys2Proof.Machine

/-! ### Phiad: SYS (R104, R129 to R138) -/

/-- R129, R132, R136: FENCE publishes rs1 + IMM18 as the token of source 32 + n; BUDGET sets the allowance to 8 cycles for
each unit of rs1 + IMM18, at most 2^32 − 8; YIELD ends the task and sets YIELDED, and outside a task does nothing.
(Rests on choices of the model: log entry 15.) -/
def FenceBudgetYieldClaim : Prop :=
  ∀ (n : Fin 24) (s : State) (w : Nat),
    (s.Issues n .fence w → EndsIn (.fence n) s fun u =>
      u.fld .FENCE_DONE (32 + n) = (BitVec.ofNat 16 (s.x n (phB w)) + BitVec.ofNat 16 w).toNat ∧
        s.RunsOn (u.setFld .FENCE_DONE (32 + n) (s.fld .FENCE_DONE (32 + n))) n .fence w [] (s.x n) (s.pcNext n) 1) ∧
    (s.Issues n .budget w → EndsIn (.budget n) s fun u =>
      u.fld .SEQ_BUDGET_ALLOW n = min (8 * (s.rs1W n w + (BitVec.ofNat 18 w).zeroExtend 32).toNat) (2 ^ 32 - 8) ∧
        s.RunsOn (u.setSeq n { u.seq n with expired := (s.seq n).expired }) n .budget w [.SEQ_BUDGET_ALLOW] (s.x n) (s.pcNext n) 1) ∧
    (s.Issues n .yield w → s.flag .SEQ_TASK_STAT_IN_TASK n = true → EndsIn (.yield n) s fun u =>
      u.flag .SEQ_TASK_STAT_IN_TASK n = false ∧ u.flag .SEQ_TASK_STAT_YIELDED n = true ∧
        u.fld .SEQ_TASK_MAX n = s.taskMax n (s.issueCycle n .yield w) % 2 ^ 32 ∧
        s.RunsOn u n .yield w [.SEQ_TASK_STAT_IN_TASK, .SEQ_TASK_STAT_YIELDED, .SEQ_TASK_MAX] (s.x n) (s.pcNext n) 1) ∧
    (s.Issues n .yield w → s.flag .SEQ_TASK_STAT_IN_TASK n = false → EndsIn (.yield n) s fun u =>
      s.RunsOn u n .yield w [] (s.x n) (s.pcNext n) 1)

/-- R135, R185: SAFEPT applies the change in progress: APPLIED takes its target, APPLY_CNT counts, the sequencer's bit of
MODE_APPLIED is set, word 1,023 of its data memory shows both, and TRANSITION ends with the last sequencer. Without a change
it does nothing but run on. (A pending swap whose boundary falls in its cycle is stated in SequencerCommands.) -/
def SafePointClaim : Prop :=
  ∀ (n : Fin 24) (s : State) (w : Nat), s.Issues n .safept w →
    (s.flag .SEQ_SWAP_STAT_PENDING n = false ∨
      ∀ t, (s.dom (s.fld .SEQ_CTRL_DOMAIN n)).boundAt = some t → t / 2 ≠ s.issueCycle n .safept w) →
    (s.change = none → EndsIn (.safept n) s fun u =>
      s.RunsOn (u.setSeq n { u.seq n with safeAt := none }) n .safept w [] (s.x n) (s.pcNext n) 1) ∧
    ∀ c, s.change = some c → (s.fld .MODE_APPLIED).testBit n = false → EndsIn (.safept n) s fun u =>
      u.fld .SEQ_MODE_STAT_APPLIED n = c.target % 8 ∧
      u.fld .SEQ_MODE_STAT_APPLY_CNT n = (s.fld .SEQ_MODE_STAT_APPLY_CNT n + 1) % 2 ^ Fld.width .SEQ_MODE_STAT_APPLY_CNT ∧
      u.fld .MODE_APPLIED = s.fld .MODE_APPLIED ||| 2 ^ n.val ∧
      u.word (dmemAddr n 1023) = u.fld .SEQ_MODE_STAT_APPLIED n + 256 * u.fld .SEQ_MODE_STAT_APPLY_CNT n ∧
      (s.fld .MODE_APPLIED ||| 2 ^ n.val = 2 ^ 24 - 1 → u.flag .MODE_STAT_TRANSITION = false) ∧
      (s.fld .MODE_APPLIED ||| 2 ^ n.val ≠ 2 ^ 24 - 1 → s.flag .MODE_STAT_TRANSITION = true → u.change = s.change) ∧
      u.mode = s.mode ∧ (u.seq n).pc = s.pcNext n ∧ (∀ k, u.x n k = s.x n k) ∧
      ∀ b, ¬ (dmemAddr n 1023 ≤ b ∧ b < dmemAddr n 1024) → u.byte b = s.byte b

/-- Sequencer `n` may hand channel `ch` to sequencer `dst` (R138). -/
def State.mayHand (s : State) (n ch dst : Nat) : Prop :=
  ch ≤ 95 ∧ s.owner ch = some n ∧ dst ≤ 23 ∧ dst ≠ n ∧ s.fld .SEQ_CTRL_DOMAIN dst = s.fld .SEQ_CTRL_DOMAIN n

/-- No armed slot of sequencer `n` moves channel `ch`. -/
def State.unreferred (s : State) (n ch : Nat) : Prop :=
  ∀ k, k < 64 → (s.slot n k).armed = true → (s.slot n k).kind.onChannel = true → (s.slot n k).arg ≠ ch

/-- The driver of channel `c` is decided as its owner and the mode now say, and every other channel is as in `s` (R166). -/
def State.Redriven (s u : State) (c : Nat) : Prop :=
  (u.chan c).drive = u.wantsDriver c ∧ (u.chan c).lastAt = (s.chan c).lastAt ∧ (u.chan c).cap = (s.chan c).cap ∧
    ∀ e, e ≠ c → u.chan e = s.chan e

/-- R138: HANDOVER gives a channel that no armed slot refers to to another sequencer of the domain, whatever its level; while a slot
refers to it, it stalls in a task whose budget is not used up. A HANDOVER that is not allowed, or that could only stall without a
budget clock, sets HANDOVER_FAIL. It costs 4 cycles. The line driver of the channel follows its new owner (R166).
(Rests on choices of the model: log entry 28.) -/
def HandoverInstructionClaim : Prop :=
  ∀ (n : Fin 24) (s : State) (w : Nat), s.Issues n .handover w →
    let ch := w % 128
    let dst := (s.rs1W n w).toNat % 32
    let clock := s.flag .SEQ_TASK_STAT_IN_TASK n = true ∧ (s.fld .SEQ_BUDGET_ALLOW n = 0 ∨ ((s.seq n).expired = false ∧
      s.issueCycle n .handover w < (s.seq n).taskStart + s.fld .SEQ_BUDGET_ALLOW n))
    (s.mayHand n ch dst → s.unreferred n ch → EndsIn (.handover n) s fun u =>
      u.owner ch = some dst ∧ u.level ch = s.level ch ∧ s.Redriven u ch ∧
        s.RunsOn { u.setFld .OUT_OWNER_SEQ ch n with chans := s.chans } n .handover w [] (s.x n) (s.pcNext n) 4) ∧
    (¬ s.mayHand n ch dst ∨ (¬ s.unreferred n ch ∧ ¬ clock) → EndsIn (.handover n) s fun u =>
      s.RunsOn u n .handover w [.SEQ_TASK_FLT_HANDOVER_FAIL] (s.x n) (s.pcNext n) 4 ∧
        u.fld .SEQ_TASK_FLT_HANDOVER_FAIL n = 1) ∧
    (s.mayHand n ch dst → ¬ s.unreferred n ch → clock → EndsIn (.handover n) s fun u =>
      (u.seq n).state = .stall ∧ (u.seq n).handover = some (ch, dst) ∧ (u.seq n).pc = (s.seq n).pc ∧ u.owner ch = s.owner ch ∧
        (∀ k, u.slot n k = s.slot n k) ∧ (∀ k, u.x n k = s.x n k) ∧ (s.atIssue n .handover w).Within u n [])

/-- R138: a stalled HANDOVER goes on once no armed slot refers to the channel: ownership passes and the sequencer runs, or it
fails where it may not hand the channel any more. Until then nothing happens. -/
def HandoverTransfersClaim : Prop :=
  ∀ (n : Fin 24) (s : State) (ch dst : Nat), s.SeqLive → (s.seq n).handover = some (ch, dst) →
    (¬ s.unreferred n ch → Ends (.handoverTransfer n) s s) ∧
    (s.unreferred n ch → s.mayHand n ch dst → EndsIn (.handoverTransfer n) s fun u =>
      u.owner ch = some dst ∧ u.level ch = s.level ch ∧ s.Redriven u ch ∧ (u.seq n).state = .run ∧
        (u.seq n).handover = none ∧ (u.seq n).pc = s.pcNext n ∧ (∀ k, u.x n k = s.x n k) ∧
        s.Within { u.setFld .OUT_OWNER_SEQ ch n with chans := s.chans } n []) ∧
    (s.unreferred n ch → ¬ s.mayHand n ch dst → EndsIn (.handoverTransfer n) s fun u =>
      (u.seq n).state = .run ∧ (u.seq n).handover = none ∧ (u.seq n).pc = s.pcNext n ∧
        u.fld .SEQ_TASK_FLT_HANDOVER_FAIL n = 1 ∧ s.Within u n [.SEQ_TASK_FLT_HANDOVER_FAIL])

/-- The budget clock of the running task of sequencer `n` has just reached its allowance (R129). -/
structure State.BudgetDue (s : State) (n : Nat) : Prop where
  clock : s.SeqLive
  task : s.flag .SEQ_TASK_STAT_IN_TASK n = true
  force : s.fld .SEQ_BUDGET_ALLOW n ≠ 0
  first : (s.seq n).expired = false
  due : (s.seq n).taskStart + s.fld .SEQ_BUDGET_ALLOW n ≤ max (s.tnow / 2) (s.seq n).nextIssue

/-- BUDGET_OVER is set and counted (R129). -/
def State.overBudget (s u : State) (n : Nat) : Prop :=
  u.fld .SEQ_TASK_FLT_BUDGET_OVER n = 1 ∧
    u.fld .SEQ_CNT_BUDGET n = min (s.fld .SEQ_CNT_BUDGET n + 1) (2 ^ Fld.width .SEQ_CNT_BUDGET - 1)

/-- R129, R133, R138: where the budget clock of a running task reaches its allowance, BUDGET_OVER is set and counted, once. An
instruction that stalls for slots is then skipped, and a HANDOVER that waits fails. (Rests on choices of the model: log entry 15.) -/
def BudgetExpiresClaim : Prop :=
  ∀ (n : Fin 24) (s : State), s.BudgetDue n →
    ((s.seq n).slotStall = false → (s.seq n).handover = none → EndsIn (.budgetExpiry n) s fun u => s.overBudget u n ∧
      u.seq n = { s.seq n with expired := true } ∧ s.Within u n [.SEQ_TASK_FLT_BUDGET_OVER, .SEQ_CNT_BUDGET]) ∧
    ((s.seq n).slotStall = false → (s.seq n).handover ≠ none → EndsIn (.budgetExpiry n) s fun u => s.overBudget u n ∧
      (u.seq n).state = .run ∧ (u.seq n).handover = none ∧ (u.seq n).pc = s.pcNext n ∧
        u.fld .SEQ_TASK_FLT_HANDOVER_FAIL n = 1 ∧
        s.Within u n [.SEQ_TASK_FLT_BUDGET_OVER, .SEQ_CNT_BUDGET, .SEQ_TASK_FLT_HANDOVER_FAIL]) ∧
    ∀ o w, ((o = .arm ∨ o = .armt ∨ o = .waita ∨ o = .waitt) ∨ o = .pulse) → (s.seq n).slotStall = true →
      s.word (s.pcAddr n) = w → phDecode w = some o → EndsIn (.budgetExpiry n) s fun u => s.overBudget u n ∧
        (u.seq n).state = .run ∧ (u.seq n).slotStall = false ∧ (u.seq n).pc = s.pcNext n ∧
        (u.seq n).slots = (s.seq n).slots ∧ u.fld .SEQ_TASK_FLT_SLOT_EXHAUST n = 1 ∧
        (∀ k, u.x n k = if o = .pulse then s.x n k else s.withX n (phA w) (2 ^ 32 - 1) k) ∧
        s.Within u n [.SEQ_TASK_FLT_BUDGET_OVER, .SEQ_CNT_BUDGET, .SEQ_TASK_FLT_SLOT_EXHAUST, .SEQ_CNT_EXHAUST]

/-- R109, R133: an instruction stalled for slots goes on where enough are free, at the earliest in the cycle after the lowest of them came
free: an ARM arms the slot that has become free and runs on; a WAITA or WAITT waits. Until then nothing happens.
(Rests on choices of the model: log entry 1.) -/
def SlotStallResumesClaim : Prop :=
  ∀ (n : Fin 24) (s : State) (w : Nat) (o : PhOp), s.SeqLive → (s.seq n).slotStall = true → s.word (s.pcAddr n) = w →
    phDecode w = some o → o = .arm ∨ o = .armt ∨ o = .pulse ∨ o = .waita ∨ o = .waitt →
    let free := ((upto 64).filter fun k => !(s.slot n k).armed).length
    let need := if o = .pulse ∧ bitN w 0 = false then 2 else 1
    (free < need → Ends (.slotStallResume n) s s) ∧
    (need ≤ free → EndsIn (.slotStallResume n) s fun u =>
      (u.seq n).state = (if o = .waita ∨ o = .waitt then .wait else .run) ∧ (u.seq n).slotStall = false ∧
        (u.seq n).pc = s.pcNext n) ∧
    ∀ k x, o = .arm → s.LowestFree n k → (phAct w ≤ 1 → s.owner (phCh w) = some n.val) →
      armWords false (phAct w) (s.rs1W n w).toNat (phCh w) ((s.rs2W n w).toNat % 512) (phFl w) = some x →
      let t := s.passTo (s.slot n k).freeFrom
      EndsIn (.slotStallResume n) s fun u => u.slot n k = t.armedAs n k x ∧ (∀ j, j ≠ k → u.slot n j = s.slot n j) ∧
        (∀ j, u.x n j = s.withX n (phA w) ((t.armedAs n k x).gen * 256 + k) j) ∧ t.Within u n [.SEQ_SLOTS_PEAK]

end Sys2Proof.Machine

/-- A wait suspends its sequencer until its condition holds. -/
def Obligations.Waits : Prop :=
  Sys2Proof.Machine.WaitForSlotClaim ∧ Sys2Proof.Machine.WaitForToothClaim ∧ Sys2Proof.Machine.WaitForLineClaim ∧ Sys2Proof.Machine.WaitForFenceFlagEpochClaim

/-- HALT, FENCE, BUDGET, YIELD and SAFEPT. -/
def Obligations.SystemInstructions : Prop :=
  Sys2Proof.Machine.HaltStopsClaim ∧ Sys2Proof.Machine.FenceBudgetYieldClaim ∧ Sys2Proof.Machine.SafePointClaim

/-- HANDOVER posts a transfer of a channel, which the owner of the channel register then shows. -/
def Obligations.Handovers : Prop :=
  Sys2Proof.Machine.HandoverInstructionClaim ∧ Sys2Proof.Machine.HandoverTransfersClaim

/-- The end of a tooth budget, and of a stall for slots. -/
def Obligations.BudgetAndSlotStall : Prop :=
  Sys2Proof.Machine.BudgetExpiresClaim ∧ Sys2Proof.Machine.SlotStallResumesClaim

namespace Sys2Proof.Machine

/-! ### The fabric: firings, service slots, owners and safe ends (R144 to R172) -/

/-- A counter of R417 after one event: it holds at its maximum. -/
def State.count (s : State) (f : Fld) (i : Nat) : State := s.setFld f i (min (s.fld f i + 1) (2 ^ f.width - 1))

/-- A field after a write of a register's value `v` (R5, R6). -/
def State.fieldAfter (s : State) (f : Fld) (i v : Nat) : Nat :=
  let b := bitsN v f.info.hi f.info.lo
  match f.info.acc with
  | .rw => b
  | .rwl => if s.rwlOpen then b else s.fld f i
  | .w1c => s.fld f i - (s.fld f i &&& b)
  | .w1s => s.fld f i ||| b
  | _ => s.fld f i

/-- Some RWL field of a register would take a new value while RWL writes are not allowed (R6). -/
def State.rwlRefuses (s : State) (r : Reg) (i v : Nat) : Bool :=
  !s.rwlOpen && r.row.fields.any fun f => f.info.acc == .rwl && bitsN v f.info.hi f.info.lo != s.fld f i

/-- An access of a source logged in ACCESS_ERR (R328). -/
def State.accessLogged (s : State) (src : Src) (off : Nat) (write : Bool) (k : ErrKind) (be : Nat := 15) : State :=
  { s.accessErr (srcNum src) off be write k with mspi := s.mspi }

/-- Copy `i` of register `r` written with `v`: every field by its access type, and a refused RWL value logged as LOCKED. -/
def State.regWritten (s : State) (src : Src) (off : Nat) (r : Reg) (i v : Nat) (be : Nat := 15) : State :=
  let t := r.row.fields.foldl (fun t f => t.setFld f i (s.fieldAfter f i v)) s
  if s.rwlRefuses r i v then t.accessLogged src off true .locked be else t

/-- The value of the word evaluated now, formed 24 ns before (R143), lies at or past the target of slot `k`, counted from its reference
(R146). -/
def State.Passed (s : State) (n k : Nat) : Prop :=
  ∃ r v, (s.slot n k).ref.map (·.1) = some r ∧
    s.reads (s.fld .SEQ_CTRL_DOMAIN n) (s.slot n k).kind.timed (s.tnow - 24) = some v ∧ fwd r (s.slot n k).target ≤ fwd r v

/-- Slot `k` of sequencer `n` is reached (R144 to R146, R162): armed and not waiting for its pulse's start, with a reference of this
word or before, and its target passed; an angle slot not in the cycle in which its domain loses sync. -/
def State.Reached (s : State) (n k : Nat) : Prop :=
  (s.slot n k).armed = true ∧ (s.slot n k).waiting = false ∧
    ((s.slot n k).kind.timed = true ∨ (s.dom (s.fld .SEQ_CTRL_DOMAIN n)).lostAt ≠ some s.tnow) ∧
    (∀ r, (s.slot n k).ref = some r → r.2 ≤ s.tnow - 24) ∧ s.Passed n k

/-- The word evaluated now carries no release and no jump for slot `k` (R61). -/
def State.Steady (s : State) (n k : Nat) : Prop :=
  (s.slot n k).kind.timed = true ∨ (s.dom (s.fld .SEQ_CTRL_DOMAIN n)).stepAt ≠ some (s.tnow - 24)

/-- Slot `k` freed: only its generation stays, and it can be taken from the next sequencer cycle on (R109, R110). -/
def State.slotFreed (s : State) (n k : Nat) : State := s.setSlot n k (s.freed n k)

/-- The rising or falling edge of a channel at a stamp (R18, R152). -/
def State.edgeOn (s : State) (c : Nat) (up : Bool) (stamp : Nat) : State :=
  ((((s.count .OUT_CNT_EDGES c).setFld .OUT_STAT_LEVEL c (b2n up)).setFld .OUT_LAST_EDGE_STAMP c stamp).setFld
    .OUT_LAST_EDGE_RISING c (b2n up)).setChan c { s.chan c with lastAt := some stamp }

/-- The firing of slot `k` is the only one of sequencer `n` on its channel in this word, and its edge lies 8 ns or more after
the channel's last one. -/
structure State.FiresAlone (s : State) (n k c : Nat) : Prop where
  sound : s.Sound
  up : s.up = true
  chan : c < 96
  arg : (s.slot n k).arg = c
  plain : (s.slot n k).kept = false
  reached : s.Reached n k
  steady : s.Steady n k
  alone : ∀ j, j < 64 → j ≠ k → (s.slot n j).kind.onChannel = true → (s.slot n j).arg = c → ¬ s.Reached n j
  limit : (s.slot n k).kind = .pulseStart → ∀ p, s.mate n k = some p → (s.slot n p).kind = .pulseLimit ∧ ¬ s.Passed n p
  room : ∀ l, (s.chan c).lastAt = some l → l + 64 ≤ (s.tnow - 24) * 8

/-- R61, R113, R121, R124, R127, R143, R146: SLOT_FIRE on a slot that is not reached changes nothing. Reached, a FLAG slot sets its flag, and
a WAKE slot ends the wait on it with TNOW of the word in RD, readable one cycle later, when the next instruction can issue; each is
freed. On a word that carries a release or a jump, every angle slot of the domain that it reaches fires with it. -/
def FlagAndWakeFiringsClaim : Prop :=
  ∀ (n : Fin 24) (k : Fin 64) (s : State), s.Sound → s.up = true →
    (¬ s.Reached n k → Ends (.slotFire n k) s s) ∧
    (s.Reached n k → s.Steady n k → (s.slot n k).kind = .aFlag ∨ (s.slot n k).kind = .tFlag →
      Ends (.slotFire n k) s ((s.slotFreed n k).setFld .SEQ_FLAGS n (s.fld .SEQ_FLAGS n ||| 2 ^ ((s.slot n k).arg % 16)))) ∧
    (s.Reached n k → s.Steady n k → (s.slot n k).kind = .aWake ∨ (s.slot n k).kind = .tWake →
      ∀ rd, (s.seq n).wait = .slot rd k → EndsIn (.slotFire n k) s fun u =>
        u = (s.slotFreed n k).setSeq n { (s.slotFreed n k).seq n with
          xs := (u.seq n).xs, ready := (u.seq n).ready, state := .run, wait := .none
          nextIssue := (u.seq n).nextIssue, counted := (u.seq n).counted } ∧
        (∀ j, u.x n j = s.withX n rd ((s.tnow - 24) % 2 ^ 32) j) ∧
        (rd ≠ 0 → Tab.get 0 (u.seq n).ready rd = s.tnow / 2 + 1) ∧
        (u.seq n).nextIssue = max (s.seq n).nextIssue (s.tnow / 2 + 1)) ∧
    (s.Reached n k → ¬ s.Steady n k → EndsIn (.slotFire n k) s fun u => ∀ (m : Fin 24) (j : Fin 64),
      s.fld .SEQ_CTRL_DOMAIN m = s.fld .SEQ_CTRL_DOMAIN n → s.Reached m j →
      (s.slot m j).kind ∈ [.aOpen, .aClose, .aFlag, .aWake] →
      (u.slot m j).armed = false ∧ ((s.slot m j).kind = .aFlag → (u.fld .SEQ_FLAGS m).testBit ((s.slot m j).arg % 16) = true))

/-- What becomes of a slot that fires on its channel (R109, R116): the start of a pulse turns into its end, DUR after its edge,
and lets its limit compare; the ends of a pulse free both its slots; any other slot is freed. -/
def State.slotSpent (s : State) (n k stamp : Nat) (u : State) : State :=
  let x := s.slot n k
  let t := s.tnow - 24
  match x.kind, s.mate n k with
  | .pulseStart, p =>
    let e := stamp + 8 * x.dur
    (match p with | some p => u.setSlot n p { u.slot n p with waiting := false } | none => u).setSlot n k
      { x with kind := .pulseEnd, target := e / 8 % 2 ^ 32, frac := e % 8, ref := some (t % 2 ^ 32, t) }
  | .pulseEnd, some p => (u.slotFreed n k).slotFreed n p
  | .pulseLimit, some p => (u.slotFreed n k).slotFreed n p
  | _, _ => u.slotFreed n k

/-- R18, R116, R148 to R153, R174: a reached slot alone on its channel. Where the device and its owner may drive the channel, SET
and the start of a pulse make an inactive channel active, CLEAR and the ends of a pulse an active one inactive, at TNOW of the
word and the vernier; the edge is counted. A channel that is there already keeps its level. Where they may not, the firing only counts in
INHIBIT. (Rests on choices of the model: log entries 9 and 10.) -/
def ChannelFiringsClaim : Prop :=
  ∀ (n : Fin 24) (k : Fin 64) (c : Nat) (s : State), s.FiresAlone n k c →
    let stamp := (s.tnow - 24) * 8 + s.vernier n k (s.tnow - 24)
    let ends := fun u => Ends (.slotFire n k) s (s.slotSpent n k stamp u)
    ((s.slot n k).kind.onChannel = true → s.levelAllowed c = false → ends (s.count .OUT_CNT_INHIBIT c)) ∧
    ((s.slot n k).kind ∈ [.aSet, .tSet, .pulseStart] → s.levelAllowed c = true →
      ends (if s.level c then s else s.edgeOn c true stamp)) ∧
    ((s.slot n k).kind ∈ [.aClear, .tClear, .pulseEnd, .pulseLimit] → s.levelAllowed c = true →
      ends (if s.level c then s.edgeOn c false stamp else s))

/-- R145, R156, R172: a write of SVC_CFG stores its fields; with EN at 0 the slot then holds nothing, and a slot newly enabled,
enabled and spent, or bound to another domain is armed in the next cycle, with the angle of the word evaluated then as its reference, or of the first later word in
which it is valid. A write of SVC_TARGET stores the target and
arms an enabled slot afresh. (Rests on choices of the model: log entry 9.) -/
def ServiceSlotWritesClaim : Prop :=
  ∀ (src : Src) (k : Fin 64) (v : Word) (s : State),
    let fresh : State → State := fun u =>
      u.setSvc k { ref := s.firstRead (u.fld .SVC_CFG_DOMAIN k) false (s.tnow - 24 + 1) }
    (let off := 0x114000 + 0x10 * k.val
     let u := s.cleared.regWritten src off .SVC_CFG k v.toNat
     Stores (.svcCfgWrite src k v) s src off v.toNat
      (if !bitN v.toNat 31 then u.setSvc k {}
       else if !s.flag .SVC_CFG_EN k || (s.svc k).spent || u.fld .SVC_CFG_DOMAIN k != s.fld .SVC_CFG_DOMAIN k then fresh u else u)) ∧
    (let off := 0x114004 + 0x10 * k.val
     let u := s.cleared.setFld .SVC_TARGET k v.toNat
     Stores (.svcTargetWrite src k v) s src off v.toNat (if s.flag .SVC_CFG_EN k then fresh u else u.setSvc k {}))

/-- R143, R147, R156, R157, R162: an enabled service slot whose target the angle of its domain has passed in the word evaluated now, which
carries no release and no jump, acts on its basin, or sets its mark, and stamps TNOW of the word; without REPEAT it is spent, with
REPEAT it waits for half a turn. One that is disabled, spent, or whose domain has no valid angle or loses sync does nothing; one that is
not reached neither. (Rests on choices of the model: log entries 27 and 9.) -/
def ServiceSlotFiringsClaim : Prop :=
  ∀ (k : Fin 64) (s : State), s.Sound → s.up = true → (s.svc k).fired = none →
    let b := s.fld .SVC_CFG_BASIN k
    let d := s.fld .SVC_CFG_DOMAIN k
    let t := s.tnow - 24
    let now := s.reads d false t
    (s.flag .SVC_CFG_EN k = false ∨ (s.svc k).spent = true ∨ now = none ∨ (s.dom d).lostAt = some s.tnow →
      Ends (.svcFire k) s s) ∧
    ∀ r v, s.flag .SVC_CFG_EN k = true → (s.svc k).spent = false → (s.svc k).ref = some r → now = some v →
      let u := (s.setSvc k (if s.flag .SVC_CFG_REPEAT k then { fired := some (s.turnedAt d t).toNat }
        else { spent := true })).setFld .SVC_STAMP k (t % 2 ^ 32)
      (fwd r.1 (s.fld .SVC_TARGET k) ≤ fwd r.1 v → r.2 ≤ t → (s.dom d).lostAt ≠ some s.tnow → (s.dom d).stepAt ≠ some t →
       Ends (.svcFire k) s (match s.fld .SVC_CFG_ACT k with
        | 0 => u.basAction b t false true
        | 1 => u.basAction b t true false
        | 2 => u.setFld .ICU_MARK (k / 32) (s.fld .ICU_MARK (k / 32) ||| 2 ^ (k % 32 : Nat))
        | _ => u.basAction b t true true)) ∧
      (fwd r.1 v < fwd r.1 (s.fld .SVC_TARGET k) → Ends (.svcFire k) s s)

/-- R15, R154, R166, R170: a write of OUT_OWNER is accepted in Standby and Seek with no change in progress and a SEQ of 0 to 23: it stores
the owner, frees every slot that refers to the channel and records such a cancellation; a channel left without an owner is inactive, and
its driver follows. Elsewhere nothing is stored, and the write
is logged as LOCKED, or as REFUSED. (Rests on choices of the model: log entries 63 and 38.) -/
def OwnerWritesClaim : Prop :=
  ∀ (src : Src) (c : Fin 96) (v : Word) (s : State),
    let off := 0x110000 + 0x40 * c.val
    let open' := (s.mode = 1 ∨ s.mode = 2) ∧ s.flag .MODE_STAT_TRANSITION = false ∧ s.flag .MODE_STAT_EPOCH_PENDING = false
    let named : Nat → Nat → Bool := fun n k => decide (n < 24) && decide (k < 64) &&
      (s.slot n k).armed && (s.slot n k).kind.onChannel && (s.slot n k).arg == c.val
    (¬ open' → Stores (.outOwnerWrite src c v) s src off v.toNat (s.cleared.accessLogged src off true .locked)) ∧
    (open' → 23 < bitsN v.toNat 4 0 →
      Stores (.outOwnerWrite src c v) s src off v.toNat (s.cleared.accessLogged src off true .refused)) ∧
    (open' → bitsN v.toNat 4 0 ≤ 23 → s.Takes src off → EndsIn (.outOwnerWrite src c v) s fun u => ∃ t : State,
      u = t.passedOn src off v.toNat ∧
      t = { s.cleared with regs := t.regs, seqs := t.seqs, chans := t.chans } ∧
      (∀ n, t.seq n = { s.seq n with slots := (t.seq n).slots }) ∧
      (∀ n k, t.slot n k = if named n k then s.freed n k else s.slot n k) ∧
      (bitN v.toNat 7 = false → t.level c = false ∧ t.flag .OUT_STAT_COMPLETING c = false ∧ (t.chan c).cap = none) ∧
      (bitN v.toNat 7 = true → (t.chan c).lastAt = (s.chan c).lastAt ∧ (t.chan c).cap = (s.chan c).cap) ∧
      (t.chan c).drive = t.wantsDriver c ∧ (∀ e, e ≠ c.val → t.chan e = s.chan e) ∧
      t.fld .OUT_OWNER_OWNED c = bitsN v.toNat 7 7 ∧ t.fld .OUT_OWNER_SEQ c = bitsN v.toNat 4 0 ∧
      ((∃ n k, named n k = true) → t.fld .OUT_STAT_OWN_CANCEL c = 1) ∧
      ((∀ n k, named n k = false) → t.fld .OUT_STAT_OWN_CANCEL c = s.fld .OUT_STAT_OWN_CANCEL c) ∧
      ∀ (f : Fld) (i : Nat), ¬ (i % 1024 = c ∧ (f ∈ [.OUT_OWNER_OWNED, .OUT_OWNER_SEQ, .OUT_STAT_OWN_CANCEL] ∨
        (bitN v.toNat 7 = false ∧ f ∈ [.OUT_STAT_LEVEL, .OUT_STAT_COMPLETING, .OUT_CNT_EDGES, .OUT_CNT_STRETCH,
          .OUT_LAST_EDGE_STAMP, .OUT_LAST_EDGE_RISING]))) → t.fld f i = s.fld f i)

/-- R143, R158: COMPLETE_CAP ends a completing channel once the word of its time is evaluated: the channel is inactive, with a falling edge at that time
if it was active, completes no more, and the kept slots of its owner on it are free. Before, or without a cap, nothing happens.
(Rests on choices of the model: log entries 29 and 9.) -/
def CompleteCapClaim : Prop :=
  ∀ (c : Fin 96) (s : State), s.Sound → s.up = true →
    (((s.chan c).cap = none ∨ ∃ t, (s.chan c).cap = some t ∧ s.tnow - 24 < t) → Ends (.completeCapExpiry c) s s) ∧
    ∀ t, (s.chan c).cap = some t → t ≤ s.tnow - 24 →
      ((∀ l, (s.chan c).lastAt = some l → l + 64 ≤ t * 8) →
        (∀ n k, n < 24 → k < 64 → s.owner c = some n → (s.slot n k).arg = c → (s.slot n k).kept = false) →
        let u := (if s.level c then s.edgeOn c false (t * 8) else s).setFld .OUT_STAT_COMPLETING c 0
        Ends (.completeCapExpiry c) s (u.setChan c { u.chan c with cap := none })) ∧
      EndsIn (.completeCapExpiry c) s fun u =>
        u.level c = false ∧ u.flag .OUT_STAT_COMPLETING c = false ∧ (u.chan c).cap = none ∧
        (∀ n k, k < 64 → s.owner c = some n → (s.slot n k).armed = true → (s.slot n k).kind.onChannel = true →
          (s.slot n k).arg = c → (s.slot n k).kept = true → (u.slot n k).armed = false) ∧
        ∀ e, e ≠ c.val → e < 96 → u.level e = s.level e ∧ u.chan e = s.chan e

end Sys2Proof.Machine

/-- The slots that fire. -/
def Obligations.FabricFirings : Prop :=
  Sys2Proof.Machine.FlagAndWakeFiringsClaim ∧ Sys2Proof.Machine.ChannelFiringsClaim

/-- The service slots, their writes and their firings. -/
def Obligations.ServiceSlots : Prop :=
  Sys2Proof.Machine.ServiceSlotWritesClaim ∧ Sys2Proof.Machine.ServiceSlotFiringsClaim

/-- The owner of a channel, and the cap on the completion of an opening. -/
def Obligations.ChannelOwners : Prop :=
  Sys2Proof.Machine.OwnerWritesClaim ∧ Sys2Proof.Machine.CompleteCapClaim

namespace Sys2Proof.Machine

/-! ### Commands to the sequencers, and the memories (R82 to R89, R107, R127, R139) -/

/-- IDLE, HALTED or FAULTED (R82). -/
def State.atRest (s : State) (n : Nat) : Prop := (s.seq n).state = .idle ∨ (s.seq n).state = .halted ∨ (s.seq n).state = .faulted

/-- The fields that a reset of a sequencer clears (R107). -/
def resetFields : List Fld :=
  [.SEQ_FAULT_NORATE, .SEQ_FAULT_DIV0, .SEQ_FAULT_MAP_ECC, .SEQ_FAULT_MAP_FMT, .SEQ_FAULT_ADDR, .SEQ_FAULT_PROG_ECC,
   .SEQ_FAULT_ILLEGAL, .SEQ_TASK_FLT_BAD_WAIT, .SEQ_TASK_FLT_HANDOVER_FAIL, .SEQ_TASK_FLT_BAD_CHANNEL,
   .SEQ_TASK_FLT_BAD_LIMIT, .SEQ_TASK_FLT_SLOT_EXHAUST, .SEQ_TASK_FLT_BUDGET_OVER, .SEQ_TASK_FLT_OVERRUN, .SEQ_FLAGS,
   .SEQ_BUDGET_ALLOW, .SEQ_TASK_STAT_IN_TASK, .SEQ_TASK_STAT_YIELDED, .SEQ_TASK_STAT_TOOTH_PENDING, .SEQ_TASK_STAT_COALESCE,
   .SEQ_SWAP_STAT_PENDING]

/-- The entry point of a bank (R83). -/
def State.entryOf (s : State) (n bank : Nat) : Nat :=
  if bank = 0 then s.fld .SEQ_ENTRY_ENTRY0 n else s.fld .SEQ_ENTRY_ENTRY1 n

/-- R82: START runs a sequencer that is at rest from the entry point of its bank; on any other it is logged as LOCKED. -/
def StartClaim : Prop :=
  ∀ (src : Src) (n : Fin 24) (s : State),
    let off := 0x100004 + 0x400 * n.val
    let q := s.seq n
    (s.atRest n → Stores (.seqStart src n) s src off 1 (s.cleared.setSeq n
      { q with state := .run, pc := s.entryOf n q.bank, wait := .none, nextIssue := max q.nextIssue (s.tnow / 2)
               counted := max q.counted (s.tnow / 2) })) ∧
    (¬ s.atRest n → Stores (.seqStart src n) s src off 1 (s.cleared.accessLogged src off true .locked))

/-- R79, R107, R139: RESET, where RWL writes are allowed, brings a sequencer to IDLE at the entry point of its bank, toggled if
a swap was pending: its registers are 0, its slots free, its faults, flags, allowance and task state clear; its run is counted up to then (R108). Elsewhere it
is logged as LOCKED. -/
def ResetClaim : Prop :=
  ∀ (src : Src) (n : Fin 24) (s : State),
    let off := 0x100004 + 0x400 * n.val
    let bank := if s.flag .SEQ_SWAP_STAT_PENDING n then 1 - (s.seq n).bank else (s.seq n).bank
    (s.rwlOpen = true → s.Takes src off → EndsIn (.seqReset src n) s fun u => ∃ v : State,
      u = (v.modeSettle n).passedOn src off 2 ∧ v = { s.cleared with regs := v.regs, seqs := v.seqs } ∧
      (∀ m, m ≠ n.val → v.seq m = s.seq m) ∧
      v.seq n = { slots := (v.seq n).slots, bank, pc := s.entryOf n bank, taskStart := (s.seq n).taskStart
                  nextIssue := (s.seq n).nextIssue, counted := (v.seq n).counted, stallCounted := (v.seq n).stallCounted } ∧
      (∀ k, k < 64 → (v.slot n k).armed = false ∧ (v.slot n k).gen = (s.slot n k).gen) ∧
      (∀ f ∈ resetFields, v.fld f n = 0) ∧
      ∀ (f : Fld) (i : Nat), ¬ (i % 1024 = n ∧ (f ∈ resetFields ∨ f ∈ [.SEQ_TASK_MAX, .SEQ_CNT_CYC, .SEQ_CNT_STALL])) → v.fld f i = s.fld f i) ∧
    (s.rwlOpen = false → Stores (.seqReset src n) s src off 2 (s.cleared.accessLogged src off true .locked))

/-- R139, R140: a swap request of a sequencer at rest toggles its bank at once; of a running one it waits, as PENDING, unless the
sequencer is in a WAITE and its domain has no valid angle; with a swap pending already it changes nothing. -/
def SwapClaim : Prop :=
  ∀ (src : Src) (n : Fin 24) (s : State),
    let off := 0x1000B0 + 0x400 * n.val
    (s.flag .SEQ_SWAP_STAT_PENDING n = true → Stores (.seqSwapReq src n) s src off 1 s.cleared) ∧
    (s.flag .SEQ_SWAP_STAT_PENDING n = false → s.atRest n →
      (s.seq n).wait = .none → (s.seq n).waite = none →
      Stores (.seqSwapReq src n) s src off 1 (s.cleared.setSeq n { s.seq n with bank := 1 - (s.seq n).bank })) ∧
    (s.flag .SEQ_SWAP_STAT_PENDING n = false → ¬ s.atRest n →
      s.angleValid (s.fld .SEQ_CTRL_DOMAIN n) = true ∨ ((s.seq n).wait = .none ∧ (s.seq n).waite = none) →
      Stores (.seqSwapReq src n) s src off 1 (s.cleared.setFld .SEQ_SWAP_STAT_PENDING n 1))

/-- R140, R141: a swap of a sequencer that is in a WAITE, without a valid angle: the wait is abandoned, the task ends, and the
sequencer goes on in the next cycle at the entry point of the new bank. -/
def RunningSwapClaim : Prop :=
  ∀ (src : Src) (n : Fin 24) (s : State),
    let off := 0x1000B0 + 0x400 * n.val
    s.Takes src off → s.flag .SEQ_SWAP_STAT_PENDING n = false → s.angleValid (s.fld .SEQ_CTRL_DOMAIN n) = false →
    (s.seq n).state = .wait → (s.seq n).wait ≠ .none → (∀ rd k, (s.seq n).wait ≠ .slot rd k) → (s.seq n).waite = none →
    (s.seq n).woken = false →
      EndsIn (.seqSwapReq src n) s fun u => ∃ v : State, u = v.passedOn src off 1 ∧
        v = { s.cleared with regs := v.regs, seqs := v.seqs } ∧ (∀ m, m ≠ n.val → v.seq m = s.seq m) ∧
        v.seq n = { s.seq n with
          state := .run, wait := .none, safeAt := none, bank := 1 - (s.seq n).bank, pc := s.entryOf n (1 - (s.seq n).bank)
          nextIssue := s.tnow / 2 + 1, counted := max (s.seq n).counted (s.tnow / 2 + 1) } ∧
        v.flag .SEQ_TASK_STAT_IN_TASK n = false ∧
        ∀ (f : Fld) (i : Nat), ¬ (i % 1024 = n ∧ (f = .SEQ_TASK_STAT_IN_TASK ∨ f = .SEQ_TASK_MAX)) → v.fld f i = s.fld f i

/-- R127: a write of SEQ_FLAGS clears the flags that it names, and a write of SEQ_FLAGS_SET sets them. -/
def FlagWritesClaim : Prop :=
  ∀ (src : Src) (n : Fin 24) (m : BitVec 16) (s : State),
    let old := BitVec.ofNat 16 (s.fld .SEQ_FLAGS n)
    (let off := 0x1000A8 + 0x400 * n.val
     Stores (.seqFlagsClear src n m) s src off m.toNat (s.cleared.setFld .SEQ_FLAGS n (old &&& ~~~m).toNat)) ∧
    (let off := 0x1000AC + 0x400 * n.val
     Stores (.seqFlagsSet src n m) s src off m.toNat (s.cleared.setFld .SEQ_FLAGS n (old ||| m).toNat))

end Sys2Proof.Machine

open Sys2Proof Sys2Proof.Machine in
/-- The host's commands to a sequencer: START, RESET, bank swaps and flags (R82, R107, R127, R139 to R141).
(Rests on choices of the model: log entry 52.) -/
def Obligations.SequencerCommands : Prop := StartClaim ∧ ResetClaim ∧ SwapClaim ∧ RunningSwapClaim ∧ FlagWritesClaim

namespace Sys2Proof.Machine

/-- `t` differs from `s` only in the bytes of the word at `off` that `be` enables, which hold those of `v` (R320, R325). -/
structure State.BytesWritten (s t : State) (off be v : Nat) : Prop where
  others : t = { s with mem := t.mem }
  bytes : ∀ j, j < 4 → bitN be j = true → t.byte (off + j) = BitVec.ofNat 8 (v / 256 ^ j)
  rest : ∀ a, (∀ j, j < 4 → bitN be j = true → a ≠ off + j) → t.byte a = s.byte a

/-- A write of a memory of the unified map whose write gate is open stores `v`; `after` is what it does besides. -/
def StoresWord (c : Instr) (s : State) (src : Src) (off v w : Nat) (after : State → State) (be : Nat := 15) : Prop :=
  s.Takes src off → EndsIn c s fun u => ∃ t : State, s.cleared.BytesWritten t off be w ∧ u = (after t).passedOn src off v be

/-- R84 to R90, R281, R325: host writes of program banks, data memories, the map memory and engine instruction memories store
their bytes. The bytes of a data memory are noted for the stores of the same sequencer cycle (R87), and a write of the map memory takes a
start, one in eight cycles (R90). A program word is written in the bank that does not run, with no swap pending, or in a stopped sequencer; its ECC
state is clean then. Elsewhere the write is logged as LOCKED. -/
def MemoryWritesClaim : Prop :=
  ∀ (src : Src) (n : Fin 24) (v : Word) (s : State),
    (∀ (b : Fin 2) (i : Fin 2048),
      let off := 0x200000 + 0x4000 * n.val + 0x2000 * b.val + 4 * i.val
      let may := ((s.seq n).bank ≠ b ∧ s.flag .SEQ_SWAP_STAT_PENDING n = false) ∨ s.atRest n
      (may → StoresWord (.programBankWrite src n b i v) s src off v.toNat v.toNat
        fun t => { t with progErr := Tab.put t.progErr off none }) ∧
      (¬ may → Stores (.programBankWrite src n b i v) s src off v.toNat (s.cleared.accessLogged src off true .locked))) ∧
    (∀ i : Fin 1024,
      let off := 0x500000 + 0x1000 * n.val + 4 * i.val
      StoresWord (.dataMemoryWrite src n i v) s src off v.toNat v.toNat fun t => { t with
        dataIn := (s.tnow / 2, (if s.dataIn.1 = s.tnow / 2 then s.dataIn.2 else []) ++
          [(off, 1), (off + 1, 1), (off + 2, 1), (off + 3, 1)]) }) ∧
    (∀ (a : Fin 65536) (be : BitVec 4), be ∈ [1, 2, 4, 8, 3, 6, 12, 7, 14, 15] →
      StoresWord (.mapmWrite src a be v) s src (0x400000 + 4 * a.val) v.toNat v.toNat (fun t => { t with
        mapm := if s.tnow / 2 < s.mapm.write then s.mapm
          else { s.mapm with free := max s.mapm.free (s.tnow / 2) + 1, write := s.tnow / 2 + 8 } }) be.toNat) ∧
    (∀ (e : Fin 16) (i : Fin 64), StoresWord (.imemWrite src e i v) s src (0x188000 + 0x100 * e.val + 4 * i.val) v.toNat v.toNat id)

/-- R28 to R32, R69, R75, R218 to R220: host writes of tooth and phase maps, correction banks and weight banks store the bits
that are not reserved. Maps and the correction bank in use take writes only where R30 lets them; the other correction bank while
learning is off; a weight bank while it is not in use. Elsewhere the write is logged as LOCKED, and a bank records it. -/
def MapAndBankWritesClaim : Prop :=
  ∀ (src : Src) (d : Fin 4) (v : Word) (s : State),
    let off := 0x80000 + 0x10000 * d.val
    let checked := fun t : State => t.setDom d { t.dom d with invalid := false }
    let locked := fun (o : Nat) (u : State) => u.accessLogged src o true .locked
    (∀ k j a m, j < 2 → (k < 1023 ∧ a = off + 8 * k + 4 * j ∧ m = (if j = 0 then 0xFFFFFFFF else 0xFFFF03)) ∨
        (k < 63 ∧ a = off + 0x2000 + 8 * k + 4 * j ∧ m = (if j = 0 then 0xFFFFFFFF else 0xFFFF)) →
      (s.mapsOpen d = true → StoresWord (.mapWrite src a v) s src a v.toNat (v.toNat &&& m) checked) ∧
      (s.mapsOpen d = false → Stores (.mapWrite src a v) s src a v.toNat (locked a s.cleared))) ∧
    (∀ (b : Fin 2) (k : Fin 1024),
      let a := off + 0x4000 + 0x1000 * b.val + 4 * k.val
      let may := if b.val = s.fld .AD_TCL_STAT_FRONT d then s.mapsOpen d else !s.flag .AD_TCL_CFG_LEARN_EN d
      (may = true → StoresWord (.correctionBankWrite src d b k v) s src a v.toNat (v.toNat &&& 0xFFFFFF) id) ∧
      (may = false → Stores (.correctionBankWrite src d b k v) s src a v.toNat
        (locked a (s.cleared.setFld .AD_TCL_FAULT_HOST_REJECT d 1)))) ∧
    (∀ (b : Fin 2) (i : Fin 4096),
      let a := 0x480000 + 0x8000 * d.val + 0x4000 * b.val + 4 * i.val
      (s.weightOpen d b = true → StoresWord (.weightWrite src d b i v) s src a v.toNat v.toNat id) ∧
      (s.weightOpen d b = false → Stores (.weightWrite src d b i v) s src a v.toNat
        (locked a (s.cleared.setFld .WT_STAT_REJECT d 1))))

end Sys2Proof.Machine

/-- Writes to data memory, map memory, program, map and correction banks. -/
def Obligations.MemoryWrites : Prop :=
  Sys2Proof.Machine.MemoryWritesClaim ∧ Sys2Proof.Machine.MapAndBankWritesClaim

namespace Sys2Proof.Machine

/-! ### Modes (R173 to R196) -/

/-- A change to `target` has been accepted (R181, R184): it is counted, its epoch is `pend`ing or its mode is in force, and every
sequencer in IDLE or FAULTED has applied it; with the last one TRANSITION ends, and with both bits at 0 the change is over. -/
structure State.Accepted (s u : State) (target : Nat) (pend : Bool) : Prop where
  count : u.fld .MODE_CNT_TRANS = min (s.fld .MODE_CNT_TRANS + 1) (2 ^ Fld.width .MODE_CNT_TRANS - 1)
  mode : u.mode = if pend then s.mode else target
  epoch : u.flag .MODE_STAT_EPOCH_PENDING = pend
  still : ∀ n, n < 24 → (s.seq n).state = .idle ∨ (s.seq n).state = .faulted →
    u.fld .SEQ_MODE_STAT_APPLIED n = target ∧ (u.fld .MODE_APPLIED).testBit n = true
  busy : ∀ n, n < 24 → (s.seq n).state = .run ∨ (s.seq n).state = .stall →
    u.fld .SEQ_MODE_STAT_APPLIED n = s.fld .SEQ_MODE_STAT_APPLIED n ∧ (u.fld .MODE_APPLIED).testBit n = false
  running : u.flag .MODE_STAT_TRANSITION = !(u.fld .MODE_APPLIED == 2 ^ 24 - 1)
  settled : u.change = none ↔ u.flag .MODE_STAT_TRANSITION = false ∧ u.flag .MODE_STAT_EPOCH_PENDING = false

/-- A change is in progress (R186). -/
def State.inChange (s : State) : Prop := s.flag .MODE_STAT_TRANSITION = true ∨ s.flag .MODE_STAT_EPOCH_PENDING = true

/-- Every domain in use and marked critical is in SYNC (R177). -/
def State.criticalSync (s : State) : Prop :=
  ∀ d, d < 4 → s.fld .AD_MAPCFG_TLEN d ≠ 0 → s.flag .AD_CFG_CRITICAL d = true → s.fld .AD_SYNC_STAT_STATE d = 2

/-- The module takes no host request for Dormant, Seek or Run: it follows a Lead (R193). -/
def State.followed (s : State) : Prop := s.fld .PAIR_STAT_SLOT ≠ 7 ∧ s.fld .PAIR_STAT_STATE ∈ [3, 4, 5, 6]

/-- The effect of a write of MODE_REQ: the state it leaves is not forwarded, since F0's offsets are outside the pair's ranges. -/
def Requests (c : Instr) (s : State) (src : Src) (p : State → Prop) : Prop := s.Takes src 0x100 → EndsIn c s p

/-- The state of a refused host request: MODE_FAULT.REFUSED, and an entry with its source, its target and the value written
(R179). -/
def State.refusedMode (s : State) (src : Src) (target value : Nat) : State :=
  (s.cleared.setFld .MODE_FAULT_REFUSED 0 1).log 5 (srcNum src) target value

/-- R177, R182, R193: RUN at an angle, from Seek or Limp with every critical domain in SYNC and the angle of its domain valid, waits
for EPOCH_ANGLE from the present angle; with IMM it is in force at once. Without a valid angle EPOCH_INVALID is set beside the
refusal; from any other mode, in a change, without sync or in a Follow it is refused. -/
def RunRequestClaim : Prop :=
  ∀ (src : Src) (d : Fin 4) (imm : Bool) (s : State),
    let ok := ¬ s.followed ∧ ¬ s.inChange ∧ (s.mode = 2 ∨ s.mode = 4) ∧ s.criticalSync
    let value := 3 + 256 * d.val + (if imm then 4096 else 0)
    (ok → imm = true → Requests (.modeReqRun src true d) s src fun u => s.Accepted u 3 false) ∧
    (ok → imm = false → s.angleValid d = true → Requests (.modeReqRun src false d) s src fun u =>
      s.Accepted u 3 true ∧ ∃ c, u.change = some c ∧ c.target = 3 ∧ c.epoch = some (d.val, s.fld .MODE_EPOCH_ANGLE, s.angle d)) ∧
    (ok → imm = false → s.angleValid d = false → Requests (.modeReqRun src false d) s src fun u =>
      u = (s.refusedMode src 3 value).setFld .MODE_FAULT_EPOCH_INVALID 0 1) ∧
    (¬ ok → ¬ (s.mode = 3 ∧ ¬ s.inChange ∧ ¬ s.followed) → Requests (.modeReqRun src imm d) s src fun u => u = s.refusedMode src 3 value) ∧
    (s.mode = 3 → ¬ s.inChange → ¬ s.followed → Requests (.modeReqRun src imm d) s src fun u => u = s.cleared)

/-- R177, R192, R193: SEEK is taken from Standby, and from Clearing unless a debug halt holds; the holds of Standby, or the hold of
Clearing, are released. A request for the mode in force changes nothing, and any other is refused. -/
def SeekRequestClaim : Prop :=
  ∀ (src : Src) (s : State),
    let ok := ¬ s.followed ∧ ¬ s.inChange ∧ (s.mode = 1 ∨ (s.mode = 5 ∧ s.flag .DBG_STAT_HALTED = false))
    (ok → Requests (.modeReqSeek src) s src fun u => s.Accepted u 2 false ∧ u.hold2 = false ∧
      (u.hold3 = if s.mode = 5 then s.hold3 else false)) ∧
    (¬ ok → (s.mode = 2 → s.inChange ∨ s.followed) →
      Requests (.modeReqSeek src) s src fun u => u = s.refusedMode src 2 2) ∧
    (s.mode = 2 → ¬ s.inChange → ¬ s.followed → Requests (.modeReqSeek src) s src fun u => u = s.cleared)

/-- R161, R177, R182: STANDBY is taken from Seek, Run, Limp and Clearing, even in a change, by spillway path 3: the hold of that
path is set, every channel without a safe end of its own is inactive, and every domain has left SYNC, SEEKING and PHASE-ONLY. -/
def StandbyRequestClaim : Prop :=
  ∀ (src : Src) (s : State),
    (2 ≤ s.mode → s.mode ≤ 5 → Requests (.modeReqStandby src) s src fun u =>
      u.mode = 1 ∧ u.flag .MODE_STAT_EPOCH_PENDING = false ∧ u.hold3 = true ∧ u.fld .SPILL_LAST_TNOW = s.tnow ∧
      (∀ c, c < 96 → s.flag .OUT_POLICY_END c = false → s.flag .OUT_STAT_COMPLETING c = false → u.level c = false) ∧
      ∀ d, d < 4 → u.fld .AD_SYNC_STAT_STATE d = 0) ∧
    (s.mode = 0 ∨ (s.mode = 1 ∧ s.inChange) → Requests (.modeReqStandby src) s src fun u => u = s.refusedMode src 1 1) ∧
    (s.mode = 1 → ¬ s.inChange → Requests (.modeReqStandby src) s src fun u => u = s.cleared)

/-- R161, R177, R178, R179: CLEARING by the host is in force at once from Seek, Run and Limp, by spillway path 2, with cause 2; in
Clearing without a change it has no effect, and else it is refused. -/
def ClearingRequestClaim : Prop :=
  ∀ (src : Src) (s : State),
    (2 ≤ s.mode → s.mode ≤ 4 → Requests (.modeReqClearing src) s src fun u =>
      u.mode = 5 ∧ u.fld .MODE_STAT_CLEAR_CAUSE = 2 ∧ u.flag .MODE_STAT_EPOCH_PENDING = false ∧ u.hold2 = true ∧
      u.fld .SPILL_STAT_LAST_PATH = 2 ∧ (∀ c, c < 96 → s.flag .OUT_POLICY_END c = false →
        s.flag .OUT_STAT_COMPLETING c = false → u.level c = false) ∧
      u.fld .MODE_CNT_TRANS = min (s.fld .MODE_CNT_TRANS + 1) (2 ^ Fld.width .MODE_CNT_TRANS - 1)) ∧
    (s.mode = 5 → ¬ s.inChange → Requests (.modeReqClearing src) s src fun u => u = s.cleared) ∧
    (s.mode ≤ 1 ∨ (s.mode = 5 ∧ s.inChange) → Requests (.modeReqClearing src) s src fun u => u = s.refusedMode src 5 5)

/-- R177, R405 to R407: DORMANT is taken from Standby with a wake source enabled: AUX and GIO pins go to high impedance, the
wellspring copies the wake configuration, TNOW and its own time, and every supply off DORMANT_ON goes off; the mode follows at the
end of the entry. Elsewhere it is refused. -/
def DormantRequestClaim : Prop :=
  ∀ (src : Src) (s : State),
    let wakes := s.flag .PWR_WAKE_CFG_TIMER_EN = true ∨ s.flag .PWR_WAKE_CFG_PIN_EN = true ∨ s.fld .PWR_WAKE_CFG_WIN_MASK ≠ 0
    let ok := ¬ s.followed ∧ ¬ s.inChange ∧ s.mode = 1 ∧ wakes
    (ok → Requests (.modeReqDormant src) s src fun u => s.Accepted u 0 true ∧ u.auxOff = true ∧ u.gio = [] ∧
      u.power.entering = some s.wsNs ∧ u.power.wake = none ∧ u.power.keepTnow = s.tnow ∧ u.power.keepAt = s.wsNs ∧
      u.power.copyMask = s.fld .PWR_WAKE_CFG_WIN_MASK ∧ u.power.copyTimer = s.fld .PWR_WAKE_TIMER_SECONDS ∧
      u.power.copyThr = s.fld .PWR_WAKE_CFG_THR ∧
      ∀ k, k < 4 → (u.fld .PWR_STAT_SUP_ON).testBit k =
        ((s.fld .PWR_STAT_SUP_ON).testBit k && (s.fld .PWR_SUP_CFG_DORMANT_ON).testBit k)) ∧
    (¬ ok → (s.mode = 0 → s.inChange ∨ s.followed) →
      Requests (.modeReqDormant src) s src fun u => u = s.refusedMode src 0 0) ∧
    (s.mode = 0 → ¬ s.inChange → ¬ s.followed → Requests (.modeReqDormant src) s src fun u => u = s.cleared)

end Sys2Proof.Machine

open Sys2Proof Sys2Proof.Machine in
/-- R177 to R182: the host's mode requests. (Rests on choices of the model: log entries 51 and 12.) -/
def Obligations.ModeRequests : Prop :=
  RunRequestClaim ∧ SeekRequestClaim ∧ StandbyRequestClaim ∧ ClearingRequestClaim ∧ DormantRequestClaim

namespace Sys2Proof.Machine

/-- R177, R182, R190, R191, R193: the mode logic goes from Seek to Run with AUTO_RUN, from Clearing after a sync loss to Limp with
LIMP_EN, and from Limp to Run, each once its critical domains are ready, at the next cycle boundary of the epoch domain; otherwise
its commands change nothing. (Rests on choices of the model: log entry 51.) -/
def AutomaticModesClaim : Prop :=
  ∀ s : State, s.Sound → s.up = true →
    let e := s.fld .MODE_CFG_EPOCH_DOM
    let ready := ¬ s.followed ∧ ¬ s.inChange ∧ s.angleValid e = true
    let critical := fun p : Nat → Prop => ∀ d, d < 4 → s.fld .AD_MAPCFG_TLEN d ≠ 0 → s.flag .AD_CFG_CRITICAL d = true → p d
    let run := s.mode = 2 ∧ s.flag .MODE_CFG_AUTO_RUN = true ∧ s.criticalSync ∧ ready
    let limp := s.mode = 5 ∧ s.fld .MODE_STAT_CLEAR_CAUSE = 1 ∧ s.flag .MODE_CFG_LIMP_EN = true ∧ ready ∧ critical fun d =>
      (s.flag .AD_INPUTS_PH_EN d = true → s.fld .AD_SYNC_STAT_STATE d ∈ [2, 3] ∧ s.flag .AD_SYNC_STAT_PH_LOCK d = true ∧
        max 1 (s.fld .MODE_CFG_LIMP_TEETH) ≤ (s.dom d).limpEdges) ∧
      (s.flag .AD_INPUTS_PH_EN d = false → s.fld .AD_SYNC_STAT_STATE d = 2)
    let back := s.mode = 4 ∧ ready ∧ critical fun d =>
      s.fld .AD_SYNC_STAT_STATE d = 2 ∧ max 1 (s.fld .MODE_CFG_RUN_REVS) ≤ (s.dom d).runRevs
    let goes := fun (c : Instr) (target : Nat) => EndsIn c s fun u => s.Accepted u target true ∧
      ∃ x, u.change = some x ∧ x.target = target ∧ x.epoch = some (e, 0, s.angle e)
    (run → goes .autoRun 3) ∧ (¬ run → Ends .autoRun s s) ∧
    (limp → goes .autoLimp 4) ∧ (¬ limp → Ends .autoLimp s s) ∧
    (back → goes .autoLimpToRun 3) ∧ (¬ back → Ends .autoLimpToRun s s)

/-- R182, R183, R186, R192: the pending epoch of a change to Run is reached once the angle has passed its target: the mode is in force,
the drivers follow, and if every sequencer has applied it, the change is over with its event; one to Limp from Clearing releases
the hold of Clearing. Before, or without a pending angle epoch, MODE_EPOCH changes nothing. -/
def EpochClaim : Prop :=
  ∀ s : State, s.Sound → s.up = true →
    (∀ c e, s.change = some c → c.epoch = some e → c.target = 3 → s.angleValid e.1 = true →
      fwd e.2.2 e.2.1 ≤ fwd e.2.2 (s.angle e.1) →
      let u := State.redrive
        { (s.setFld .MODE_STAT_MODE 0 3).setFld .MODE_STAT_EPOCH_PENDING 0 0 with change := some { c with epoch := none } }
      Ends .modeEpoch s (if s.flag .MODE_STAT_TRANSITION then u else
        { (u.setFld .MODE_STAT_TARGET 0 3).setFld .ICU_PLAT_EVT_MODE_DONE 0 1 with change := none })) ∧
    (∀ c e, s.change = some c → c.epoch = some e → c.target = 4 → s.angleValid e.1 = true →
      fwd e.2.2 e.2.1 ≤ fwd e.2.2 (s.angle e.1) → EndsIn .modeEpoch s fun u => u.mode = 4 ∧
        u.flag .MODE_STAT_EPOCH_PENDING = false ∧ (u.hold2 = if s.mode = 5 then false else s.hold2) ∧ ∀ d, d < 4 → (u.dom d).runRevs = 0) ∧
    (∀ c e, s.change = some c → c.epoch = some e → s.angleValid e.1 = false ∨
      fwd e.2.2 (s.angle e.1) < fwd e.2.2 e.2.1 → Ends .modeEpoch s s) ∧
    (s.change = none ∨ (∃ c, s.change = some c ∧ c.epoch = none) → Ends .modeEpoch s s)

/-- R187: a change that some sequencer has not applied after TIMEOUT_CYC boundaries or TIMEOUT_MS milliseconds times out once:
MODE_LAG names the missing sequencers, the fault and an entry of the log say so, a change to Clearing is applied for them, and any
other change goes to Clearing from Seek, Run and Limp. -/
def TimeoutClaim : Prop :=
  ∀ (s : State) (c : Change), s.Sound → s.up = true → s.change = some c →
    let missing := 2 ^ 24 - 1 - s.fld .MODE_APPLIED
    let ms := max 1 (min 16000 (s.fld .MODE_TMO_TIMEOUT_MS))
    let due := c.timedOut = false ∧ s.flag .MODE_STAT_TRANSITION = true ∧
      (max 1 (s.fld .MODE_CFG_TIMEOUT_CYC) ≤ c.bounds ∨ c.at' + ms * 1000000 ≤ s.tnow)
    (¬ due → Ends .modeTimeout s s) ∧
    (due → EndsIn .modeTimeout s fun u => u.fld .MODE_LAG = missing ∧ u.flag .MODE_FAULT_TIMEOUT = true ∧
      (∃ l, u.logNew = ⟨6, 0, c.target, missing⟩ :: l) ∧
      (c.target = 5 → u.mode = s.mode ∧ (missing ≠ 0 → u.flag .MODE_STAT_TRANSITION = false) ∧
        ∀ n, n < 24 → (s.fld .MODE_APPLIED).testBit n = false → u.fld .SEQ_MODE_STAT_APPLIED n = 5) ∧
      (c.target ≠ 5 → 2 ≤ s.mode → s.mode ≤ 4 → u.mode = 5 ∧ u.fld .MODE_STAT_CLEAR_CAUSE = 5))

/-- The epoch and the timeout of a change (R182, R183, R187). (Rests on choices of the model: log entry 51.) -/
def EpochsAndTimeoutsClaim : Prop := EpochClaim ∧ TimeoutClaim

end Sys2Proof.Machine

/-- Automatic changes, epochs and their time-outs. -/
def Obligations.ModeChanges : Prop :=
  Sys2Proof.Machine.AutomaticModesClaim ∧ Sys2Proof.Machine.EpochsAndTimeoutsClaim

namespace Sys2Proof.Machine

/-! ### Wheels, decoders and learners (R20 to R77) -/

/-- A crossing stays in an input's filter past time `stamp`: its filter time has gone by (R25). -/
def State.settled (s : State) (d : Nat) (p : Bool) (stamp : Nat) (x : Edge) : Bool :=
  decide (x.stamp + 8 * s.fld (if p then .AD_EDGEF_PH_FILT else .AD_EDGEF_PRI_FILT) d ≤ stamp)

/-- `u` differs from `v` only in the filters of the inputs that front end `w` serves, each as `f` says, and in the count of the
crossings that they lose (R25). -/
structure State.Filters (s v u : State) (w : Nat) (f : Nat → Bool → List Edge → List Edge) : Prop where
  parts : u = { v with regs := u.regs, doms := u.doms }
  doms : ∀ d, u.dom d = { v.dom d with
    pri := { (v.dom d).pri with filt := ((u.dom d).input false).filt }, pha := { (v.dom d).pha with filt := ((u.dom d).input true).filt } }
  filt : ∀ d p, ((u.dom d).input p).filt =
    if d < 4 ∧ s.inputWin d p = some w then f d p ((s.dom d).input p).filt else ((s.dom d).input p).filt
  fields : ∀ (g : Fld) (i : Nat), g ≠ .AD_CNT_FILT ∨ 4 ≤ i % 1024 → u.fld g i = v.fld g i

/-- R20 to R25, R49: a crossing of a front end is stamped and counted, and enters the filter of each input that takes its direction; in
VR mode only the first negative-going one after an arming is reported, and in digital mode it ends the opposite transitions whose
filter time has not passed. The detector arms on a half-wave above THR_FLOOR and above the fraction THR_FRAC of PEAK: an arming keeps
the peak and ends every crossing still filtered; a second without one resets the peak. -/
def FrontEndsClaim : Prop :=
  ∀ (w : Fin 8) (s : State), s.Sound → s.up = true →
    let vr := s.fld .WFE_CFG_MODE w = 0
    let arms := fun peak : Nat => s.fld .WFE_CFG_THR_FLOOR w < peak ∧
      (min 5 (s.fld .WFE_CFG_THR_FRAC w) + 1) * s.fld .WFE_STAT_PEAK w < 8 * peak
    (∀ stamp rising, vr → s.flag .WFE_STAT_ARMED w = false ∨ (rising != s.flag .WFE_CFG_INVERT w) = true →
      Ends (.wfeCrossing w stamp rising) s s) ∧
    (∀ stamp rising,
      let dir := rising != s.flag .WFE_CFG_INVERT w
      (vr → s.flag .WFE_STAT_ARMED w = true ∧ dir = false) →
      let v := ((if s.fld .WFE_CFG_MODE w = 0 then s.setFld .WFE_STAT_ARMED w 0 else s).setFld .WFE_STAMP w stamp).count .WFE_CROSS w
      EndsIn (.wfeCrossing w stamp rising) s fun u => s.Filters v u w fun d p l =>
        (if s.fld .WFE_CFG_MODE w = 0 then l else l.filter fun x => x.rising == dir || s.settled d p stamp x) ++
          (if s.takesDir d p w dir then [{ stamp, rising := dir }] else [])) ∧
    (∀ peak, vr → arms peak.toNat → EndsIn (.detectorArm w peak) s fun u =>
      s.Filters { (s.setFld .WFE_STAT_ARMED w 1).setFld .WFE_STAT_PEAK w peak.toNat with
        armAt := Tab.put s.armAt w (some s.tnow) } u w fun d p l => l.filter (s.settled d p (s.tnow * 8))) ∧
    (∀ peak, ¬ (vr ∧ arms peak.toNat) → Ends (.detectorArm w peak) s s) ∧
    (Tab.get 0 s.armAt w + 1000000000 ≤ s.tnow → Ends (.peakDecay w) s (s.setFld .WFE_STAT_PEAK w 0)) ∧
    (s.tnow < Tab.get 0 s.armAt w + 1000000000 → Ends (.peakDecay w) s s)

/-- An input of a domain with another record. -/
def State.withInput (s : State) (d : Nat) (p : Bool) (r : InputRec) : State :=
  s.setDom d (if p then { s.dom d with pha := r } else { s.dom d with pri := r })

/-- R25, R26: the oldest crossing of an input whose filter time has passed leaves the filter: nearer to the last accepted edge than
the blanking limit it is blanked and counted, and otherwise it is accepted now and waits for the decoder. Before that time, and
without a crossing, nothing happens. (Rests on choices of the model: log entry 4.) -/
def EdgeAcceptanceClaim : Prop :=
  ∀ (d : Fin 4) (p : Bool) (s : State), s.Sound → s.up = true →
    let r := (s.dom d).input p
    let filt := s.fld (if p then .AD_EDGEF_PH_FILT else .AD_EDGEF_PRI_FILT) d
    (r.filt = [] → Ends (.edgeAccept d p) s s) ∧
    ∀ e l, r.filt = e :: l →
      (s.tnow < e.stamp / 8 + filt → Ends (.edgeAccept d p) s s) ∧
      (e.stamp / 8 + filt ≤ s.tnow →
        (∀ prev lim, r.last = some prev → s.blankLimit d p = some lim → (e.stamp - prev.stamp) * lim.2 < lim.1 →
          Ends (.edgeAccept d p) s ((s.withInput d p { r with filt := l }).count .AD_CNT_BLANK d)) ∧
        ((∀ prev lim, r.last = some prev → s.blankLimit d p = some lim → lim.1 ≤ (e.stamp - prev.stamp) * lim.2) →
          let x : Edge := { e with at' := s.tnow }
          Ends (.edgeAccept d p) s (s.withInput d p { r with
            filt := l, last := some x, accepted := r.accepted ++ [x]
            ivs := match r.last with | some prev => ((e.stamp - prev.stamp) :: r.ivs).take 2 | none => r.ivs })))

/-- An edge that the decoder takes next from an input: it is the oldest one waiting there, and no edge of the other input comes
before it (R27). -/
def State.Takes' (s : State) (d : Nat) (p : Bool) (e : Edge) (rest : List Edge) : Prop :=
  ((s.dom d).input p).accepted = e :: rest ∧
    ∀ x ∈ ((s.dom d).input !p).accepted, if p then e.at' < x.at' else e.at' ≤ x.at'

/-- The domain after the decoder has taken an edge, and nothing more. -/
def State.took (s : State) (d : Nat) (p : Bool) (e : Edge) (rest : List Edge) : State :=
  s.withInput d p { (s.dom d).input p with accepted := rest, done := some e }

/-- R27, R30, R31, R35: with no primary edge to take nothing happens. The first edge of a domain in NOSYNC begins the search in
Seek, Run, Limp and Clearing: with a map that R31 admits the domain is SEEKING with one hypothesis for each present entry and
permitted revolution; with one that it does not, MAP_INVALID is set and the domain stays. In Standby and Dormant the edge is only
noted. (Rests on choices of the model: log entries 23 and 60.) -/
def FirstPrimaryEdgeClaim : Prop :=
  ∀ (d : Fin 4) (s : State), s.Sound → s.up = true →
    ((s.dom d).pri.accepted = [] → Ends (.primaryEdge d) s s) ∧
    ∀ e rest, s.Takes' d false e rest → (s.dom d).pri.done = none → s.fld .AD_SYNC_STAT_STATE d = 0 →
      let t := s.took d false e rest
      (s.mode < 2 ∨ 6 ≤ s.mode ∨ (s.dom d).invalid = true → Ends (.primaryEdge d) s t) ∧
      (2 ≤ s.mode → s.mode ≤ 5 → (s.dom d).invalid = false → s.mapOk d = false →
        Ends (.primaryEdge d) s ((t.setFld .AD_FAULT_MAP_INVALID d 1).setDom d { t.dom d with invalid := true })) ∧
      (2 ≤ s.mode → s.mode ≤ 5 → (s.dom d).invalid = false → s.mapOk d = true → EndsIn (.primaryEdge d) s fun u =>
        u.fld .AD_SYNC_STAT_STATE d = 1 ∧
        u.dom d = { t.dom d with needSeed := false, hyps := (u.dom d).hyps } ∧
        (∀ h, h ∈ (u.dom d).hyps ↔ h = { entry := h.entry, rev := h.rev } ∧ h.entry < s.fld .AD_MAPCFG_TLEN d ∧
          s.present d h.entry = true ∧
          (h.rev = 0 ∨ (h.rev = 1 ∧ s.flag .AD_CFG_CYCLE_720 d = true ∧ s.flag .AD_CFG_WHEEL_ON_CAM d = false))) ∧
        (∀ k, k ≠ d.val → u.dom k = s.dom k) ∧
        ∀ (f : Fld) (i : Nat), ¬ (f = .AD_SYNC_STAT_STATE ∧ i % 1024 = d) → u.fld f i = s.fld f i)

/-- R33, R34, R52 to R58: in SYNC, an edge whose period the map expects at the next present position moves POS there, records the
period, predicts from it, and keeps the angle valid. (The edge of entry 0 of a crank wheel, where R42 judges the revolution, is left
to the statement of the loss.) (Rests on choices of the model: log entries 19 and 60.) -/
def SyncPrimaryEdgeClaim : Prop :=
  ∀ (d : Fin 4) (s : State) (e prev : Edge) (rest : List Edge), s.Sound → s.up = true → s.Takes' d false e rest →
    (s.dom d).pri.done = some prev → s.fld .AD_SYNC_STAT_STATE d = 2 → prev.caught = false → prev.stamp ≤ e.stamp →
    e.stamp - prev.stamp ≤ 2 ^ 32 →
    let k := s.fld .AD_SYNC_STAT_POS d
    let j := if k + 1 < s.fld .AD_MAPCFG_TLEN d then k + 1 else 0
    let t := roundDiv ((e.stamp - prev.stamp) * 256 * s.factor d k) (2 ^ 23)
    s.fld .AD_MAPCFG_TLEN d ≠ 0 → s.present d j = true → j ≠ 0 →
    (s.dom d).est.p * s.angleNext d k ≠ 0 → (s.dom d).seg.valid = true →
    t * s.aRef d * 16 ≤ s.nogapMax d k * ((s.dom d).est.p * s.angleNext d k) →
      EndsIn (.primaryEdge d) s fun u =>
        u.fld .AD_SYNC_STAT_STATE d = 2 ∧ u.fld .AD_SYNC_STAT_POS d = j ∧
        u.fld .AD_LAST_PERIOD d = min (e.stamp - prev.stamp) 0xFFFFFFFF ∧
        u.fld .AD_LAST_RATIO d = min 0xFFFF (t * s.aRef d * 256 / ((s.dom d).est.p * s.angleNext d k)) ∧
        (u.dom d).pri = { (s.dom d).pri with accepted := rest, done := some e } ∧
        (u.dom d).est.hist = (roundDiv (t * s.aRef d) (s.angleNext d k) :: (s.dom d).est.hist).take (s.depth d) ∧
        (u.dom d).seg.valid = true ∧ (u.dom d).seg.rate = (u.dom d).est.rate ∧
        (∀ i, i ≠ d.val → u.fld .AD_SYNC_STAT_STATE i = s.fld .AD_SYNC_STAT_STATE i)

/-- R27, R37, R45, R190: with no phase edge to take nothing happens. In NOSYNC an edge of an input that is in use enters the
phase tracker; in Clearing it counts for Limp while PH_LOCK is 1. (Rests on choices of the model: log entries 60 and 61.) -/
def PhaseEdgesClaim : Prop :=
  ∀ (d : Fin 4) (s : State), s.Sound → s.up = true →
    ((s.dom d).pha.accepted = [] → Ends (.phaseEdge d) s s) ∧
    ∀ e rest, s.Takes' d true e rest → s.fld .AD_SYNC_STAT_STATE d = 0 →
      ((s.dom d).pha.done = none →
        let t := s.took d true e rest
        Ends (.phaseEdge d) s (if s.mode = 5 then t.setDom d { t.dom d with
          limpEdges := if s.flag .AD_SYNC_STAT_PH_LOCK d then (s.dom d).limpEdges + 1 else 0 } else t)) ∧
      ∀ prev p t0, (s.dom d).pha.done = some prev → prev.caught = false → prev.stamp ≤ e.stamp →
        e.stamp - prev.stamp ≤ 2 ^ 32 → s.flag .AD_INPUTS_PH_EN d = true → (s.dom d).phEntry = some p → (s.dom d).phIv = some t0 →
        let t := e.stamp - prev.stamp
        let j := if p + 1 < s.fld .AD_MAPCFG_PLEN d then p + 1 else 0
        let a := t * s.phInterval d (if j = 0 then s.fld .AD_MAPCFG_PLEN d - 1 else j - 1)
        let b := t0 * s.phInterval d j
        let near := (max a b - min a b) * 256 ≤ s.fld .AD_MAPCFG_PH_RATIO_TOL d * b
        p < s.fld .AD_MAPCFG_PLEN d → EndsIn (.phaseEdge d) s fun u =>
          (u.dom d).phIv = some t ∧ (u.dom d).pha = { (s.dom d).pha with accepted := rest, done := some e } ∧
          (near → (u.dom d).phEntry = some j ∧ u.fld .AD_SYNC_STAT_PH_POS d = j ∧
            u.fld .AD_SYNC_STAT_PH_LOCK d = s.fld .AD_SYNC_STAT_PH_LOCK d) ∧
          (¬ near → (u.dom d).phEntry = none ∧ u.flag .AD_SYNC_STAT_PH_LOCK d = false)

/-- A domain back in NOSYNC from SEEKING: without hypotheses and crank lock (R43). -/
def State.searchEnded (s : State) (d : Nat) : State :=
  ((s.setFld .AD_SYNC_STAT_STATE d 0).setFld .AD_SYNC_STAT_CRANK_LOCK d 0).setDom d
    { s.dom d with hyps := [], needSeed := false, est := {}, seg := {} }

/-- R40, R43: DESYNC and a stall end a search: the domain is back in NOSYNC. In SYNC and PHASE-ONLY they are a loss of sync with
causes 5 and 3: the domain is in NOSYNC, its angle is not valid, the loss is counted and logged, and spillway path 1 holds the
domain. RESEED starts the search afresh. In NOSYNC none of them does anything, and a stall does nothing before its time.
(Rests on choices of the model: log entry 23.) -/
def SyncEndsClaim : Prop :=
  ∀ (src : Src) (d : Fin 4) (s : State),
    let st := s.fld .AD_SYNC_STAT_STATE d
    let last := ((s.dom d).input (st == 3)).last
    let due := ∃ e, last = some e ∧ e.at' + max 1 (min 16000 (s.fld .AD_STALL_STALL_MS d)) * 1000000 ≤ s.tnow
    let off := 0x40024 + 0x1000 * d.val
    let lost := fun cause (u : State) => u.fld .AD_SYNC_STAT_STATE d = 0 ∧ u.fld .AD_SYNC_STAT_LOSS_CAUSE d = cause ∧
      (u.dom d).seg.valid = false ∧ (u.dom d).hyps = [] ∧ u.flag .AD_SYNC_STAT_CRANK_LOCK d = false ∧
      u.flag .AD_SYNC_STAT_ANGLE_VALID d = false ∧ (u.fld .SPILL_STAT_DOMAIN_HOLD).testBit d = true ∧
      u.fld .AD_CNT_LOSS d = min (s.fld .AD_CNT_LOSS d + 1) (2 ^ Fld.width .AD_CNT_LOSS - 1) ∧
      ⟨1, d, cause, s.fld .AD_LAST_RATIO d * 65536 + s.fld .AD_SYNC_STAT_REV d * 1024 + s.fld .AD_SYNC_STAT_POS d⟩ ∈ u.logNew
    (s.Sound → s.up = true →
      (st = 0 ∨ ¬ due → Ends (.stall d) s s) ∧
      (st = 1 → due → Ends (.stall d) s (s.searchEnded d)) ∧
      (st = 2 ∨ st = 3 → due → EndsIn (.stall d) s fun u => lost 3 u ∧ u.flag .AD_FAULT_STALL d = true)) ∧
    (st = 0 → Stores (.desync src d) s src off 1 s.cleared) ∧
    (st = 1 → Stores (.desync src d) s src off 1 (s.cleared.searchEnded d)) ∧
    (st = 2 ∨ st = 3 → s.Takes src off → EndsIn (.desync src d) s fun u => ∃ v : State, lost 5 v ∧ u = v.passedOn src off 1) ∧
    (st ≠ 1 → Stores (.reseed src d) s src off 2 s.cleared) ∧
    (st = 1 → Stores (.reseed src d) s src off 2
      ((((s.cleared.setFld .AD_FAULT_ACQ_RESTART d 1).count .AD_CNT_RESTART d).setFld .AD_SYNC_STAT_CRANK_LOCK d 0).setDom d
        { s.dom d with hyps := [], needSeed := true, est := {} }))

/-- R3, R60, R63: ANGLE_CLAMP counts a hold of the angle once. CYCLE_BOUNDARY, once the angle has passed 0 AU, counts the cycle in
CYC, which from its highest value goes to 0 and sets WRAPPED; before, it does nothing. (What else waits for a boundary: R73 in
LearnerAndWeights, R140 in SequencerCommands.) -/
def ClampsAndBoundariesClaim : Prop :=
  ∀ (d : Fin 4) (s : State), s.Sound → s.up = true →
    let g := (s.dom d).seg
    let due := g.valid = true ∧ ((s.dom d).turns + 1) * 2 ^ 48 ≤ g.acc (s.tnow * 8)
    (g.clamped (s.tnow * 8) = true → (s.dom d).clampSeen = false →
      Ends (.angleClamp d) s ((s.count .AD_CNT_CLAMP d).setDom d { s.dom d with clampSeen := true })) ∧
    (g.clamped (s.tnow * 8) = false ∨ (s.dom d).clampSeen = true → Ends (.angleClamp d) s s) ∧
    (¬ due → Ends (.cycleBoundary d) s s) ∧
    (due → EndsIn (.cycleBoundary d) s fun u =>
      u.fld .AD_CYC d = (s.fld .AD_CYC d + 1) % 2 ^ 32 ∧
      u.fld .AD_EST_FAULT_WRAPPED d = (if s.fld .AD_CYC d = 2 ^ 32 - 1 then 1 else s.fld .AD_EST_FAULT_WRAPPED d) ∧
      (u.dom d).turns = (s.dom d).turns + 1 ∧ (u.dom d).boundAt = some s.tnow ∧ (u.dom d).seg = g ∧
      (∀ i, i ≠ d.val → i < 4 → u.fld .AD_CYC i = s.fld .AD_CYC i) ∧
      (s.flag .AD_TCL_STAT_SWAP_PENDING d = true → s.flag .AD_TCL_STAT_BACK_COMPLETE d = true →
        u.fld .AD_TCL_STAT_FRONT d = 1 - s.fld .AD_TCL_STAT_FRONT d ∧ u.flag .AD_TCL_STAT_SWAP_PENDING d = false ∧
        u.flag .AD_TCL_STAT_BACK_COMPLETE d = false ∧ u.fld .AD_TCL_STAT_REVS_DONE d = 0))

/-- R71 to R74: TCL_SWAP asks for the other correction bank: while the learner is on or writes, the request waits; else the bank, loaded
by the host, is checked against BOUND, and the request stands with a complete bank or is refused. TCL_RESTART discards the run.
(Rests on choices of the model: log entry 24.) -/
def LearnerCommandsClaim : Prop :=
  ∀ (src : Src) (d : Fin 4) (s : State),
    let off := 0x40188 + 0x1000 * d.val
    let own := s.flag .AD_TCL_CFG_LEARN_EN d = true ∨ s.flag .AD_TCL_STAT_WRITING d = true
    let inBound := ∀ k, k < s.fld .AD_MAPCFG_TLEN d → s.present d k = true →
      let f := s.word (0x80000 + 0x10000 * d.val + 0x4000 + 0x1000 * (1 - s.fld .AD_TCL_STAT_FRONT d) + 4 * k) % 2 ^ 24
      max f (2 ^ 23) - min f (2 ^ 23) ≤ s.fld .AD_TCL_BOUND d * 128
    (own → Stores (.tclSwap src d) s src off 1 (s.cleared.setFld .AD_TCL_STAT_SWAP_PENDING d 1)) ∧
    (¬ own → inBound → Stores (.tclSwap src d) s src off 1
      ((s.cleared.setFld .AD_TCL_STAT_SWAP_PENDING d 1).setFld .AD_TCL_STAT_BACK_COMPLETE d 1)) ∧
    (¬ own → ¬ inBound → Stores (.tclSwap src d) s src off 1
      (((s.cleared.setFld .AD_TCL_FAULT_SWAP_REFUSED d 1).setFld .AD_TCL_STAT_SWAP_PENDING d 0).setFld .AD_TCL_STAT_BACK_COMPLETE d 0)) ∧
    Stores (.tclRestart src d) s src off 2 ((s.cleared.setFld .AD_TCL_STAT_REVS_DONE d 0).setDom d
      { s.dom d with learn := { (s.dom d).learn with sums := [] } })

end Sys2Proof.Machine

/-- The wheel front ends, and the acceptance of their edges. -/
def Obligations.FrontEnds : Prop :=
  Sys2Proof.Machine.FrontEndsClaim ∧ Sys2Proof.Machine.EdgeAcceptanceClaim

/-- Edges that reach a decoder. -/
def Obligations.WheelEdges : Prop :=
  Sys2Proof.Machine.FirstPrimaryEdgeClaim ∧ Sys2Proof.Machine.SyncPrimaryEdgeClaim ∧ Sys2Proof.Machine.PhaseEdgesClaim

/-- Loss of synchronisation, clamps and cycle boundaries. -/
def Obligations.DomainEvents : Prop :=
  Sys2Proof.Machine.SyncEndsClaim ∧ Sys2Proof.Machine.ClampsAndBoundariesClaim

namespace Sys2Proof.Machine

/-! ### Converters, basins, trackers and feeds (R197 to R228) -/

/-- A read whose effect leaves `u`: it answers with `value` (R320). A read is not forwarded. -/
def Loads (c : Instr) (s : State) (src : Src) (off value : Nat) (u : State) : Prop :=
  s.Ready → s.carries src off = true → Ends c s { u with resp := .data value }

/-- The even converter of the pair of `k` interleaves (R202). -/
def State.interleaves (s : State) (k : Nat) : Bool := s.flag .ADC_CFG_ILV (k / 2 * 2)

/-- The entry and the source of the conversion that converter `k` carries out: kept from before a change of its list, or of its list
as it stands; of an interleaving pair entry 0 (R201, R202). -/
def State.converting (s : State) (k : Nat) : Nat × Nat :=
  (s.adc k).running.getD
    (if s.interleaves k then (0, Tab.get 0x60 (s.adc k).list 0) else ((s.adc k).entry, Tab.get 0x60 (s.adc k).list (s.adc k).entry))

/-- A conversion in progress is kept while its list changes (R201). -/
def State.convKept (s : State) (k : Nat) : State :=
  s.setAdc k { s.adc k with running := if s.flag .ADC_STAT_RUNNING k then some (s.converting k) else (s.adc k).running }

/-- A converter that the shadow has reached (R201, R206): list, filter enables and coefficients are in use from entry 0. -/
def State.listTaken (s : State) (k : Nat) : State :=
  s.setAdc k { s.adc k with
    list := (upto 16).foldl (fun t e => Tab.set 0x60 t e (s.fld .ADC_SEQ_SRC (16 * k + e))) (s.adc k).list
    lenM1 := s.fld .ADC_CFG_LEN_M1 k, entry := 0
    bq0 := s.flag .ADC_FLT_CFG_BQ0_EN k, bq1 := s.flag .ADC_FLT_CFG_BQ1_EN k
    coef := (upto 10).foldl (fun t j => Tab.set (if j % 5 = 0 then 2 ^ 22 else 0) t j (s.fld .ADC_COEF (10 * k + j))) (s.adc k).coef }

/-- Every entry of a list of the shadow names a source that R200 assigns; the list of an interleaving pair has one entry (R202). -/
def State.listLegal (s : State) (k : Nat) : Prop :=
  ∀ e, e ≤ (if s.interleaves k ∧ k % 2 = 0 then 0 else s.fld .ADC_CFG_LEN_M1 k) →
    sourceAssigned (s.fld .ADC_SEQ_SRC (16 * k + e)) = true

/-- R201 to R203, R206: COMMIT waits for the end of the pass where the converter runs its own list; otherwise it takes the shadow
into use at once, and a conversion in progress keeps its entry and source, or is refused over a source that is not assigned; with one
pending already it does nothing. CAL of an even
converter begins a calibration and ends interleaving; of an odd one it does nothing. FLT_RESET clears the filter's state.
(Rests on choices of the model: log entry 25.) -/
def ConverterCommandsClaim : Prop :=
  ∀ (src : Src) (k : Fin 24) (s : State),
    let off := 0x140004 + 0x100 * k.val
    let own := s.flag .ADC_CFG_EN k = true ∧ (k.val % 2 = 0 ∨ s.interleaves k = false)
    (s.flag .ADC_STAT_COMMIT_PENDING k = true → Stores (.adcCommit src k) s src off 1 s.cleared) ∧
    (s.flag .ADC_STAT_COMMIT_PENDING k = false →
      (own → Stores (.adcCommit src k) s src off 1 (s.cleared.setFld .ADC_STAT_COMMIT_PENDING k 1)) ∧
      (¬ own → s.listLegal k → Stores (.adcCommit src k) s src off 1 ((s.cleared.convKept k).listTaken k)) ∧
      (¬ own → ¬ s.listLegal k →
        Stores (.adcCommit src k) s src off 1 ((s.cleared.convKept k).setFld .ADC_STAT_COMMIT_REFUSED k 1))) ∧
    (k.val % 2 = 0 → Stores (.adcCal src k) s src off 2
      (((s.cleared.setFld .ADC_STAT_CAL_BUSY k 1).setFld .ADC_STAT_ILV_ACTIVE k 0).setAdc k { s.adc k with calAt := s.tnow })) ∧
    (k.val % 2 = 1 → Stores (.adcCal src k) s src off 2 s.cleared) ∧
    Stores (.adcFltReset src k) s src off 4 (s.cleared.setAdc k { s.adc k with st0 := {}, st1 := {} })

/-- R199, R201 to R203: a write of ADC_CFG stores LEN_M1 and EN. ILV is stored in a disabled even converter only; a change of it
in an enabled one is logged as LOCKED, and as it changes the odd converter of the pair ends its list, or runs it again if its EN is 1.
A converter that is enabled runs from entry 0, and calibrates if its pair interleaves; one that is disabled ends after its conversion.
EN of the odd converter of an interleaving pair is stored, and acts on nothing. -/
def ConverterConfigClaim : Prop :=
  ∀ (src : Src) (k : Fin 24) (v : Word) (s : State),
    let off := 0x140000 + 0x100 * k.val
    let was := s.flag .ADC_CFG_EN k
    let even := k.val % 2 == 0
    let en := bitN v.toNat 31
    let ilv := bitsN v.toNat 30 30
    let differs := even && ilv != s.fld .ADC_CFG_ILV k
    let base := if differs && was then s.cleared.accessLogged src off true .locked
      else if differs then
        ((s.cleared.setFld .ADC_CFG_ILV k ilv).setFld .ADC_STAT_RUNNING (k + 1) (if ilv = 1 then 0 else s.fld .ADC_CFG_EN (k + 1))).setAdc
          (k + 1) { s.adc (k + 1) with running := none, entry := 0 }
      else s.cleared
    let base := (base.setFld .ADC_CFG_LEN_M1 k (bitsN v.toNat 3 0)).setFld .ADC_CFG_EN k (b2n en)
    let kept := base.convKept k
    let first := (kept.setFld .ADC_STAT_RUNNING k 1).setAdc k { kept.adc k with entry := 0 }
    let own := even = true ∨ s.interleaves k = false
    let ends := fun u => Stores (.adcCfgWrite src k v) s src off v.toNat u
    (¬ own ∨ was = en → ends base) ∧
    (own → was = false → en = true → ends (if even && ilv != 0 then
      ((first.setFld .ADC_STAT_CAL_BUSY k 1).setFld .ADC_STAT_ILV_ACTIVE k 0).setAdc k { first.adc k with calAt := s.tnow }
      else first)) ∧
    (own → was = true → en = false → ends (if even then base.setFld .ADC_STAT_ILV_ACTIVE k 0 else base))

/-- R203, R204: a calibration ends 200 µs after its start: a trim of at most 2 ns is taken, in steps of 10 ps, and the pair interleaves
where it is configured to; otherwise CAL_FAIL is set. Before that, or with none in progress, nothing happens. -/
def CalibrationClaim : Prop :=
  ∀ (p : Fin 12) (skew : Option (BitVec 16)) (s : State), s.Sound → s.up = true →
    let k := 2 * p.val
    let due := s.flag .ADC_STAT_CAL_BUSY k = true ∧ (s.adc k).calAt + 200000 ≤ s.tnow
    let u := s.setFld .ADC_STAT_CAL_BUSY k 0
    let found := fun x : BitVec 16 => skew = some x ∧ -2000 ≤ x.toInt ∧ x.toInt ≤ 2000
    (¬ due → Ends (.adcCalDone p skew) s s) ∧
    (due → ∀ x, found x → Ends (.adcCalDone p skew) s ((u.setFld .ADC_ILV_SKEW k
      (wrapI 16 ((2 * x.toInt + 10) / 20 * 10))).setFld .ADC_STAT_ILV_ACTIVE k (b2n (s.flag .ADC_CFG_ILV k && s.flag .ADC_CFG_EN k)))) ∧
    (due → (∀ x, ¬ found x) → Ends (.adcCalDone p skew) s (u.setFld .ADC_STAT_CAL_FAIL k 1))

/-- R197: a write of AIN_CFG that changes a field discards the samples of that input for 5 µs, from the first write of an interval that
still runs; any other changes nothing. -/
def InputConfigClaim : Prop :=
  ∀ (src : Src) (a : Fin 48) (v : Word) (s : State),
    let off := 0x142000 + 4 * a.val
    let same := bitsN v.toNat 1 1 = s.fld .AIN_CFG_AAF a ∧ bitsN v.toNat 0 0 = s.fld .AIN_CFG_RANGE a
    (same → Stores (.ainCfgWrite src a v) s src off v.toNat s.cleared) ∧
    (¬ same → Stores (.ainCfgWrite src a v) s src off v.toNat
      { (s.cleared.setFld .AIN_CFG_AAF a (bitsN v.toNat 1 1)).setFld .AIN_CFG_RANGE a (bitsN v.toNat 0 0) with
        settle := Tab.put s.settle a (some
          (match Tab.find s.settle a with | some t => if s.tnow < t.2 then t.1 else s.tnow | none => s.tnow, s.tnow + 5000)) })

/-- The configuration of converters and analog inputs, and the end of a calibration. (Rests on choices of the model: log entry 25.) -/
def ConverterConfigurationClaim : Prop := ConverterConfigClaim ∧ CalibrationClaim ∧ InputConfigClaim

end Sys2Proof.Machine

open Sys2Proof Sys2Proof.Machine in
/-- R197 to R213: a conversion of a running converter outside an interleaving pair takes the sample of the source of its entry, in
two's complement from a bipolar input and within what an internal source allows, and moves to the next entry, or to the first after
the last. A basin of mode 0 whose window holds the instant adds it. A sample whose instant lies in the settling of its input is dropped
and recorded. A converter that does not run does nothing. (Rests on choices of the model: log entries 25 and 54 and 57.) -/
def Obligations.Conversions : Prop :=
  ∀ (k : Fin 24) (code : BitVec 16) (inst : Nat) (s : State), s.Sound → s.up = true → s.interleaves k = false →
    let q := s.adc k
    let entry := (s.converting k).1
    let source := (s.converting k).2
    let x : Int := if source < 0x30 ∧ s.flag .AIN_CFG_RANGE source = true then code.toInt else s.codeOf source code.toNat inst
    let drops := source < 0x30 ∧ ∃ t, Tab.find s.settle source = some t ∧ t.1 ≤ inst ∧ inst < t.2
    (s.flag .ADC_STAT_RUNNING k = false → Ends (.adcConversion k code inst) s s) ∧
    (s.flag .ADC_STAT_RUNNING k = true → s.flag .ADC_CFG_EN k = true → s.flag .ADC_STAT_COMMIT_PENDING k = false →
      s.flag .ADC_STAT_CAL_BUSY (k / 2 * 2) = false →
      let next := if q.running.isSome then q.entry else if q.lenM1 ≤ q.entry then 0 else q.entry + 1
      (drops → Ends (.adcConversion k code inst) s
        ((s.setFld .ADC_STAT_SETTLE_DROP k 1).setAdc k { q with entry := next, running := none })) ∧
      (¬ drops → EndsIn (.adcConversion k code inst) s fun u =>
        u = { s with regs := u.regs, adcs := u.adcs, basins := u.basins } ∧
        (∀ j, j ≠ k.val → u.adc j = s.adc j) ∧ (u.adc k).entry = next ∧ (u.adc k).list = q.list ∧
        (∀ f i, f ∉ [.BAS_STAT_OPEN, .BAS_STAT_OVF, .ADC_STAT_FLT_SAT] → u.fld f i = s.fld f i) ∧
        (∀ b w, b < 512 → (s.basin b).wins = [w] → s.fld .BAS_CFG_CONV b = k → s.fld .BAS_CFG_ENTRY b = entry →
          s.fld .BAS_CFG_TAP b = 0 → s.fld .BAS_CFG_MODE b = 0 → w.close = none → w.eOpen ≤ inst →
          -(2 ^ 63 : Int) ≤ w.acc + x → w.acc + x < (2 ^ 63 : Int) →
            ∃ y, (u.basin b).wins = [y] ∧ y.acc = w.acc + x ∧ y.samples = min (2 ^ 32 - 1) (w.samples + 1) ∧
              y.eOpen = w.eOpen ∧ y.close = none ∧ y.ovf = w.ovf) ∧
        ∀ b w, b < 512 → (s.basin b).wins = [w] → inst < w.eOpen → (u.basin b).wins = [w]))

namespace Sys2Proof.Machine

/-- Some field of BAS_CFG beside EN would change. -/
def State.basDiffers (s : State) (k v : Nat) : Prop := ∃ f ∈ basCfgFields, s.fld f.1 k ≠ bitsN v f.2.1 f.2.2

/-- What R208 and R228 refuse: TAP 1 of another entry than 0, a converter that is absent or the odd one of an interleaving pair,
and a ninth basin of one converter. -/
def State.basBad (s : State) (k v : Nat) : Prop :=
  (bitN v 9 = true ∧ bitsN v 3 0 ≠ 0) ∨ 24 ≤ bitsN v 8 4 ∨ (bitsN v 8 4 % 2 = 1 ∧ s.interleaves (bitsN v 8 4) = true) ∨
    8 ≤ ((upto 512).filter fun j => j != k && s.flag .BAS_CFG_EN j && s.fld .BAS_CFG_CONV j == bitsN v 8 4).length

/-- R208, R209, R217, R228: BAS_CFG of a disabled basin is stored, and EN enables it unless R208 refuses. In an enabled basin a
change of another field is logged as LOCKED, and EN at 0 aborts its window, which is counted, and disables it. -/
def BasinConfigClaim : Prop :=
  ∀ (src : Src) (k : Fin 512) (v : Word) (s : State),
    let off := 0x150000 + 0x40 * k.val
    let en := bitN v.toNat 31
    let ends := fun u => Stores (.basCfgWrite src k v) s src off v.toNat u
    let stored := basCfgFields.foldl (fun t f => t.setFld f.1 k (bitsN v.toNat f.2.1 f.2.2)) s.cleared
    (s.flag .BAS_CFG_EN k = false →
      (en = false → ends stored) ∧
      (en = true → s.basBad k v.toNat → ends (stored.setFld .BAS_STAT_REFUSED k 1)) ∧
      (en = true → ¬ s.basBad k v.toNat →
        ends ((stored.setFld .BAS_CFG_EN k 1).setBasin k { s.basin k with dupOpen := none }))) ∧
    (s.flag .BAS_CFG_EN k = true → ∀ base, (s.basDiffers k v.toNat → base = s.cleared.accessLogged src off true .locked) →
      (¬ s.basDiffers k v.toNat → base = s.cleared) →
      (en = true → ends base) ∧
      (en = false → (s.basin k).open = none → ends (base.setFld .BAS_CFG_EN k 0)) ∧
      (en = false → ∀ w l, (s.basin k).wins = l ++ [w] → w.close = none → (∀ y ∈ l, y.close ≠ none) →
        ends (((((base.setBasin k { s.basin k with wins := l }).setFld .BAS_STAT_OPEN k 0).setFld .BAS_STAT_ABORTED k 1).count
          .BAS_CNT_ABORT k).setFld .BAS_CFG_EN k 0)))

/-- R210 to R212: OPEN opens a window of an enabled basin at TNOW, CLOSE closes it then, and CLOSE_OPEN does both, unless PWM
markers own the windows. OPEN with a window open, and CLOSE without one, set DUP; OPEN of mode 3 without a valid angle is an
abort. -/
def BasinActionClaim : Prop :=
  ∀ (src : Src) (k : Fin 512) (s : State),
    let off := 0x15000C + 0x40 * k.val
    let th := s.angleAt (s.fld .BAS_CFG_DOMAIN k) s.tnow
    let fresh : Window := { eOpen := s.tnow, thPrev := th.1, woffset := s.fld .BAS_WOFFSET k }
    let closed := fun w : Window => { w with close := some (s.tnow, s.fld .AD_CYC (s.fld .BAS_CFG_DOMAIN k) % 256) }
    let wins := fun (ws : List Window) (o : Nat) (u : State) => (u.setBasin k { u.basin k with wins := ws }).setFld .BAS_STAT_OPEN k o
    let opn := Stores (.basOpen src k) s src off 1
    let cls := Stores (.basClose src k) s src off 2
    let both := Stores (.basCloseOpen src k) s src off 4
    let dup := s.cleared.setFld .BAS_STAT_DUP k 1
    let bad := s.fld .BAS_CFG_MODE k = 3 ∧ th.2 = false
    (s.flag .BAS_CFG_EN k = false ∨ s.flag .BAS_CFG_WIN_SRC k = true → opn s.cleared ∧ cls s.cleared ∧ both s.cleared) ∧
    (s.flag .BAS_CFG_EN k = true → s.flag .BAS_CFG_WIN_SRC k = false →
      ((s.basin k).open = none →
        (bad → opn (s.cleared.count .BAS_CNT_ABORT k)) ∧
        (¬ bad → opn (wins ((s.basin k).wins ++ [fresh]) 1 s.cleared) ∧ both (wins ((s.basin k).wins ++ [fresh]) 1 dup)) ∧ cls dup) ∧
      (∀ w l, (s.basin k).wins = l ++ [w] → w.close = none →
        opn (dup.setBasin k { s.basin k with dupOpen := some (s.tnow, s.flag .BAS_STAT_DUP k) }) ∧
        (w.eOpen = s.tnow → cls dup) ∧
        (w.eOpen ≠ s.tnow → (∀ e b, (s.basin k).dupOpen = some (e, b) → e ≠ s.tnow) →
          cls (wins (l ++ [closed w]) 0 s.cleared) ∧
          (¬ bad → both (wins (l ++ [closed w, fresh]) 1 s.cleared)))))

/-- The configuration of basins, and their windows by the host's commands. (Rests on choices of the model: log entry 2.) -/
def BasinCommandsClaim : Prop := BasinConfigClaim ∧ BasinActionClaim

/-- R212, R215, R216, R223, R225: 600 ns after a window closed it latches: SEQ counts, the read port takes its value, samples and
tag unless a read is in progress, which is recorded as LATE_READ; its feed gets the record, unless it holds 64, and its interrupt is
raised where they are enabled. Before that time, or without a closed window, nothing happens.
(Rests on choices of the model: log entry 4.) -/
def BasinLatchesClaim : Prop :=
  ∀ (k : Fin 512) (s : State), s.Sound → s.up = true → s.dmaIdle = true →
    ((s.basin k).wins = [] → Ends (.basinLatch k) s s) ∧
    ∀ w l, (s.basin k).wins = w :: l →
      (w.close = none → Ends (.basinLatch k) s s) ∧
      ∀ t cyc, w.close = some (t, cyc) →
        (s.tnow < t + 600 → Ends (.basinLatch k) s s) ∧
        (t + 600 ≤ s.tnow →
          let seq := (s.fld .BAS_STAT_SEQ k + 1) % 256
          let busy := ∃ e ∈ (s.basin k).reading, s.tnow < e.2 + 10000
          let value := (BitVec.ofInt 64 w.acc).toNat
          let late := (s.basin k).late
          EndsIn (.basinLatch k) s fun u =>
            u.fld .BAS_STAT_SEQ k = seq ∧ (u.basin k).wins = l ∧
            (¬ busy → u.fld .BAS_VALUE k = value ∧ u.fld .BAS_SAMPLES k = w.samples % 2 ^ 32 ∧ u.fld .BAS_TAG_CYC k = cyc % 256 ∧
              u.fld .BAS_TAG_SEQ k = seq ∧ u.flag .BAS_TAG_LATE k = late ∧ u.flag .BAS_TAG_OVF k = w.ovf ∧
              (u.basin k).late = false) ∧
            (busy → u.flag .BAS_STAT_LATE_READ k = true ∧ (u.basin k).late = true ∧
              (∀ f ∈ [.BAS_VALUE, .BAS_SAMPLES, .BAS_TAG_CYC, .BAS_TAG_SEQ, .BAS_TAG_LATE, .BAS_TAG_OVF], u.fld f k = s.fld f k)) ∧
            (s.flag .BAS_CFG_FEED_EN k = true → (s.feed (s.fld .BAS_CFG_FEED k)).records.length < 64 →
              ∃ r, (u.feed (s.fld .BAS_CFG_FEED k)).records = (s.feed (s.fld .BAS_CFG_FEED k)).records ++ [r] ∧
                r.take 3 = [value % 2 ^ 32, value / 2 ^ 32, w.samples]) ∧
            (s.flag .BAS_CFG_FEED_EN k = true → 64 ≤ (s.feed (s.fld .BAS_CFG_FEED k)).records.length →
              u.feed (s.fld .BAS_CFG_FEED k) = s.feed (s.fld .BAS_CFG_FEED k) ∧
                u.flag .BAS_FEED_STAT_OVF (s.fld .BAS_CFG_FEED k) = true) ∧
            (u.fld .BAS_CLOSED (k / 32)).testBit (k % 32 : Nat) = (s.flag .BAS_CFG_IRQ k || (s.fld .BAS_CLOSED (k / 32)).testBit (k % 32 : Nat)))

/-- The low word of a 64-bit register read by a source: it latches the high word for it (R326). -/
def State.highLatched (s : State) (src : Src) (off high : Nat) : State :=
  { s with latched := Tab.put s.latched (srcNum src) (some (off, high)) }

end Sys2Proof.Machine

open Sys2Proof Sys2Proof.Machine in
/-- R216, R222, R224, R326: a read of VALUE answers with its low word, latches the high one and begins a read in progress, which a
read of TAG ends, or the passing of 10 µs. A read of TRK_MAX latches the tracker's other words for its source, beside those of other
trackers. The two words of a feed's unit leave it in order, the second after the latched high word; a unit whose low word found the
feed empty is all ones, removes nothing and is recorded. -/
def Obligations.PortReads : Prop :=
  ∀ (src : Src) (s : State),
    (∀ k : Fin 512,
      let v := s.fld .BAS_VALUE k
      let off := 0x150020 + 0x40 * k.val
      let b := s.basin k
      Loads (.basValueRead src k) s src off (v % 2 ^ 32) ((s.highLatched src (off + 4) (v / 2 ^ 32)).setBasin k
        { b with reading := Tab.put b.reading (srcNum src) (some s.tnow) }) ∧
      Loads (.basTagRead src k) s src (off + 12)
        (s.fld .BAS_TAG_CYC k * 2 ^ 24 + s.fld .BAS_TAG_SEQ k * 2 ^ 16 + s.fld .BAS_TAG_LATE k * 2 ^ 10 + s.fld .BAS_TAG_OVF k * 2 ^ 9 + k)
        (s.setBasin k { b with reading := Tab.put b.reading (srcNum src) none }) ∧
      (s.Sound → s.up = true →
        (∀ t, Tab.find b.reading (srcNum src) = some t → t + 10000 ≤ s.tnow →
          Ends (.readInProgressTimeout src k) s (s.setBasin k { b with reading := Tab.put b.reading (srcNum src) none })) ∧
        ((∀ t, Tab.find b.reading (srcNum src) = some t → s.tnow < t + 10000) → Ends (.readInProgressTimeout src k) s s))) ∧
    (∀ k : Fin 128, Loads (.trkMaxRead src k) s src (0x158004 + 0x20 * k.val) (s.fld .TRK_MAX k)
      { s with trkLatch := Tab.put s.trkLatch (128 * srcNum src + k) (some [s.fld .TRK_MAX_ANG k, s.fld .TRK_MIN k, s.fld .TRK_MIN_ANG k,
        s.fld .TRK_TAG_CYC k * 2 ^ 24 + s.fld .TRK_TAG_SEQ k * 2 ^ 16 + s.fld .TRK_TAG_ANG_INVALID k * 2 + s.fld .TRK_TAG_EMPTY k]) }) ∧
    (∀ f : Fin 4,
      let off := 0x159000 + 0x20 * f.val
      let x := s.feed f
      let others := x.empties.filter fun n => n != srcNum src
      let high := fun u => ∀ w, Tab.find s.latched (srcNum src) = some (off + 4, w) → w < 2 ^ 32 →
        Loads (.feedDataRead src f true) s src (off + 4) w u
      (∀ r l, x.records = r :: l → (∀ w ∈ r, w < 2 ^ 32) →
        let unit := if x.second then (r.getD 2 0, r.getD 3 0) else (r.getD 0 0, r.getD 1 0)
        Loads (.feedDataRead src f false) s src off unit.1
          ((s.highLatched src (off + 4) unit.2).setFeed f { x with empties := others }) ∧
        (srcNum src ∉ x.empties →
          high (s.setFeed f (if x.second then { x with records := l, second := false } else { x with second := true })))) ∧
      (x.records = [] →
        Loads (.feedDataRead src f false) s src off (2 ^ 32 - 1)
          ((s.highLatched src (off + 4) (2 ^ 32 - 1)).setFeed f { x with empties := srcNum src :: others })) ∧
      (srcNum src ∈ x.empties → high ((s.setFeed f { x with empties := others }).setFld .BAS_FEED_STAT_UNDERRUN f 1)) ∧
      (x.records = [] → srcNum src ∉ x.empties → high (s.setFld .BAS_FEED_STAT_UNDERRUN f 1)))

namespace Sys2Proof.Machine

/-- R220: WT_CMD.SWAP asks for the other weight bank, taken at the next cycle boundary; 2 µs after the swap the banks have settled. -/
def WeightBankSwapsClaim : Prop :=
  ∀ (src : Src) (d : Fin 4) (s : State),
    Stores (.wtSwap src d) s src (0x159200 + 0x10 * d.val) 1 (s.cleared.setFld .WT_STAT_SWAP_PENDING d 1) ∧
    (s.Sound → s.up = true →
      (∀ t, Tab.find s.weightSwap d = some t → t + 2000 ≤ s.tnow → Ends (.settlingEnd d) s (s.setFld .WT_STAT_SETTLING d 0)) ∧
      ((∀ t, Tab.find s.weightSwap d = some t → s.tnow < t + 2000) → Ends (.settlingEnd d) s s))

end Sys2Proof.Machine

/-- The correction learner, and the banks of weights. -/
def Obligations.LearnerAndWeights : Prop :=
  Sys2Proof.Machine.LearnerCommandsClaim ∧ Sys2Proof.Machine.WeightBankSwapsClaim

/-- Configuration, commits, calibrations and filters of the converters. -/
def Obligations.Converters : Prop :=
  Sys2Proof.Machine.ConverterCommandsClaim ∧ Sys2Proof.Machine.ConverterConfigurationClaim

/-- The windows of the basins. -/
def Obligations.Basins : Prop :=
  Sys2Proof.Machine.BasinCommandsClaim ∧ Sys2Proof.Machine.BasinLatchesClaim

namespace Sys2Proof.Machine

/-! ### Comparators, generators and trip channels (R229 to R264) -/

/-- A command that the peripheral clock carries out finds it running: neither it nor the 50 MHz reference has failed (R10, R261,
R403). -/
structure State.Ticks (s : State) : Prop where
  sound : s.Sound
  live : s.live = true
  clock : s.power.forced = false ∨ (s.power.failCode ≠ 1 ∧ s.power.failCode ≠ 4)

/-- Comparator `k` has taken the raw comparison (R232, R234, R238): it is valid, OUT is the comparison with INVERT, and where the
comparator itself is routed, a change of OUT raises RISE or FALL and is counted, but for the first comparison after a hold that the
first write began. Where the pair's even comparator routes OUTSIDE, a comparison of the odd one raises what it changes. The other
pairs keep everything. -/
structure State.Compared (s u : State) (k : Nat) : Prop where
  valid : u.flag .CMP_STAT_VALID k = true
  filt : (u.cmp k).filt = (s.cmp k).raw
  out : u.flag .CMP_STAT_OUT k = ((s.cmp k).raw != s.flag .CMP_CFG_INVERT k)
  event : s.flag .CMP_ROUTE_SRC_WIN k = false → s.flag .CMP_STAT_VALID k = true ∨ (s.cmp k).quiet = false →
    let out := (s.cmp k).raw != s.flag .CMP_CFG_INVERT k
    (out ≠ (s.cmp k).routed → u.flag (if out then .CMP_STAT_RISE else .CMP_STAT_FALL) k = true ∧
      u.fld .CMP_CNT_EDGES k = min (s.fld .CMP_CNT_EDGES k + 1) (2 ^ 32 - 1)) ∧
    (out = (s.cmp k).routed → u.fld .CMP_CNT_EDGES k = s.fld .CMP_CNT_EDGES k)
  window : k % 2 = 1 → s.flag .CMP_ROUTE_SRC_WIN (k - 1) = true → s.flag .CMP_CFG_WIN_EN (k - 1) = true →
    let out := u.flag .CMP_STAT_OUTSIDE (k - 1)
    out ≠ (s.cmp (k - 1)).routed → u.flag (if out then .CMP_STAT_RISE else .CMP_STAT_FALL) (k - 1) = true ∧
      u.fld .CMP_CNT_EDGES (k - 1) = min (s.fld .CMP_CNT_EDGES (k - 1) + 1) (2 ^ 32 - 1)
  rest : ∀ j, j / 2 ≠ k / 2 → u.cmp j = s.cmp j ∧ ∀ f ∈ [.CMP_STAT_OUT, .CMP_STAT_VALID, .CMP_STAT_RISE, .CMP_STAT_FALL],
    j < 1024 → u.fld f j = s.fld f j

end Sys2Proof.Machine

open Sys2Proof Sys2Proof.Machine in
/-- R229 to R235: a change of the raw comparison restarts its count, where the input can have it: any input from outside, and the
internal reference and ground within the threshold's tolerance; the comparator takes it once it has held for FILT cycles of
4 ns, one at least, outside a hold and with its DAC connected. A write of CMP_DAC stores the threshold; the first one, or a new
range, connects the DAC and begins a hold of 3 µs, at whose end the count restarts, or with FILT at 0 the comparison is taken.
(Rests on choices of the model: log entry 4.) -/
def Obligations.Comparators : Prop :=
  ∀ (k : Fin 32) (s : State),
    let x := s.cmp k
    (s.Ticks →
      (∀ raw, raw ≠ x.raw → s.cmpCan k raw = true →
        Ends (.cmpCrossing k raw) s (s.setCmp k { x with raw := raw, rawAt := s.tnow })) ∧
      (∀ raw, raw = x.raw ∨ s.cmpCan k raw = false → Ends (.cmpCrossing k raw) s s) ∧
      (let due := x.connected = true ∧ x.hold = none ∧ x.rawAt + 4 * max 1 (s.fld .CMP_CFG_FILT k) ≤ s.tnow
       (¬ due → Ends (.cmpFilterPass k) s s) ∧ (due → EndsIn (.cmpFilterPass k) s fun u => s.Compared u k)) ∧
      (x.hold = none ∨ (∃ t, x.hold = some t ∧ s.tnow < t) → Ends (.cmpHoldEnd k) s s) ∧
      ∀ t, x.hold = some t → t ≤ s.tnow →
        (s.fld .CMP_CFG_FILT k ≠ 0 →
          Ends (.cmpHoldEnd k) s ((s.setCmp k { x with hold := none, rawAt := max x.rawAt t }).setFld .CMP_STAT_HOLD k 0)) ∧
        (s.fld .CMP_CFG_FILT k = 0 → EndsIn (.cmpHoldEnd k) s fun u =>
          s.Compared u k ∧ (u.cmp k).hold = none ∧ u.flag .CMP_STAT_HOLD k = false)) ∧
    ∀ (src : Src) (v : Word), s.Takes src (0x160004 + 0x20 * k.val) → EndsIn (.cmpDacWrite src k v) s fun u =>
      u.fld .CMP_DAC_RANGE k = bitsN v.toNat 10 10 ∧ u.fld .CMP_DAC_CODE k = bitsN v.toNat 9 0 ∧
      (x.connected = false ∨ bitsN v.toNat 10 10 ≠ s.fld .CMP_DAC_RANGE k →
        (u.cmp k).connected = true ∧ (u.cmp k).hold = some (s.tnow + 3000) ∧ u.flag .CMP_STAT_HOLD k = true ∧
          u.flag .CMP_STAT_VALID k = false ∧ u.fld .CMP_STAT_OUT k = s.fld .CMP_STAT_OUT k) ∧
      (x.connected = true → bitsN v.toNat 10 10 = s.fld .CMP_DAC_RANGE k →
        (u.cmp k).hold = x.hold ∧ u.fld .CMP_STAT_HOLD k = s.fld .CMP_STAT_HOLD k ∧ u.fld .CMP_STAT_VALID k = s.fld .CMP_STAT_VALID k)

namespace Sys2Proof.Machine

/-- The state that an output of generator `g` should have by its compare value (R246). -/
def State.compares (s : State) (g c : Nat) : Bool :=
  if c = 0 then false else if max 2 (s.pwm g).period ≤ c then true else decide ((s.pwmCount g).1 < c)

/-- The generator drives its outputs: its counter runs, and it is not tripped, nor awaiting the boundary after a trip (R244, R251,
R252). -/
def State.drives (s : State) (g : Nat) : Prop :=
  (s.pwm g).run = true ∧ s.flag .PWM_STAT_TRIPPED g = false ∧ (s.pwm g).leaving = false

/-- The dead time since an output that is, or was, the other one's has passed (R247). -/
def State.spaced (s : State) (g : Nat) (o : Aux) : Prop :=
  if o.act then (s.pwm g).dead = 0 else ∀ t, o.offAt = some t → t + (s.pwm g).dead ≤ s.tick

/-- R244, R246, R247, R249, R251, R260: the outputs of a generator at a compare event, and at the end of a dead time. With no force in
use each follows its compare value; the two of a complementary generator are never active together, and one that should be active
waits for the other's dead time. A generator that does not drive has both inactive, and its forces are judged all the same. In a
debug halt, and in the tick of a boundary, whose loads the outputs await, nothing changes. (Rests on choices of the model: log entry 32.) -/
def GeneratorOutputsClaim : Prop :=
  ∀ (g : Fin 16) (s : State), s.Ticks → ∀ c ∈ [Instr.pwmCompare g, .deadtimeExpiry g false, .deadtimeExpiry g true],
    let x := s.pwm g
    let waits := x.halted ≠ none ∨ (x.run = true ∧ x.bound ≤ s.tick)
    (waits → Ends c s s) ∧
    (¬ waits → EndsIn c s fun u =>
      let y := u.pwm g
      u = { s with regs := u.regs, pwms := u.pwms } ∧ y = { x with a := y.a, b := y.b } ∧ (∀ j, j ≠ g.val → u.pwm j = s.pwm j) ∧
      (∀ f i, f ≠ .PWM_STAT_FORCE_BAD → u.fld f i = s.fld f i) ∧
      u.flag .PWM_STAT_FORCE_BAD g =
        (s.flag .PWM_STAT_FORCE_BAD g || (x.run && s.flag .PWM_CTRL_COMPL g && x.fa == 2 && x.fb == 2)) ∧
      (¬ s.drives g → y.a.act = false ∧ y.b.act = false) ∧
      (s.flag .PWM_CTRL_COMPL g = true → (x.a.act && x.b.act) = false → (y.a.act && y.b.act) = false) ∧
      (s.drives g → s.flag .PWM_CTRL_COMPL g = false →
        (x.fa = 0 → y.a.act = s.compares g x.cmpA) ∧ (x.fb = 0 → y.b.act = s.compares g x.cmpB) ∧
        (x.fa ≠ 0 → (y.a.act = true ↔ x.fa = 2)) ∧ (x.fb ≠ 0 → (y.b.act = true ↔ x.fb = 2))) ∧
      (s.drives g → s.flag .PWM_CTRL_COMPL g = true → x.fa = 0 → x.fb = 0 →
        (s.compares g x.cmpA = true → y.b.act = false ∧ (y.a.act = true ↔ x.a.act = true ∨ s.spaced g x.b)) ∧
        (s.compares g x.cmpA = false → y.a.act = false ∧ (y.b.act = true ↔ x.b.act = true ∨ s.spaced g x.a))))

/-- R244, R245, R248, R252, R254: at a boundary of a running generator its shadow values load unless LOCK holds, as they stood before
the boundary's tick; the next period begins where the last one ended, and outputs leave a cleared trip, inactive until the next tick.
The mid-period load takes compare and marker values, as they stood before its tick. A marker acts on the basins that name its generator. Away from their points the commands change nothing.
(Rests on choices of the model: log entry 32.) -/
def GeneratorPointsClaim : Prop :=
  ∀ (g : Fin 16) (s : State), s.Ticks →
    let x := s.pwm g
    let runs := x.run = true ∧ x.halted = none
    let due := runs ∧ x.bound ≤ s.tick
    let shadow := fun (at' k : Nat) (f : Fld) => match x.wrote with
      | some w => if at' ≤ w.1 then w.2.getD k 0 else s.fld f g
      | none => s.fld f g
    let mid := runs ∧ s.flag .PWM_CTRL_LOAD_MID g = true ∧ s.flag .PWM_CTRL_LOCK g = false ∧ (s.pwmCount g).2 = false ∧
      (s.pwmCount g).1 = if s.flag .PWM_CTRL_UPDOWN g then max 2 x.period else max 2 x.period / 2
    (¬ due → Ends (.pwmBoundary g) s s) ∧
    (due → EndsIn (.pwmBoundary g) s fun u =>
      let y := u.pwm g
      let loads := s.flag .PWM_CTRL_LOCK g = false
      y.start = x.bound ∧ y.bound = x.bound + (if s.flag .PWM_CTRL_UPDOWN g then 2 else 1) * max 2 y.period ∧ y.leaving = false ∧
      (loads → y.period = shadow x.bound 0 .PWM_PERIOD ∧ y.cmpA = shadow x.bound 1 .PWM_CMPA ∧
        y.cmpB = shadow x.bound 2 .PWM_CMPB ∧ y.mark1 = shadow x.bound 3 .PWM_MARK1 ∧ y.mark2 = shadow x.bound 4 .PWM_MARK2 ∧
        y.dead = shadow x.bound 5 .PWM_DEADTIME) ∧
      (¬ loads → y.period = x.period ∧ y.dead = x.dead ∧ y.cmpA = x.cmpA ∧ y.cmpB = x.cmpB ∧ y.mark1 = x.mark1 ∧ y.mark2 = x.mark2) ∧
      (x.leaving = true → y.a.act = false ∧ y.b.act = false ∧ y.due = some (s.tick + 1)) ∧
      (x.a.short = true → s.flag .PWM_STAT_SHORT_A g = false → y.a.short = false) ∧
      (∀ j, j ≠ g.val → u.pwm j = s.pwm j) ∧ ∀ f i, f ≠ .PWM_STAT_FORCE_BAD → u.fld f i = s.fld f i) ∧
    (¬ mid → Ends (.pwmMidLoad g) s s) ∧
    (mid → EndsIn (.pwmMidLoad g) s fun u =>
      let y := u.pwm g
      y = { x with cmpA := shadow s.tick 1 .PWM_CMPA, cmpB := shadow s.tick 2 .PWM_CMPB
                   mark1 := shadow s.tick 3 .PWM_MARK1, mark2 := shadow s.tick 4 .PWM_MARK2, a := y.a, b := y.b } ∧ (∀ j, j ≠ g.val → u.pwm j = s.pwm j) ∧
      ∀ f i, f ≠ .PWM_STAT_FORCE_BAD → u.fld f i = s.fld f i) ∧
    ∀ second : Bool,
      let m := if second then x.mark2 else x.mark1
      let at' := runs ∧ (s.pwmCount g).1 = m ∧ (s.pwmCount g).2 = false ∧ m < max 2 x.period
      let own := (upto 512).filter fun k => s.flag .BAS_CFG_EN k && s.flag .BAS_CFG_WIN_SRC k && s.fld .BAS_CFG_PWM_SEL k == g
      let e := 4 * s.tick
      (¬ at' → Ends (.pwmMarker g second) s s) ∧
      (at' → x.mark1 ≠ x.mark2 →
        Ends (.pwmMarker g second) s (own.foldl (fun t k => if second then t.basClose k e else t.basOpen k e) s)) ∧
      (at' → x.mark1 = x.mark2 →
        Ends (.pwmMarker g second) s (if second then s else own.foldl (fun t k => (t.basClose k e).basOpen k e) s))

/-- The fields of PWM_OUTCFG that EN locks, with their bits (R255). -/
def outcfgFields : List (Fld × Nat) :=
  [(.PWM_OUTCFG_POL_B, 10), (.PWM_OUTCFG_LEVEL_B, 9), (.PWM_OUTCFG_OD_B, 8), (.PWM_OUTCFG_POL_A, 2), (.PWM_OUTCFG_LEVEL_A, 1),
   (.PWM_OUTCFG_OD_A, 0)]

end Sys2Proof.Machine

open Sys2Proof Sys2Proof.Machine in
/-- R244, R249, R251, R255, R259, R260: a write of PWM_CTRL stores its fields, UPDOWN and COMPL only in a stopped generator: a change of
them in a running one is logged as LOCKED; EN starts the counter at 0 on the next tick, and stops it then. A write of PWM_OUTCFG stores
OE always and the rest only in a stopped generator. PWM_FORCE is stored, and its forces act from the next tick. PWM_SYNC restarts the running counters that it names on the next tick.
(Rests on choices of the model: log entry 32.) -/
def Obligations.GeneratorWrites : Prop :=
  ∀ (src : Src) (g : Fin 16) (v : Word) (s : State),
    let off := fun n => 0x170000 + 0x40 * g.val + n
    let was := s.flag .PWM_CTRL_EN g
    let b := fun hi lo => bitsN v.toNat hi lo
    (s.Takes src (off 0) → EndsIn (.pwmCtrlWrite src g v) s fun u =>
      u.fld .PWM_CTRL_EN g = b 31 31 ∧ u.fld .PWM_CTRL_LOCK g = b 30 30 ∧ u.fld .PWM_CTRL_LOAD_MID g = b 29 29 ∧
      u.fld .PWM_CTRL_CLEAR_TRIP g = b 26 26 ∧ u.fld .PWM_CTRL_TRIP_MASK g = b 7 0 ∧
      u.fld .PWM_CTRL_UPDOWN g = (if was then s.fld .PWM_CTRL_UPDOWN g else b 28 28) ∧
      u.fld .PWM_CTRL_COMPL g = (if was then s.fld .PWM_CTRL_COMPL g else b 27 27) ∧
      (was = true → b 28 28 ≠ s.fld .PWM_CTRL_UPDOWN g ∨ b 27 27 ≠ s.fld .PWM_CTRL_COMPL g →
        u.fld .ACCESS_ERR_CNT = min (s.fld .ACCESS_ERR_CNT + 1) (2 ^ Fld.width .ACCESS_ERR_CNT - 1)) ∧
      (was = false ∨ (b 28 28 = s.fld .PWM_CTRL_UPDOWN g ∧ b 27 27 = s.fld .PWM_CTRL_COMPL g) →
        u.fld .ACCESS_ERR_CNT = s.fld .ACCESS_ERR_CNT) ∧
      (was = false → b 31 31 = 1 → (u.pwm g).bound = (s.pwm g).halted.getD s.tick + 1) ∧
      (u.pwm g).due = (if b 31 31 = s.fld .PWM_CTRL_EN g then (s.pwm g).due else some (s.tick + 1)) ∧
      (u.pwm g).run = (s.pwm g).run ∧ (u.pwm g).halted = (s.pwm g).halted ∧
      (s.fld .TRIP_STAT_FILTERED &&& b 7 0 ≠ 0 → u.flag .PWM_STAT_TRIPPED g = true) ∧
      ∀ j, j ≠ g.val → u.pwm j = s.pwm j) ∧
    (let base := if was && outcfgFields.any fun e => s.fld e.1 g != b e.2 e.2 then s.cleared.accessLogged src (off 0x20) true .locked
       else s.cleared
     let u := if was then base else outcfgFields.foldl (fun t e => t.setFld e.1 g (b e.2 e.2)) base
     Stores (.pwmOutcfgWrite src g v) s src (off 0x20) v.toNat
       ((u.setFld .PWM_OUTCFG_OE_B g (b 11 11)).setFld .PWM_OUTCFG_OE_A g (b 3 3))) ∧
    Stores (.pwmForceWrite src g v) s src (off 0x1C) v.toNat
      (((s.cleared.setFld .PWM_FORCE_FB g (b 3 2)).setFld .PWM_FORCE_FA g (b 1 0)).setPwm g
        { s.pwm g with due := some (s.tick + 1) }) ∧
    ∀ mask : BitVec 16, s.Takes src 0x170800 → EndsIn (.pwmSyncRestart src mask) s fun u =>
      u = { s.cleared with pwms := u.pwms } ∧ ∀ j, u.pwm j =
        if j < 16 ∧ bitN mask.toNat j = true ∧ s.flag .PWM_CTRL_EN j = true ∧ (s.pwm j).halted = none
        then { s.pwm j with bound := s.tick + 1 } else s.pwm j

namespace Sys2Proof.Machine

/-- An output made inactive now (R247, R251). -/
def State.auxOut (s : State) (o : Aux) : Aux := { o with act := false, offAt := if o.act then some s.tick else o.offAt }

/-- A new trip in the tick of an accepted TRIP_CLR refuses it: the causes that it cleared stay (R253). -/
def State.clrTaken (s : State) (g : Nat) : State :=
  match (s.pwm g).cleared with
  | some (t, ch, sw, cl) =>
    if t = s.tick then (((s.setFld .PWM_STAT_TRIP_CH g (s.fld .PWM_STAT_TRIP_CH g ||| ch)).setFld .PWM_STAT_BY_SW g
      (s.fld .PWM_STAT_BY_SW g ||| sw)).setFld .PWM_STAT_BY_CLEARING g (s.fld .PWM_STAT_BY_CLEARING g ||| cl)).setFld
        .PWM_STAT_CLR_REFUSED g 1
    else s
  | none => s

/-- Generator `g` trips (R251): it is recorded and counted, and both outputs are inactive. -/
def State.tripped (s : State) (g : Nat) : State :=
  (((s.clrTaken g).setFld .PWM_STAT_TRIPPED g 1).count .PWM_CNT_TRIP g).setPwm g { s.pwm g with
    leaving := false, tripAt := some s.tick, cleared := none, a := s.auxOut (s.pwm g).a, b := s.auxOut (s.pwm g).b }

/-- The bits of one channel in a word of TRIP_STAT. -/
def State.chanBit (s : State) (f : Fld) (t : Nat) : Bool := (s.fld f).testBit t

end Sys2Proof.Machine

open Sys2Proof Sys2Proof.Machine in
/-- R239, R250 to R252, R255: a trip pin and the comparators that name its channel give RAW; once RAW has differed from FILTERED for
FILT + 1 cycles of 4 ns FILTERED follows it, and each generator that selects the channel trips. TRIP_SW trips one. TRIP_CLR clears a
trip, and the outputs wait for a boundary; with a selected channel asserted, or in the cycle of a trip, even a later one, it is refused. An
overcurrent takes its output to high impedance. (Rests on choices of the model: log entry 34.) -/
def Obligations.Trips : Prop :=
  ∀ (t : Fin 8) (g : Fin 16) (src : Src) (s : State),
    (s.Ticks →
      (∀ level, EndsIn (.tripPinChange t level) s fun u =>
        let pin := level != s.flag .TRIP_CFG_PIN_INV t
        let raw := (s.flag .TRIP_CFG_PIN_EN t && pin) || s.cmpTrips t
        u = { s with regs := u.regs, trips := u.trips } ∧
        (u.trip t) = { pin := level, rawAt := if raw = s.chanBit .TRIP_STAT_RAW t then (s.trip t).rawAt else s.tnow } ∧
        u.chanBit .TRIP_STAT_PIN t = pin ∧ u.chanBit .TRIP_STAT_RAW t = raw ∧
        (∀ j, j ≠ t.val → u.trip j = s.trip j ∧ u.chanBit .TRIP_STAT_PIN j = s.chanBit .TRIP_STAT_PIN j ∧
          u.chanBit .TRIP_STAT_RAW j = s.chanBit .TRIP_STAT_RAW j) ∧
        ∀ f i, f ∉ [.TRIP_STAT_PIN, .TRIP_STAT_RAW] → u.fld f i = s.fld f i) ∧
      (let raw := s.chanBit .TRIP_STAT_RAW t
       let due := raw ≠ s.chanBit .TRIP_STAT_FILTERED t ∧ (s.trip t).rawAt + 4 * (s.fld .TRIP_CFG_FILT t + 1) ≤ s.tnow
       (¬ due → Ends (.tripFilterPass t) s s) ∧
       (due → EndsIn (.tripFilterPass t) s fun u => u = { s with regs := u.regs, pwms := u.pwms } ∧
         (∀ j, u.chanBit .TRIP_STAT_FILTERED j = if j = t.val then raw else s.chanBit .TRIP_STAT_FILTERED j) ∧
         ∀ j, j < 16 →
          if raw = true ∧ (s.fld .PWM_CTRL_TRIP_MASK j).testBit t = true then
            u.flag .PWM_STAT_TRIPPED j = true ∧ (u.fld .PWM_STAT_TRIP_CH j).testBit t = true ∧
            u.fld .PWM_CNT_TRIP j = min (s.fld .PWM_CNT_TRIP j + 1) (2 ^ 32 - 1) ∧ (u.pwm j).a.act = false ∧ (u.pwm j).b.act = false
          else u.pwm j = s.pwm j ∧ u.fld .PWM_STAT_TRIPPED j = s.fld .PWM_STAT_TRIPPED j ∧
            u.fld .PWM_CNT_TRIP j = s.fld .PWM_CNT_TRIP j)) ∧
      (∀ second : Bool,
        let x := s.pwm g
        let o := if second then x.b else x.a
        let o' := { s.auxOut o with short := true }
        Ends (.auxOvercurrent ⟨2 * g.val + (if second then 1 else 0), by cases second <;> simp <;> omega⟩) s
          ((s.setFld (if second then .PWM_STAT_SHORT_B else .PWM_STAT_SHORT_A) g 1).setPwm g
            (if second then { x with b := o' } else { x with a := o' })))) ∧
    (let off := 0x170024 + 0x40 * g.val
     let refused := s.fld .TRIP_STAT_FILTERED &&& s.fld .PWM_CTRL_TRIP_MASK g ≠ 0 ∨ (s.pwm g).tripAt = some s.tick
     Stores (.tripSw src g) s src off 2 ((s.cleared.setFld .PWM_STAT_BY_SW g 1).tripped g) ∧
     (s.flag .PWM_STAT_TRIPPED g = false → Stores (.tripClr src g) s src off 1 s.cleared) ∧
     (s.flag .PWM_STAT_TRIPPED g = true → refused → Stores (.tripClr src g) s src off 1 (s.cleared.setFld .PWM_STAT_CLR_REFUSED g 1)) ∧
     (s.flag .PWM_STAT_TRIPPED g = true → ¬ refused → Stores (.tripClr src g) s src off 1
       (([Fld.PWM_STAT_TRIPPED, .PWM_STAT_TRIP_CH, .PWM_STAT_BY_SW, .PWM_STAT_BY_CLEARING].foldl (fun u f => u.setFld f g 0)
         s.cleared).setPwm g { s.pwm g with
             leaving := true, cleared := some (s.tick, s.fld .PWM_STAT_TRIP_CH g, s.fld .PWM_STAT_BY_SW g, s.fld .PWM_STAT_BY_CLEARING g) })))

/-- What the outputs of a generator do, and its points. -/
def Obligations.GeneratorEvents : Prop :=
  Sys2Proof.Machine.GeneratorOutputsClaim ∧ Sys2Proof.Machine.GeneratorPointsClaim

namespace Sys2Proof.Machine

/-! ### I/O engines (R265 to R287) -/

/-- Engine `e` issues the word `w` in tick `b`, in place of its program where `inj` (R266, R280). -/
structure State.Fetches (s : State) (e w b : Nat) (inj : Bool) : Prop where
  ticks : s.Ticks
  next : s.ioeNext e = some { e, word := w, injected := inj, tick := b }

/-- The issue alone: PC moves to the next word, or the injection is consumed, and the engine is free one step later. -/
def State.issued (s : State) (e b : Nat) (inj : Bool) : State :=
  (if inj then s.setFld .IOE_STAT_INJ_PENDING e 0 else s.setFld .IOE_STAT_PC e (s.fld .IOE_STAT_PC e + 1)).setIoe e
    { s.ioe e with free := b + (s.fld .IOE_CLKDIV_DIV e + 1), inj := if inj then none else (s.ioe e).inj }

/-- The engine waits or stalls in the instruction that issued. -/
def State.ioeWaits (s : State) (e w b : Nat) (inj : Bool) (st : Nat) : State :=
  ((s.issued e b inj).setFld .IOE_STAT_STATE e st).setIoe e
    { (s.issued e b inj).ioe e with cur := some { word := w, injected := inj, issued := b } }

/-- The source operand of MOV, ADD and SUB (R273). -/
def State.operandOf (s : State) (e w b : Nat) : Nat :=
  [ioImm w, s.fld .IOE_CA e, s.fld .IOE_CB e, s.fld .IOE_SH e, s.fld .IOE_TT e, (s.ioe e).estamp, 4 * b % 2 ^ 32, 0,
    s.fld .IOE_CONST_K (4 * e), s.fld .IOE_CONST_K (4 * e + 1), s.fld .IOE_CONST_K (4 * e + 2),
    s.fld .IOE_CONST_K (4 * e + 3)].getD (ioA w) 0

/-- The commands of the engine's instructions. -/
def engineCommands (e : Fin 16) : List (Instr × IoOp) :=
  [(.ioeJmp e, .jmp), (.ioeWaitp e, .waitp), (.ioeWaitf e, .waitf), (.ioeWaiti e, .waiti), (.ioeWaitt e, .waitt), (.ioePin e, .pin),
    (.ioeShin e, .shin), (.ioeShout e, .shout), (.ioeMov e, .mov), (.ioeAdd e, .add), (.ioeSub e, .sub), (.meas e, .meas),
    (.setu e, .setu), (.crc e, .crc), (.push e, .push), (.pull e, .pull), (.post e, .post), (.setf e, .setf), (.ioeIrq e, .irq),
    (.ioeHalt e, .halt)]

/-- R266, R280, R281: a running engine that neither waits nor stalls issues at a step boundary, and only there, the injected word, else
the word that memory holds at PC; a stopped one issues an injected word only. A command of another instruction than the word's changes nothing.
(Rests on choices of the model: log entry 31.) -/
def EngineIssueClaim : Prop :=
  ∀ (e : Fin 16) (s : State),
    let x := s.ioe e
    let step := s.fld .IOE_CLKDIV_DIV e + 1
    (s.flag .IOE_CTRL_EN e = true → x.cur = none → x.phase ≤ s.tick → x.free ≤ s.tick → (s.tick - x.phase) % step = 0 →
      s.ioeNext e = some { e, word := x.inj.getD (s.word (imemAddr e (s.fld .IOE_STAT_PC e))), injected := x.inj.isSome
                           tick := s.tick }) ∧
    (s.flag .IOE_CTRL_EN e = true → x.cur ≠ none ∨ s.tick < x.phase ∨ s.tick < x.free ∨ (s.tick - x.phase) % step ≠ 0 →
      s.ioeNext e = none) ∧
    (s.flag .IOE_CTRL_EN e = false → x.inj = none ∨ s.tick < x.free → s.ioeNext e = none) ∧
    (s.flag .IOE_CTRL_EN e = false → ∀ w, x.inj = some w → x.free ≤ s.tick →
      s.ioeNext e = some { e, word := w, injected := true, tick := s.tick }) ∧
    (s.Ticks → ∀ c ∈ engineCommands e, (∀ i, s.ioeNext e = some i → ioDecode i.word ≠ some c.2) → Ends c.1 s s)

/-- R271, R273, R276, R278: the results of the engine's register instructions. A UNIT beyond 32 bits has no stated value,
and is 1 at least. (Rests on choices of the model: log entry 20.) -/
def EngineResultsClaim : Prop :=
  ∀ (e : Fin 16) (s : State) (w b : Nat) (inj : Bool), s.Fetches e w b inj →
    let t := s.issued e b inj
    let x := t.ioe e
    let d := ioReg (ioC w)
    let v := s.operandOf e w b
    let sh := s.fld .IOE_SH e
    let sc := s.fld .IOE_STAT_SC e
    let step := s.fld .IOE_CLKDIV_DIV e + 1
    let slow := b + (8 + step - 1) / step * step
    (ioDecode w = some .mov → Ends (.ioeMov e) s (t.setFld d e (if ioA w = 0 then v else
      v / 2 ^ (ioImm w / 32) % 2 ^ (if ioImm w % 32 = 0 then 32 else ioImm w % 32)))) ∧
    (ioDecode w = some .add → Ends (.ioeAdd e) s (t.setFld d e ((s.fld d e + v) % 2 ^ 32))) ∧
    (ioDecode w = some .sub → Ends (.ioeSub e) s (t.setFld d e ((s.fld d e + 2 ^ 32 - v) % 2 ^ 32))) ∧
    (ioDecode w = some .shin →
      let n := if ioA w = 0 then ioImm w else 1
      let bits := if ioA w = 0 then s.fld d e % 2 ^ n else b2n (s.pinLevel (ioB w))
      Ends (.ioeShin e) s ((t.setFld .IOE_SH e ((sh * 2 ^ n + bits) % 2 ^ 32)).setFld .IOE_STAT_SC e (min 32 (sc + n)))) ∧
    (ioDecode w = some .meas → Ends (.meas e) s
      ((t.setFld d e (if x.elastValid then
        min (2 ^ 32 - 1) (roundDiv ((x.estamp + 2 ^ 32 - x.elast) % 2 ^ 32 * 65536) (s.fld .IOE_UNIT e)) else 2 ^ 32 - 1)).setIoe e
        { x with elast := x.estamp, elastValid := true, free := slow })) ∧
    (ioDecode w = some .setu →
      let u := if ioImm w = 0 then 65536 else max 1 (roundDiv (s.fld d e * 65536) (ioImm w))
      (u < 2 ^ 32 → Ends (.setu e) s ((t.setFld .IOE_UNIT e u).setIoe e { x with free := slow })) ∧
      ∃ y, 1 ≤ y ∧ Ends (.setu e) s ((t.setFld .IOE_UNIT e y).setIoe e { x with free := slow })) ∧
    (ioDecode w = some .crc →
      let width := if 1 ≤ s.fld .IOE_CRC_CFG_WIDTH e ∧ s.fld .IOE_CRC_CFG_WIDTH e ≤ 8 then s.fld .IOE_CRC_CFG_WIDTH e else 8
      let poly := s.fld .IOE_CRC_CFG_POLY e % 2 ^ width
      let src := if ioC w = 3 then 0 else s.fld d e
      let hi := ioImm w / 32
      let feed := fun (r : Nat) (j : Nat) =>
        let y := (r * 2 + b2n (src.testBit (hi - j))) % 2 ^ width
        if r.testBit (width - 1) then y ^^^ poly else y
      Ends (.crc e) s (t.setFld .IOE_CRC_CFG_VALUE e ((List.range (hi + 1 - ioImm w % 32)).foldl feed
        (s.fld (if ioA w % 2 = 1 then .IOE_CRC_CFG_SEED else .IOE_CRC_CFG_VALUE) e % 2 ^ width)))) ∧
    (ioDecode w = some .setf → Ends (.setf e) s (t.setFld .IOE_FLAGS (ioB w) (s.fld .IOE_FLAGS (ioB w) ||| 2 ^ ioImm w))) ∧
    (ioDecode w = some .irq → Ends (.ioeIrq e) s (t.setFld .IOE_EVT_IRQ e 1))

/-- R267, R270, R272: a jump is taken by its condition, CAUP and CBUP counting first; HALT and a word that is no instruction stop the
engine, the latter with PC at it. (Rests on choices of the model: log entry 31.) -/
def EngineFlowClaim : Prop :=
  ∀ (e : Fin 16) (s : State) (w b : Nat) (inj : Bool), s.Fetches e w b inj →
    let t := s.issued e b inj
    let f := fun (k : Fld) => s.fld k e
    let ca := f .IOE_CA
    let cb := f .IOE_CB
    let m := ioImm w
    let width := if 1 ≤ f .IOE_CRC_CFG_WIDTH ∧ f .IOE_CRC_CFG_WIDTH ≤ 8 then f .IOE_CRC_CFG_WIDTH else 8
    let k := s.fld .IOE_CONST_K (4 * e + m % 4)
    (ioDecode w = some .jmp →
      let t' := if ioA w = 1 then t.setFld .IOE_CA e ((ca + 1) % 2 ^ 32)
        else if ioA w = 2 then t.setFld .IOE_CB e ((cb + 1) % 2 ^ 32) else t
      let holds := [True, (ca + 1) % 2 ^ 32 < m, (cb + 1) % 2 ^ 32 < m, ca = 0, ca = cb, ca < cb, cb < ca,
        s.pinLevel (ioB w) = true, s.pinLevel (ioB w) = false, m ≤ f .IOE_STAT_SC, (f .IOE_SH).testBit m = true,
        f .IOE_STAT_TO = 1, (f .IOE_FLAGS).testBit m = true, f .IOE_CRC_CFG_VALUE % 2 ^ width = ca % 2 ^ width, ca < k, k < ca].getD (ioA w) False
      (holds → Ends (.ioeJmp e) s (t'.setFld .IOE_STAT_PC e (ioC w))) ∧ (¬ holds → Ends (.ioeJmp e) s t')) ∧
    (ioDecode w = some .halt → Ends (.ioeHalt e) s
      (((t.setFld .IOE_CTRL_EN e 0).setFld .IOE_STAT_STATE e 4).setIoe e { t.ioe e with cur := none })) ∧
    (ioDecode w = none → Ends (.ioeIllegal e) s
      ((((if inj then s.setFld .IOE_STAT_INJ_PENDING e 0 else s).setFld .IOE_EVT_ILLEGAL e 1).setFld .IOE_CTRL_EN e 0).setFld .IOE_STAT_STATE e 5
        |>.setIoe e { s.ioe e with cur := none, inj := none })) ∧
    ∀ o, ioDecode w = some o → Ends (.ioeIllegal e) s s

/-- The level that a PIN of code `a` gives a pin that has level `l`; a toggle out of high impedance gives a free one (R271). -/
def PinLevel (a : Nat) (l r : Drive) : Prop :=
  (a = 0 → r = .low) ∧ (a = 1 → r = .high) ∧ (a = 2 → r ≠ .z ∧ r ≠ l) ∧ (a = 3 → r = .z)

/-- The pin change of a SHOUT (R271). -/
def State.shiftedOut (s t : State) (e p : Nat) : State :=
  ((t.gioDrive p (if (s.fld .IOE_SH e).testBit 31 then .high else .low)).setFld .IOE_SH e (2 * s.fld .IOE_SH e % 2 ^ 32)).setFld
    .IOE_STAT_SC e (s.fld .IOE_STAT_SC e - 1)

/-- R268, R271, R277: PIN and SHOUT change a pin that the engine owns: at once without T, late where TT lies behind, and else in the
cycle whose span holds TT, for which the engine stalls; the timed change is made once.
(Rests on choices of the model: log entries 31 and 20.) -/
def EnginePinsClaim : Prop :=
  ∀ (e : Fin 16) (s : State), s.Ticks →
    (∀ (w b : Nat) (inj : Bool), s.Fetches e w b inj → ∀ c ∈ [(Instr.ioePin e, IoOp.pin), (.ioeShout e, .shout)],
      ioDecode w = some c.2 →
      let t := s.issued e b inj
      let p := ioB w
      let own := p < 32 ∧ s.flag .GIO_CFG_OWNED p = true ∧ s.fld .GIO_CFG_ENGINE p = e
      let tt := s.fld .IOE_TT e
      let away := (tt + 2 ^ 32 - 4 * b % 2 ^ 32) % 2 ^ 32
      (¬ own → Ends c.1 s (t.setFld .IOE_EVT_PIN_DENIED e 1)) ∧
      (own → ioT w = true → 4 ≤ away → away < 2 ^ 31 → Ends c.1 s (s.ioeWaits e w b inj 3)) ∧
      (own → ioT w = false ∨ away < 4 ∨ 2 ^ 31 ≤ away → ∃ u,
        (c.2 = .shout → u = s.shiftedOut t e p) ∧
        (c.2 = .pin → ∃ r, PinLevel (ioA w) (Tab.get .z s.gio p) r ∧ u = t.gioDrive p r) ∧
        Ends c.1 s (if ioT w = true ∧ 2 ^ 31 ≤ away then u.setFld .IOE_EVT_LATE e 1 else u))) ∧
    (∀ c, (s.ioe e).cur = some c → c.acted = false → ttReached s.tick (s.fld .IOE_TT e) = true →
      let t := s.setIoe e { s.ioe e with cur := some { c with acted := true, met := some (0, s.tick) } }
      (ioOpc c.word = 8 → Ends (.ioeTimedAction e) s (s.shiftedOut t e (ioB c.word))) ∧
      (ioOpc c.word = 6 → ∃ r, (PinLevel (ioA c.word) (Tab.get .z s.gio (ioB c.word)) r ∨ 3 < ioA c.word) ∧
        Ends (.ioeTimedAction e) s (t.gioDrive (ioB c.word) r))) ∧
    ((∀ c, (s.ioe e).cur = some c → c.acted = true ∨ (ioOpc c.word ≠ 6 ∧ ioOpc c.word ≠ 8) ∨
      ttReached s.tick (s.fld .IOE_TT e) = false) → Ends (.ioeTimedAction e) s s)

/-- The wait in progress of an engine is a WAITP on pin `p` with code `a` that has not met its edge, nor its timeout. -/
def State.AwaitsPin (s : State) (e p a : Nat) : Prop :=
  ∃ c, (s.ioe e).cur = some c ∧ ioOpc c.word = 2 ∧ ioA c.word = a ∧ ioB c.word = p ∧ c.met = none ∧
    (ioT c.word = true → ttReached s.tick (s.fld .IOE_TT e) = false)

/-- R268, R269, R275: a change of a GIO pin's filtered level, once it has held for FILT cycles of 4 ns. An engine's wait for that edge or
level takes it with its stamp, an edge wait moving the latch to the pin; outside an edge wait in progress, the latch on the pin keeps the
edge, and EDGE_OVR reports one lost. A write of GIO_CFG is refused where it changes the owner while either engine runs; a new owner begins in high impedance.
(Rests on choices of the model: log entry 31.) -/
def EngineEdgesClaim : Prop :=
  (∀ (p : Fin 32) (level : Bool) (stamp : Nat) (s : State), s.Ticks →
    let short := s.tnow < stamp + 4 * s.fld .GIO_CFG_FILT p
    (s.pinLevel p = level ∨ short → Ends (.gioEdge p level stamp) s s) ∧
    (s.pinLevel p ≠ level → ¬ short → EndsIn (.gioEdge p level stamp) s fun u =>
      u = { s with regs := u.regs, ioes := u.ioes } ∧ (∀ q, q < 64 → u.pinLevel q = if q = p then level else s.pinLevel q) ∧
      (∀ f i, f ≠ .GIO_IN_LEVEL → f ≠ .IOE_EVT_EDGE_OVR → u.fld f i = s.fld f i) ∧
      ∀ e, e < 16 →
        let x := s.ioe e
        let y := u.ioe e
        let at' := stamp % 2 ^ 32
        let latches := x.pin = some p.val ∧ ∀ c, x.cur = some c → ioOpc c.word = 2 →
          ioA c.word ≤ 1 ∨ c.met ≠ none ∨ (ioT c.word = true ∧ ttReached s.tick (s.fld .IOE_TT e) = true)
        let lost := (if level then x.rise else x.fall).isSome
        ∀ z : Ioe, (latches → z = if level then { x with rise := some (at', s.tnow) } else { x with fall := some (at', s.tnow) }) →
          (¬ latches → z = x) →
          (∀ a c, s.AwaitsPin e p a → x.cur = some c → (if a = 0 then level = false else if a = 1 then level = true else
              edgeMatches a (s.fld .IOE_TT e) level at' = true) →
            y = if a ≤ 1 then { z with cur := some { c with met := some (at', s.tick) } }
              else { x with cur := some { c with met := some (at', s.tick) }, pin := some p, rise := none, fall := none }) ∧
          ((∀ a, s.AwaitsPin e p a → ¬ (if a = 0 then level = false else if a = 1 then level = true else
              edgeMatches a (s.fld .IOE_TT e) level at' = true)) → y = z) ∧
          (latches → lost = true → u.fld .IOE_EVT_EDGE_OVR e = 1) ∧
          (¬ latches ∨ lost = false → u.fld .IOE_EVT_EDGE_OVR e = s.fld .IOE_EVT_EDGE_OVR e))) ∧
  ∀ (p : Fin 32) (src : Src) (v : Word) (s : State),
    let off := 0x184000 + 4 * p.val
    let b := fun hi lo => bitsN v.toNat hi lo
    let moves := b 31 31 ≠ s.fld .GIO_CFG_OWNED p ∨ b 27 24 ≠ s.fld .GIO_CFG_ENGINE p
    let locked := s.flag .IOE_CTRL_EN (s.fld .GIO_CFG_ENGINE p) = true ∨ s.flag .IOE_CTRL_EN (b 27 24) = true
    let t := ((((s.cleared.setFld .GIO_CFG_OWNED p (b 31 31)).setFld .GIO_CFG_ENGINE p (b 27 24)).setFld .GIO_CFG_PULL p (b 17 16)).setFld
      .GIO_CFG_OD p (b 15 15)).setFld .GIO_CFG_FILT p (b 7 0)
    (moves → locked → Stores (.gioCfgWrite src p v) s src off v.toNat (s.cleared.accessLogged src off true .locked)) ∧
    (moves → ¬ locked → Stores (.gioCfgWrite src p v) s src off v.toNat (t.gioDrive p .z)) ∧
    (¬ moves → Stores (.gioCfgWrite src p v) s src off v.toNat t)

end Sys2Proof.Machine

namespace Sys2Proof.Machine

/-- What ends a wait of engine `e` on flags, a source, TT or a queue, and what it leaves of `t` (R271, R277, R283, R285). -/
def State.WaitEnds (s t : State) (e w : Nat) (o : IoOp) (u : State) : Prop :=
  let x := s.ioe e
  let hit := s.fld .IOE_FLAGS e &&& ioImm w
  (o = .waitf ∧ hit ≠ 0 ∧ u = (t.setFld .IOE_FLAGS e (s.fld .IOE_FLAGS e - hit)).setFld .IOE_STAT_TO e 0) ∨
  (o = .waiti ∧ s.source (ioImm w) = (ioA w).testBit 0 ∧ u = t.setFld .IOE_STAT_TO e 0) ∨
  (o = .push ∧ x.qout.length < s.outCap e ∧ u = t.setIoe e { t.ioe e with qout := x.qout ++ [s.fld .IOE_SH e] }) ∨
  (o = .pull ∧ ∃ v r, x.qin = v :: r ∧ u = ((t.setIoe e { t.ioe e with qin := r }).setFld .IOE_SH e v).setFld .IOE_STAT_SC e 32)

/-- The wait's condition does not hold. -/
def State.WaitOn (s : State) (e w : Nat) (o : IoOp) : Prop :=
  (o = .waitf ∧ s.fld .IOE_FLAGS e &&& ioImm w = 0) ∨ (o = .waiti ∧ s.source (ioImm w) ≠ (ioA w).testBit 0) ∨
  (o = .push ∧ s.outCap e ≤ (s.ioe e).qout.length) ∨ (o = .pull ∧ (s.ioe e).qin = [])

/-- A latched edge of the pin that an edge wait of code `a` takes, the earlier of two that match (R275). -/
def State.TakesLatched (s : State) (e a p : Nat) (up : Bool) (g : Nat × Nat) : Prop :=
  let x := s.ioe e
  let fits := fun (up : Bool) (g : Nat × Nat) => edgeMatches a (s.fld .IOE_TT e) up g.1 = true
  x.pin = some p ∧ (if up then x.rise else x.fall) = some g ∧ fits up g ∧
  ∀ h, (if up then x.fall else x.rise) = some h → fits (!up) h → if up then g.2 ≤ h.2 else g.2 < h.2

/-- R271, R274, R275, R277, R285: a wait whose condition holds at its issue ends there with TO at 0; with T, one that has reached TT
ends with TO at 1; any other waits. An edge wait takes a latched edge of its pin that its code matches, and an edge before that one is
passed over. (Rests on choices of the model: log entry 31.) -/
def EngineWaitsClaim : Prop :=
  ∀ (e : Fin 16) (s : State) (w b : Nat) (inj : Bool), s.Fetches e w b inj →
    let t := s.issued e b inj
    let x := t.ioe e
    let to' := fun (u : State) (v : Nat) => u.setFld .IOE_STAT_TO e v
    let late := ioT w = true ∧ ttReached b (s.fld .IOE_TT e) = true
    let a := ioA w
    let p := ioB w
    (ioDecode w = some .waitp → a ≤ 1 →
      let now := s.pinLevel p = (a == 1)
      (now → Ends (.ioeWaitp e) s (to' t 0)) ∧ (¬ now → late → Ends (.ioeWaitp e) s (to' t 1)) ∧
      (¬ now → ¬ late → Ends (.ioeWaitp e) s (s.ioeWaits e w b inj 2))) ∧
    (ioDecode w = some .waitp → 2 ≤ a →
      (∀ up g, s.TakesLatched e a p up g → Ends (.ioeWaitp e) s (to' (t.setIoe e { x with
        estamp := g.1
        rise := if up then none else x.rise.filter fun o => g.2 ≤ o.2
        fall := if up then x.fall.filter fun o => g.2 ≤ o.2 else none }) 0)) ∧
      ((∀ up g, ¬ s.TakesLatched e a p up g) →
        (late → Ends (.ioeWaitp e) s (to' (t.setIoe e { x with pin := some p, rise := none, fall := none }) 1)) ∧
        (¬ late → Ends (.ioeWaitp e) s (s.ioeWaits e w b inj 2)))) ∧
    (∀ c ∈ [(Instr.ioeWaitf e, IoOp.waitf), (.ioeWaiti e, .waiti)], ioDecode w = some c.2 →
      (∀ u, s.WaitEnds t e w c.2 u → Ends c.1 s u) ∧
      (s.WaitOn e w c.2 → late → Ends c.1 s (to' t 1)) ∧
      (s.WaitOn e w c.2 → ¬ late → Ends c.1 s (s.ioeWaits e w b inj 2))) ∧
    (ioDecode w = some .waitt →
      let away := (s.fld .IOE_TT e + 2 ^ 32 - 4 * (s.tnow / 4) % 2 ^ 32) % 2 ^ 32
      (away < 4 ∨ 2 ^ 31 ≤ away → Ends (.ioeWaitt e) s (to' t 0)) ∧
      (4 ≤ away → away < 2 ^ 31 → Ends (.ioeWaitt e) s (s.ioeWaits e w b inj 2)))

/-- R266, R274, R277, R283, R285: at a step boundary a wait or stall ends whose condition holds, or has held for a WAITP, or whose TT
is reached where T is set; that of a timed pin change after its tick; the engine runs on from that boundary. Any other goes on, and
between boundaries each does. (Rests on choices of the model: log entry 31.) -/
def EngineWakesClaim : Prop :=
  ∀ (e : Fin 16) (s : State), s.Ticks →
    ((s.ioe e).cur = none → Ends (.ioeStepWake e) s s) ∧
    (s.ioeBoundary e = none → Ends (.ioeStepWake e) s s) ∧
    ∀ (b : Nat) (c : IoeCur) (o : IoOp), (s.ioe e).cur = some c → s.ioeBoundary e = some b → ioDecode c.word = some o →
      let late := ioT c.word = true ∧ ttReached b (s.fld .IOE_TT e) = true
      let edge := 2 ≤ ioA c.word
      let to' := fun (u : State) (v : Nat) => u.setFld .IOE_STAT_TO e v
      let runs := fun (u : State) => (u.setFld .IOE_STAT_STATE e 1).setIoe e { u.ioe e with cur := none, free := b }
      (o = .pin ∨ o = .shout → Ends (.ioeStepWake e) s (if c.acted && c.met.all (fun m => decide (m.2 < b)) then runs s else s)) ∧
      (o = .waitp →
        (∀ m, c.met = some m → Ends (.ioeStepWake e) s (if m.2 < b then
          runs (to' (if edge then s.setIoe e { s.ioe e with estamp := m.1 } else s) 0) else s)) ∧
        (c.met = none → late → Ends (.ioeStepWake e) s (runs (to' (if edge then
          s.setIoe e { s.ioe e with pin := some (ioB c.word), rise := none, fall := none } else s) 1))) ∧
        (c.met = none → ¬ late → Ends (.ioeStepWake e) s s)) ∧
      (o = .waitt →
        let away := (s.fld .IOE_TT e + 2 ^ 32 - 4 * (s.tnow / 4) % 2 ^ 32) % 2 ^ 32
        Ends (.ioeStepWake e) s (if away < 4 ∨ 2 ^ 31 ≤ away then runs (to' s 0) else s)) ∧
      (∀ u, s.WaitEnds s e c.word o u → Ends (.ioeStepWake e) s (runs u)) ∧
      (s.WaitOn e c.word o → late → Ends (.ioeStepWake e) s (runs (to' s 1))) ∧
      (s.WaitOn e c.word o → ¬ late → Ends (.ioeStepWake e) s s)

/-- R282 to R284: PUSH and PULL move SH and the queues, and on a full or empty queue stall or record it. POST writes its source, or its
low 24 bits under the new count, to one word of the data memory of every sequencer in the mask, but for bytes that a higher-numbered
engine has posted in the same sequencer cycle. -/
def EngineQueuesClaim : Prop :=
  ∀ (e : Fin 16) (s : State) (w b : Nat) (inj : Bool), s.Fetches e w b inj →
    let t := s.issued e b inj
    let block := (ioA w).testBit 0 = true
    (∀ c ∈ [(Instr.push e, IoOp.push, Fld.IOE_EVT_OUT_OVF), (.pull e, .pull, .IOE_EVT_IN_UNDER)], ioDecode w = some c.2.1 →
      (∀ u, s.WaitEnds t e w c.2.1 u → Ends c.1 s u) ∧
      (s.WaitOn e w c.2.1 → block → Ends c.1 s (s.ioeWaits e w b inj 3)) ∧
      (s.WaitOn e w c.2.1 → ¬ block → Ends c.1 s (t.setFld c.2.2 e 1))) ∧
    (ioDecode w = some .post →
      let cnt := (s.fld .IOE_STAT_POST_CNT e + 1) % 256
      let v := s.fld (ioReg (ioC w)) e
      let at' := s.fld .IOE_POST_WORD e
      EndsIn (.post e) s fun u =>
        let kept := fun a => s.dataIn.1 = s.tnow / 2 ∧ ∃ x ∈ s.dataIn.2, x.1 = a ∧ 2 + e.val < x.2
        { u with mem := s.mem, dataIn := s.dataIn } = (if block then t.setFld .IOE_STAT_POST_CNT e cnt else t) ∧
        (∀ n, n < 24 → (s.fld .IOE_POST_MASK e).testBit n = true → (∀ j, j < 4 → ¬ kept (dmemAddr n at' + j)) →
          u.word (dmemAddr n at') = if block then v % 2 ^ 24 + 2 ^ 24 * cnt else v) ∧
        (∀ a, kept a → u.byte a = s.byte a) ∧
        ∀ a, (∀ n, n < 24 → (s.fld .IOE_POST_MASK e).testBit n = true → ¬ (dmemAddr n at' ≤ a ∧ a < dmemAddr n at' + 4)) →
          u.byte a = s.byte a)

/-- A start of engine `e` (R267): at ENTRY, with phase 0 in the next cycle and no pin latched. -/
def State.ioeStarted (s : State) (e : Nat) : State :=
  (((s.setFld .IOE_CTRL_EN e 1).setFld .IOE_STAT_PC e (s.fld .IOE_CTRL_ENTRY e)).setFld .IOE_STAT_STATE e 1).setIoe e
    { s.ioe e with phase := s.tick + 1, free := s.tick + 1, cur := none, pin := none, rise := none, fall := none }

/-- Engine `e` is in the state that a reset gives it (R267), where the memory and the constants are kept. -/
def State.IoeReset (s u : State) (e : Nat) : Prop :=
  u = { s with regs := u.regs, ioes := u.ioes } ∧ u.ioe e = {} ∧ (∀ d, d ≠ e → u.ioe d = s.ioe d) ∧
  (∀ f ∈ [.IOE_CTRL_EN, .IOE_STAT_POST_CNT, .IOE_STAT_SC, .IOE_STAT_INJ_PENDING, .IOE_STAT_TO, .IOE_STAT_STATE, .IOE_STAT_PC, .IOE_FLAGS,
    .IOE_CRC_CFG_VALUE, .IOE_CA, .IOE_CB, .IOE_SH, .IOE_TT], u.fld f e = 0) ∧
  u.fld .IOE_UNIT e = 0x10000 ∧ ∀ (f : Fld) (j : Nat), u.fld f j ≠ s.fld f j → j % 1024 = e

/-- An instruction that a stopped engine refuses (R280): a wait, a blocking PUSH or PULL, HALT, and one with T. -/
def RefusedWord (w : Nat) : Prop :=
  ∃ o, ioDecode w = some o ∧ (ioT w = true ∨ o = .waitp ∨ o = .waitf ∨ o = .waiti ∨ o = .waitt ∨ o = .halt ∨
    ((o = .push ∨ o = .pull) ∧ (ioA w).testBit 0 = true))

/-- R267, R279, R280, R282, R283, R285: what a source's writes and reads do to an engine. A write of CTRL that changes EN starts the
engine or stops it; OUT_DEPTH is taken while it stops, on IOE0 to IOE3, a new depth emptying both queues. CMD resets the engine.
INJECT holds one instruction, which a stopped engine takes in the next cycle; one too many is lost, and a stopped engine refuses
what would wait. A group command starts or rephases its engines together. QOUT gives its head, and QIN takes an entry, where there is
one and space for one. The host sets and clears flags. (Rests on choices of the model: log entry 31.) -/
def EngineCommandsClaim : Prop :=
  ∀ (e : Fin 16) (src : Src) (s : State),
    let o := fun (r : Nat) => 0x180000 + 0x100 * e.val + r
    let x := s.ioe e
    let on := s.flag .IOE_CTRL_EN e = true
    (∀ v : Word,
      let b := fun hi lo => bitsN v.toNat hi lo
      let depth := e.val < 4 ∧ ¬ on ∧ s.fld .IOE_CTRL_OUT_DEPTH e ≠ b 19 16
      let t := if depth then (s.cleared.setFld .IOE_CTRL_OUT_DEPTH e (b 19 16)).setIoe e { x with qout := [], qin := [] } else s.cleared
      let t := (t.setFld .IOE_CTRL_GRP e (b 14 12)).setFld .IOE_CTRL_ENTRY e (b 5 0)
      (¬ on → b 31 31 = 1 → Stores (.ioeCtrlWrite src e v) s src (o 0) v.toNat (t.ioeStarted e)) ∧
      ((on ↔ b 31 31 = 1) → Stores (.ioeCtrlWrite src e v) s src (o 0) v.toNat t) ∧
      (on → b 31 31 = 0 → x.inj = none → Stores (.ioeCtrlWrite src e v) s src (o 0) v.toNat
        (((t.setFld .IOE_CTRL_EN e 0).setFld .IOE_STAT_STATE e 0).setIoe e { x with cur := none })) ∧
      (on → b 31 31 = 0 → ∀ w, x.inj = some w →
        let u := (t.setFld .IOE_CTRL_EN e 0).setFld .IOE_STAT_STATE e 0
        (RefusedWord w → Stores (.ioeCtrlWrite src e v) s src (o 0) v.toNat
          (((u.setFld .IOE_STAT_INJ_PENDING e 0).setFld .IOE_EVT_INJ_REFUSED e 1).setIoe e { x with cur := none, inj := none })) ∧
        (¬ RefusedWord w → Stores (.ioeCtrlWrite src e v) s src (o 0) v.toNat (u.setIoe e { x with cur := none, free := s.tick + 1 }))) ∧
      let refused := ¬ on ∧ RefusedWord v.toNat
      let full := s.flag .IOE_STAT_INJ_PENDING e = true
      (full → Stores (.ioeInject src e v) s src (o 0x14) v.toNat (s.cleared.setFld .IOE_EVT_INJ_LOST e 1)) ∧
      (¬ full → refused → Stores (.ioeInject src e v) s src (o 0x14) v.toNat (s.cleared.setFld .IOE_EVT_INJ_REFUSED e 1)) ∧
      (¬ full → ¬ refused → Stores (.ioeInject src e v) s src (o 0x14) v.toNat ((s.cleared.setFld .IOE_STAT_INJ_PENDING e 1).setIoe e
        { x with inj := some v.toNat, free := if s.flag .IOE_CTRL_EN e then x.free else s.tick + 1 })) ∧
      (x.qin.length < s.inCap e →
        Stores (.ioeQinWrite src e v) s src (o 0x44) v.toNat (s.cleared.setIoe e { x with qin := x.qin ++ [v.toNat] })) ∧
      (s.inCap e ≤ x.qin.length → Stores (.ioeQinWrite src e v) s src (o 0x44) v.toNat (s.cleared.setFld .IOE_EVT_IN_OVF e 1))) ∧
    (s.Takes src (o 4) → EndsIn (.ioeReset src e) s fun u => ∃ r : State, s.cleared.IoeReset r e ∧ u = r.passedOn src (o 4) 1) ∧
    (∀ m : BitVec 8,
      Stores (.ioeFlagsClear src e m) s src (o 0x18) m.toNat
        (s.cleared.setFld .IOE_FLAGS e (s.fld .IOE_FLAGS e - (s.fld .IOE_FLAGS e &&& m.toNat))) ∧
      Stores (.ioeFlagsSet src e m) s src (o 0x1c) m.toNat (s.cleared.setFld .IOE_FLAGS e (s.fld .IOE_FLAGS e ||| m.toNat))) ∧
    (x.qout = [] → Loads (.ioeQoutRead src e) s src (o 0x40) (2 ^ 32 - 1) (s.setFld .IOE_EVT_OUT_UNDER e 1)) ∧
    (∀ v r, x.qout = v :: r → v < 2 ^ 32 → Loads (.ioeQoutRead src e) s src (o 0x40) v (s.setIoe e { x with qout := r })) ∧
    ∀ (g : Fin 8) (start : Bool), s.Takes src 0x184100 →
      EndsIn (if start then .ioeGroupStart src g else .ioeGroupRephase src g) s fun u =>
        ∃ r : State, u = r.passedOn src 0x184100 (65536 * g + (if start then 1 else 2)) ∧
        r = { s.cleared with regs := r.regs, ioes := r.ioes } ∧ ∀ d, d < 16 →
          let member := 1 ≤ g.val ∧ g.val ≤ 4 ∧ s.fld .IOE_CTRL_GRP d = g
          let run := s.flag .IOE_CTRL_EN d = true
          r.ioe d = (if member ∧ run then { s.ioe d with phase := s.tick + 1 }
            else if member ∧ start = true then (s.ioeStarted d).ioe d else s.ioe d) ∧
          ∀ f, r.fld f d = if member ∧ ¬ run ∧ start = true then (s.ioeStarted d).fld f d else s.fld f d

end Sys2Proof.Machine

/-- The instructions of the I/O engines, their issue, results and flow. -/
def Obligations.EngineInstructions : Prop :=
  Sys2Proof.Machine.EngineIssueClaim ∧ Sys2Proof.Machine.EngineResultsClaim ∧ Sys2Proof.Machine.EngineFlowClaim

/-- The pins of the engines, the edges at them, waits and their ends. -/
def Obligations.EnginePinsAndWaits : Prop :=
  Sys2Proof.Machine.EnginePinsClaim ∧ Sys2Proof.Machine.EngineEdgesClaim ∧ Sys2Proof.Machine.EngineWaitsClaim ∧ Sys2Proof.Machine.EngineWakesClaim

/-- The queues of the engines, and the commands to them. -/
def Obligations.EngineQueuesAndCommands : Prop :=
  Sys2Proof.Machine.EngineQueuesClaim ∧ Sys2Proof.Machine.EngineCommandsClaim

namespace Sys2Proof.Machine

/-! ### Accesses, fences and the error log (R5, R6, R320 to R332, R420 to R425) -/

/-- Registers with an effect of their own beside storing, as their sections give it. -/
def ownWrites : List Reg :=
  [.AD_INPUTS, .AD_CFG, .AD_MAPCFG, .AD_TMAP_OFFSET, .AD_CMD, .AD_TCL_CFG, .AD_TCL_CMD, .SEQ_CTRL, .SEQ_MODECFG, .SEQ_CMD, .SEQ_SWAP,
    .SEQ_FLAGS_SET, .OUT_OWNER, .SVC_CFG, .SVC_TARGET, .ADC_CFG, .ADC_CMD, .AIN_CFG, .BAS_CFG, .BAS_CMD, .TRK_CFG, .WT_CMD, .CMP_CFG, .CMP_DAC, .CMP_ROUTE,
    .PWM_CTRL, .PWM_PERIOD, .PWM_CMPA, .PWM_CMPB, .PWM_MARK1, .PWM_MARK2, .PWM_DEADTIME, .PWM_FORCE, .PWM_OUTCFG, .PWM_CMD, .PWM_SYNC, .TRIP_CFG, .IOE_CTRL, .IOE_CMD, .IOE_INJECT, .IOE_FLAGS_SET, .IOE_QIN, .GIO_CFG,
    .IOE_GROUP_CMD] ++
  [.MODE_REQ, .ICU_TGT, .ICU_SWI_SET, .DMA_CH_CFG, .DMA_CH_CMD, .DMA_CH_RING, .DMA_CH_SIZE, .DMA_CH_TAIL, .DMA_CH_RBASE, .DMA_CH_RSIZE,
    .DMA_CH_RD, .DMA_CH_WRPTR_ADDR, .ACCESS_ERR, .FENCE, .PAIR_CMD, .PWR_SUP_CFG, .ELOG_RD]

/-- Registers whose read does more than answer with a value and restart RC fields. -/
def ownReads : List Reg :=
  [.AD_ANGLE, .BAS_VALUE, .BAS_TAG, .TRK_MAX, .TRK_MAX_ANG, .TRK_MIN, .TRK_MIN_ANG, .TRK_TAG, .BAS_FEED_DATA, .IOE_QOUT]

/-- R324, R328: the record of an access error. The first one since the record was cleared is kept, later ones set LOST, and each is
counted, the counter holding at its maximum. -/
def AccessRecordClaim : Prop :=
  ∀ (src : Src) (off be : Nat) (wr : Bool) (k : ErrKind) (s : State), s.Inv → off < 2 ^ 24 → be < 16 →
    let u := s.accessLogged src off wr k be
    u = { s with regs := u.regs } ∧ u.fld .ACCESS_ERR_CNT = min (s.fld .ACCESS_ERR_CNT + 1) (2 ^ 32 - 1) ∧
    u.fld .ACCESS_ERR_VALID = 1 ∧
    (s.flag .ACCESS_ERR_VALID = true → u.fld .ACCESS_ERR_LOST = 1 ∧
      ∀ f i, f ≠ .ACCESS_ERR_CNT → f ≠ .ACCESS_ERR_LOST → u.fld f i = s.fld f i) ∧
    (s.flag .ACCESS_ERR_VALID = false → u.fld .ACCESS_ERR_SRC = srcNum src ∧ u.fld .ACCESS_ERR_BE = be ∧
      u.fld .ACCESS_ERR_WRITE = b2n wr ∧ u.fld .ACCESS_ERR_ADDR_OFFSET = off ∧
      u.fld .ACCESS_ERR_KIND = (match k with
        | .narrowActionWrite => 1 | .narrowActionRead => 2 | .misaligned => 3 | .unmapped => 4 | .locked => 5 | .refused => 6
        | .unlatched => 7 | .narrowMem => 8) ∧
      ∀ f i, f ∉ [.ACCESS_ERR_CNT, .ACCESS_ERR_VALID, .ACCESS_ERR_SRC, .ACCESS_ERR_BE, .ACCESS_ERR_WRITE, .ACCESS_ERR_ADDR_OFFSET,
        .ACCESS_ERR_KIND] → u.fld f i = s.fld f i)

/-- R5, R6, R320 to R325, R358, R366: a write of a source on the unified map. Without bytes it does nothing. Misaligned, to an offset
with nothing mapped, barred by a reset of F1 or by the state of a Follow, and narrow to a register that acts, it is discarded and
logged. A register without an effect of its own takes the value, merged where bytes are missing, field by field.
(Rests on choices of the model: log entries 37 and 38.) -/
def RegisterWriteClaim : Prop :=
  ∀ (src : Src) (o : BitVec 24) (e : BitVec 4) (v : Word) (s : State), s.Ready → s.carries src o.toNat = true →
    let off := o.toNat
    let be := e.toNat
    let c := Instr.registerWrite src .bar0 o e ⟨v, [], false⟩
    let fails := fun k => Ends c s ((s.cleared.accessLogged src off true k be).passedOn src off v.toNat be)
    let aligned := off % 4 = 0 ∧ be ∈ [1, 2, 4, 8, 3, 6, 12, 7, 14, 15]
    (be = 0 → Ends c s s.cleared) ∧
    (be ≠ 0 → ¬ aligned → fails .misaligned) ∧
    (aligned → s.writeBarred off true = true → fails .locked) ∧
    (aligned → s.writeBarred off true = false → regAt off = none → memAt off = none → fails .unmapped) ∧
    ∀ r i, aligned → s.writeBarred off true = false → regAt off = some ⟨r, i, 0⟩ → r.row.words = 1 →
      let acts := isAction ⟨r, i, 0⟩ = true
      (be ≠ 15 → acts → fails .narrowActionWrite) ∧
      (be = 15 ∨ ¬ acts → r ∉ ownWrites → Ends c s ((s.cleared.regWritten src off r i
        (if be = 15 then v.toNat else mergeWord (s.regValue r i) be v.toNat) be).passedOn src off v.toNat be))

/-- R5, R320 to R327: a read of a source on the unified map. It answers with the bytes enabled, 0 where nothing is mapped, and an
error where misaligned; a register restarts its RC fields, PEAK at IN_USE and a count of cycles from this one, but for a narrow read of
one that acts. A read of
the low word of a pair latches the high word for its source, whose read then answers with it, and without a latch is logged.
(Rests on choices of the model: log entries 37 and 15.) -/
def ReadsClaim : Prop :=
  ∀ (src : Src) (o : BitVec 24) (e : BitVec 4) (s : State), s.Ready → s.carries src o.toNat = true →
    ∀ c ∈ [Instr.rcRead src .bar0 o [e], .pairLowRead src .bar0 o [e]],
    let off := o.toNat
    let be := e.toNat
    let n := srcNum src
    let bytes := beMask be
    let aligned := off % 4 = 0 ∧ be ∈ [1, 2, 4, 8, 3, 6, 12, 7, 14, 15]
    let answers := fun (u : State) (x : Nat) => Ends c s { u with resp := .data x }
    (be = 0 → answers s 0) ∧
    (be ≠ 0 → ¬ aligned → Ends c s { s.accessLogged src off false .misaligned be with resp := .ur }) ∧
    (aligned → regAt off = none → memAt off = none → answers (s.accessLogged src off false .unmapped be) 0) ∧
    (∀ m, aligned → regAt off = none → memAt off = some m → answers s (s.word off &&& bytes)) ∧
    ∀ r i k, aligned → regAt off = some ⟨r, i, k⟩ → r ∉ ownReads →
      let x := s.regWord ⟨r, i, k⟩
      let restarted := fun (u : State) => (r.row.fields.filter fun f => f.info.acc == .rc).foldl (fun t f => t.setFld f i
        (if f = .SEQ_SLOTS_PEAK then t.inUse i else f.resetAt i)) u
      let restarted := fun (u : State) =>
        let t := restarted u
        if r = .SEQ_CNT_CYC then t.setSeq i { t.seq i with counted := max (t.seq i).counted t.seqCyc }
        else if r = .SEQ_CNT_STALL then t.setSeq i { t.seq i with stallCounted := max (t.seq i).stallCounted t.seqCyc } else t
      (isAction ⟨r, i, k⟩ = true → be ≠ 15 →
        answers (s.accessLogged src off false .narrowActionRead be) (x &&& bytes)) ∧
      (r.row.words = 1 → isAction ⟨r, i, k⟩ = false ∨ be = 15 → answers (restarted s) (x &&& bytes)) ∧
      (r.row.words = 2 → k = 0 → be = 15 → answers (restarted (s.highLatched src (off + 4) (s.regValue r i / 2 ^ 32))) x) ∧
      (r.row.words = 2 → k = 1 → isAction ⟨r, i, k⟩ = false ∨ be = 15 →
        (∀ w, Tab.find s.latched n = some (off, w) → answers (restarted s) (w &&& bytes)) ∧
        ((∀ w, Tab.find s.latched n ≠ some (off, w)) →
          answers (restarted (s.accessLogged src off false .unlatched be)) (x &&& bytes)))

/-- R323, R325, R326, R352: a function's access of several words on the unified map. Without bytes it does nothing; misaligned, which any
access of more than 8 bytes outside the memories is, it is discarded and logged, a read ending in Unsupported Request; else it is the
32-bit accesses of its words in ascending order. So a 64-bit write of a pair commits its two words at once. A write with poisoned data
leaves everything but its function's AER registers, whose bit 12 it sets. (Rests on choices of the model: log entry 37.) -/
def WideAccessClaim : Prop :=
  ∀ (k : Fin 4) (o : BitVec 24) (e : BitVec 4) (v : Word) (rest : List (BitVec 4 × Word)) (s : State), s.Ready → s.reaches k = true →
    decodes k o.toNat = true → rest ≠ [] →
    let off := o.toNat
    let ws := (e.toNat, v.toNat) :: rest.map fun x => (x.1.toNat, x.2.toNat)
    let bes := ws.map (·.1)
    let write := fun (c : State → Prop) => EndsIn (.registerWrite (.f k) .bar0 o e ⟨v, rest, false⟩) s c
    let reads := fun (u : State) (r : Resp) => ∀ c ∈ [Instr.rcRead (.f k) .bar0 o (e :: rest.map (·.1)),
      .pairLowRead (.f k) .bar0 o (e :: rest.map (·.1))], Ends c s { u with resp := r }
    let bad := off % (4 * ws.length) ≠ 0 ∨ beRun bes = false ∨ (2 < ws.length ∧ inMemory off = false)
    let empty := ∀ b ∈ bes, b = 0
    (empty → write (· = s.cleared) ∧ reads s (.data 0)) ∧
    (¬ empty → bad → write (· = s.cleared.accessLogged (.f k) off true .misaligned e.toNat) ∧
      reads (s.accessLogged (.f k) off false .misaligned e.toNat) .ur) ∧
    (¬ empty → ¬ bad →
      write (· = (ws.foldl (fun (t : State × Nat) (w : Nat × Nat) => (t.1.busWrite k t.2 w.1 w.2, t.2 + 4)) (s.cleared, off)).1.dmaPump) ∧
      (let r := bes.foldr (fun b (f : State → Nat → State × Nat) t a =>
          let x := t.busRead k a b
          let y := f x.1 (a + 4)
          (y.1, x.2.getD 0 + 2 ^ 32 * y.2)) (fun t _ => (t, 0)) s off
       reads r.1 (.data r.2)) ∧
      ∀ r i hi, rest = [(15, hi)] → e = 15 → regAt off = some ⟨r, i, 0⟩ → regAt (off + 4) = some ⟨r, i, 1⟩ → pairRw r = true →
        r ∉ ownWrites → s.writeBarred off true = false → s.writeBarred (off + 4) true = false →
        write (· = ((({ s.cleared with heldLow := Tab.put s.heldLow k none }.passedOn (.f k) off v.toNat).regWritten (.f k) (off + 4) r i
          (v.toNat + 2 ^ 32 * hi.toNat)).passedOn (.f k) (off + 4) hi.toNat))) ∧
    EndsIn (.registerWrite (.f k) .bar0 o e ⟨v, rest, true⟩) s fun u =>
      u = { s.cleared with pcie := u.pcie } ∧ u.pcie = { s.pcie with fns := u.pcie.fns } ∧ (∀ f, f ≠ k.val → u.fn f = s.fn f) ∧
      u.fn k = { s.fn k with aerStat := (s.fn k).aerStat ||| 2 ^ 12, aerFirst := (u.fn k).aerFirst, aerHdr := (u.fn k).aerHdr }

/-- R332, R420, R424, R425: a token published is shown in FENCE_DONE of its source, for each source in its own place, and goes on to
the partner. ELOG_RD takes a value up to ELOG_WR. The LOST entry is written once due. -/
def FenceAndLogClaim : Prop :=
  (∀ (src : Src) (tok : BitVec 16) (s : State), s.Ready →
    (match src with | .f k => s.reaches k.val = true | _ => True) →
    Ends (.fenceWrite src tok) s ((s.cleared.setFld .FENCE_DONE (srcNum src) tok.toNat).forward (srcNum src) 0x300 15 tok.toNat)) ∧
  (∀ (src : Src) (v : Word) (s : State),
    let ahead := (v.toNat % 65536 + 65536 - s.fld .ELOG_RD) % 65536
    let unread := (s.fld .ELOG_WR + 65536 - s.fld .ELOG_RD) % 65536
    let frees := s.lostOwed.count ≠ 0 ∧ s.lostOwed.freedAt = none ∧ unread - ahead < 64
    let t := s.cleared.setFld .ELOG_RD 0 (v.toNat % 65536)
    (ahead ≤ unread → ¬ frees → Stores (.elogRdWrite src v) s src 0xa04 v.toNat t) ∧
    (ahead ≤ unread → frees → Stores (.elogRdWrite src v) s src 0xa04 v.toNat
      { t with lostOwed := ⟨s.lostOwed.count, some (s.tnow / 2)⟩ }) ∧
    (unread < ahead → Stores (.elogRdWrite src v) s src 0xa04 v.toNat (s.cleared.accessLogged src 0xa04 true .refused))) ∧
  ∀ s : State, s.Sound → s.up = true →
    let k := s.fld .ELOG_WR % 64
    let due := s.lostOwed.count ≠ 0 ∧ s.unread < 64 ∧ s.lostOwed.freedAt ≠ some (s.tnow / 2)
    (¬ due → Ends .lostEntry s s) ∧
    (due → EndsIn .lostEntry s fun u =>
      u = { s with regs := u.regs, lostOwed := {} } ∧ u.fld .ELOG_HEAD_CODE k = 15 ∧
      u.fld .ELOG_DETAIL k = s.lostOwed.count % 2 ^ 32 ∧
      (∀ c, s.lostOwed.freedAt = some c → u.fld .ELOG_TIME k = 2 * (c + 1) % 2 ^ 64) ∧
      u.fld .ELOG_WR = (s.fld .ELOG_WR + 1) % 65536 ∧
      ∀ j, j < 64 → j ≠ k → ∀ f ∈ [.ELOG_TIME, .ELOG_HEAD_CODE, .ELOG_HEAD_INDEX, .ELOG_HEAD_MODE, .ELOG_HEAD_SUB, .ELOG_DETAIL],
        u.fld f j = s.fld f j)

end Sys2Proof.Machine

open Sys2Proof Sys2Proof.Machine in
/-- R420, R421, R423, R424: the entries of a command stand in the log at its end, with TNOW and the mode at its start: one entry next
after the last, where fewer than 64 are unread; else it is counted and a LOST entry is owed. In the cycle that frees space for an owed
LOST entry, entries are counted too; later, the LOST entry goes before them. Two entries stand in the order of CODE.
(Rests on choices of the model: log entries 2 and 13.) -/
def Obligations.ErrorLogEntries : Prop :=
  ∀ (u t : State) (m : Nat), u.Inv → u.EndOf m t → u.mode ≠ 0 → m < 8 →
    let k := u.fld .ELOG_WR % 64
    let unread := (u.fld .ELOG_WR + 65536 - u.fld .ELOG_RD) % 65536
    let holds := fun (j : Nat) (e : LogNew) => t.fld .ELOG_TIME j = u.tnow ∧ t.fld .ELOG_HEAD_CODE j = e.code % 256 ∧
      t.fld .ELOG_HEAD_INDEX j = e.index % 256 ∧ t.fld .ELOG_HEAD_SUB j = e.sub % 256 ∧ t.fld .ELOG_HEAD_MODE j = m ∧
      t.fld .ELOG_DETAIL j = e.detail % 2 ^ 32
    let count := t.fld .ELOG_WR = u.fld .ELOG_WR ∧ t.lostOwed = { u.lostOwed with count := min 65535 (u.lostOwed.count + 1) } ∧
      t.fld .ELOG_OVF = min (u.fld .ELOG_OVF + 1) (2 ^ Fld.ELOG_OVF.width - 1)
    (u.logNew = [] → ∀ f, f ≠ .DBG_STAT_CLK_STOPPED → ∀ i, t.fld f i = u.fld f i) ∧
    (∀ e, u.logNew = [e] → u.lostOwed.count = 0 → unread < 64 →
      holds k e ∧ t.fld .ELOG_WR = (u.fld .ELOG_WR + 1) % 65536 ∧ t.lostOwed = u.lostOwed) ∧
    (∀ e, u.logNew = [e] → 64 ≤ unread → count) ∧
    (∀ e, u.logNew = [e] → u.lostOwed.count ≠ 0 → u.lostOwed.freedAt = some (u.tnow / 2) → count) ∧
    (∀ e c, u.logNew = [e] → u.lostOwed.count ≠ 0 → u.lostOwed.freedAt = some c → c ≠ u.tnow / 2 → unread < 63 →
      t.fld .ELOG_HEAD_CODE k = 15 ∧ t.fld .ELOG_DETAIL k = u.lostOwed.count % 2 ^ 32 ∧ t.fld .ELOG_TIME k = 2 * (c + 1) % 2 ^ 64 ∧
      holds ((k + 1) % 64) e ∧ t.fld .ELOG_WR = (u.fld .ELOG_WR + 2) % 65536 ∧ t.lostOwed = {}) ∧
    ∀ a b, u.logNew = [a, b] → u.lostOwed.count = 0 → unread < 63 → a.code ≠ b.code →
      let first := if a.code < b.code then a else b
      let second := if a.code < b.code then b else a
      holds k first ∧ holds ((k + 1) % 64) second ∧ t.fld .ELOG_WR = (u.fld .ELOG_WR + 2) % 65536

namespace Sys2Proof.Machine

/-- The distance of copy `i` from a register's base, where the last dimension counts fastest (R430, R431). -/
def copyAt : List (Nat × Nat) → Nat → Nat
  | [], _ => 0
  | d :: l, i => let n := (l.map (·.1)).foldl (· * ·) 1; i / n % d.1 * d.2 + copyAt l (i % n)

/-- The offset of word `w` of copy `i` of a register. -/
def Reg.offset (r : Reg) (i w : Nat) : Nat := r.row.base + copyAt r.row.dims i + 4 * w

end Sys2Proof.Machine

open Sys2Proof Sys2Proof.Machine in
/-- The register map: every word of every copy of every register is found at its offset, and at no other. -/
def Obligations.RegisterMap : Prop :=
  (∀ (r : Reg) (i w : Nat), i < r.count → w < r.row.words → regAt (r.offset i w) = some ⟨r, i, w⟩) ∧
  ∀ off a, regAt off = some a → a.inst < a.reg.count ∧ a.word < a.reg.row.words ∧ a.reg.offset a.inst a.word = off

/-- Accesses to the unified map: their record, register writes, reads, fences and the log pointer. -/
def Obligations.RegisterAccesses : Prop :=
  Sys2Proof.Machine.AccessRecordClaim ∧ Sys2Proof.Machine.RegisterWriteClaim ∧ Sys2Proof.Machine.ReadsClaim ∧ Sys2Proof.Machine.WideAccessClaim ∧ Sys2Proof.Machine.FenceAndLogClaim

namespace Sys2Proof.Machine

/-! ### Interrupts (R289 to R301) -/

/-- R290, R292, R295 to R298, R372: targets, which a reserved source discards and an index above 23 of TYPE 6 refuses; software
sources; an EOI, which commits the vector's message again, with its highest priority, while its level is 1 and it may be sent, frees
the vector otherwise, and is spurious on one that has sent nothing or whose message waits for the link; the lifting of a send
condition; and an asserted source of TYPE 7, which the recovery manager records, asking for a planned handover where PRI is below 3
and the partner is in SHADOW. -/
def InterruptCommandsClaim : Prop :=
  (∀ (src : Src) (s : State),
    (∀ (k : Fin 384) (v : Word),
      let off := 0x10000 + 4 * k.val
      let b := fun hi lo => bitsN v.toNat hi lo
      let reserved := 285 ≤ k.val ∧ k.val < 320
      let bad := b 18 16 = 6 ∧ 23 < b 5 0
      (reserved → Stores (.icuTgtWrite src k v) s src off v.toNat s.cleared) ∧
      (¬ reserved → bad → Stores (.icuTgtWrite src k v) s src off v.toNat
        ((s.cleared.setFld .ICU_FAULT_TGT_BAD 0 1).accessLogged src off true .refused)) ∧
      (¬ reserved → ¬ bad → Stores (.icuTgtWrite src k v) s src off v.toNat
        (((s.cleared.setFld .ICU_TGT_TYPE k (b 18 16)).setFld .ICU_TGT_PRI k (b 13 12)).setFld .ICU_TGT_IDX k (b 5 0)))) ∧
    ∀ (j : Fin 2) (m : Word), Stores (.icuSwiSet src j m) s src (0x10878 + 4 * j.val) m.toNat
      (s.cleared.setFld .ICU_SWI j (s.fld .ICU_SWI j ||| m.toNat))) ∧
  (∀ (f : Fin 4) (v : BitVec 6) (s : State), s.Ready → s.reaches f = true →
    let x := s.fn f
    let level := s.vlevel f v.toNat = true
    let again := level ∧ s.maySend f v.toNat = true
    let sent := x.sent.testBit v.toNat = true ∧ s.msiWaits f v.toNat = false
    let names := fun k => k < 384 ∧ s.fld .ICU_TGT_TYPE k = f + 1 ∧ s.fld .ICU_TGT_IDX k = v.toNat ∧ s.source k = true
    let word := fun n => Tab.get 0 x.table (4 * v.toNat + n)
    (¬ sent → Ends (.icuEoi f v) s (s.cleared.setFld .ICU_FAULT_SPURIOUS_EOI 0 (s.fld .ICU_FAULT_SPURIOUS_EOI ||| 2 ^ f.val))) ∧
    (sent → ¬ again → Ends (.icuEoi f v) s (s.cleared.setFn f { x with sent := x.sent - 2 ^ v.toNat })) ∧
    (sent → again → ∃ pri, (∃ k, names k ∧ s.fld .ICU_TGT_PRI k = pri) ∧ (∀ k, names k → s.fld .ICU_TGT_PRI k ≤ pri) ∧
      Ends (.icuEoi f v) s
        { s.cleared with pcie := { s.pcie with due := s.pcie.due ++ [⟨f, v.toNat, pri, word 0 + 2 ^ 32 * word 1, word 2⟩] } })) ∧
  (∀ (f : Fin 4) (cond : SendCond) (s : State), s.Sound → s.up = true →
    let x := s.fn f
    Ends (.msixUnmask f cond) s (s.setFn f (match cond with
      | .vectorMask v => { x with open' := x.open' ||| 2 ^ v.toNat }
      | .functionMask => { x with fmask := false }
      | .msixEnable => { x with msixEn := true }
      | .busMaster => { x with bme := true }
      | .powerState => { x with d3 := false }))) ∧
  ∀ (k : Fin 384) (s : State), s.Sound → s.up = true →
    let taken := s.fld .ICU_TGT_TYPE k = 7 ∧ s.source k = true
    let asks := s.fld .ICU_TGT_PRI k < 3 ∧ s.leads = true ∧ s.partner = stShadow
    let t := s.setFld .RMGR_STAT_SRC 0 k
    (¬ taken → Ends (.rmgrSource k) s s) ∧ (taken → ¬ asks → Ends (.rmgrSource k) s t) ∧
    (taken → asks → Ends (.rmgrSource k) s t.hoRequest)

/-- R295 to R297: while the peripheral clock runs, no vector is left at the end of a command that has level 1, is IDLE and may be sent:
its message is committed. (Rests on choices of the model: log entry 13.) -/
def NoMessageWaitsClaim : Prop :=
  ∀ (c : Instr) (s t : State), s.Sound → exec c s = .next t → t.live = true →
    (t.power.forced = true → t.power.failCode ≠ 1 ∧ t.power.failCode ≠ 4) → ∀ f v, f < 4 → v < 64 →
    t.vlevel f v = true → t.maySend f v = true → (t.fn f).sent.testBit v = true

/-! ### DMA (R302 to R319) -/

/-- No channel but `c` has anything to do, and a write or a completion finds the fast clocks running. -/
structure State.DmaAlone (s : State) (c : Nat) : Prop where
  sound : s.Sound
  up : s.up = true
  others : ∀ d, d < 16 → d ≠ c → s.dmaBusy d = false

/-- A channel that works on nothing: no descriptor, no read, no status. -/
def Dma.atRest (x : Dma) : Prop := x.desc = [] ∧ x.reqs = [] ∧ x.fin = none

/-- A channel that can only wait, for the data of a descriptor or of what it ends: some read of it has not been answered. -/
def Dma.awaits (x : Dma) : Prop := x.open' ≠ [] ∧ (x.desc = [] ∨ x.fin ≠ none)

/-- A channel in ring mode at rest, with EN at 1, asks for the next descriptor of its ring, if there is one, under the lowest free tag
(R304 to R307). -/
def State.dmaFetch (s : State) (c : Nat) : State :=
  if s.fld .DMA_CH_HEAD c = s.fld .DMA_CH_TAIL c then s
  else if (s.fn 0).bme then
    match s.freeTag with
    | some g =>
      let addr := s.fld .DMA_CH_RING c * 32 + 32 * s.fld .DMA_CH_HEAD c
      { s.setFld .DMA_CH_STAT_STATE c 1 with
        pcie := { s.pcie with out := s.pcie.out ++ [PcieOut.read c addr 32 false], readTurn := (c + 1) % 16 } }.setDma c
          { s.dma c with addr, reqs := [{ kind := .fetch, addr, len := 32, at' := s.tnow, tag := g }] }
    | none => s
  else s.setFld .DMA_ENG_EVT_BME_OFF 0 1

/-- Command `x` of channel `c` leaves `u`, where the channel of `s` can go no further; and `u` with the fetch of a descriptor, where it is
at rest with EN at 1 in ring mode. -/
def State.GoesOn (s : State) (c : Nat) (x : Instr) (u : State) : Prop :=
  ((s.dma c).awaits ∨ ((s.dma c).atRest ∧ (s.dmaOn c = false ∨ s.dmaFeeds c = true)) → Ends x s u) ∧
  ((s.dma c).atRest → s.dmaOn c = true → s.dmaFeeds c = false → Ends x s (u.dmaFetch c))

/-- A channel that stops with a RESULT (R311), after a turn of the write engine. -/
def State.dmaStopped (s : State) (c r : Nat) : State :=
  { ((((s.setFld .DMA_CH_EVT_ERR c 1).setFld .DMA_CH_STAT_LAST_RESULT c r).setFld .DMA_CH_CFG_EN c 0).setFld .DMA_CH_STAT_STATE c 5).setDma
      c {} with pcie := { s.pcie with writeTurn := (c + 1) % 16 } }

/-- The descriptor whose first word is `d0` ends with a RESULT other than 0 and an OFFSET, its host address being `addr`: its status is
written, with WB, DONE is set with IRQ, and the channel stops (R307, R309, R311). -/
def State.dmaFails (s : State) (c d0 addr r off : Nat) : State :=
  let t := if d0.testBit 7 then { s with pcie := { s.pcie with out := s.pcie.out ++ [PcieOut.write c (addr + 24)
    [2 ^ 31 + r * 2 ^ 28 + off, s.tnow % 2 ^ 32] false] } } else s
  (if d0.testBit 6 then t.setFld .DMA_CH_EVT_DONE c 1 else t).dmaStopped c r

/-- Command `x` of channel `c` aborts it in the state `u` (R313): with no descriptor in progress, nor asked for, it is simply disabled; else
it is STOPPING while a read is outstanding, and then ends its descriptor as ABORTED. -/
def State.Aborts (s : State) (c : Nat) (x : Instr) (u : State) : Prop :=
  let y := s.dma c
  let stopping := (u.setDma c { y with fin := some (6, y.off), reqs := y.open' }).setFld .DMA_CH_STAT_STATE c 4
  let wb := (y.desc.getD 0 0).testBit 7
  (y.atRest → Ends x s ((u.setFld .DMA_CH_CFG_EN c 0).setFld .DMA_CH_STAT_STATE c 0)) ∧
  (y.open' ≠ [] → Ends x s stopping) ∧
  (y.desc ≠ [] → y.open' = [] → wb = false ∨ (s.fn 0).bme = true → Ends x s (u.dmaFails c (y.desc.getD 0 0) y.addr 6 y.off)) ∧
  (y.desc ≠ [] → y.open' = [] → wb = true → (s.fn 0).bme = false → Ends x s (stopping.setFld .DMA_ENG_EVT_BME_OFF 0 1))

end Sys2Proof.Machine

open Sys2Proof Sys2Proof.Machine in
/-- R303, R305, R306, R311, R313, R315, R319: the writes of a DMA channel. TAIL and RD stay inside their rings. A ring with work begins
to fetch. CFG changes mode, feed, No Snoop and quota with EN at 0 only, and elsewhere is recorded and logged; a share of more than the 64
quotas is refused; an EN that binds a feed twice or to a bad ring is refused; EN at 0 aborts, as CMD.ABORT does. SKIP leaves a
descriptor out where EN is 0. (Rests on choices of the model: log entries 40 and 38.) -/
def Obligations.DmaChannelWrites : Prop :=
  ∀ (c : Fin 16) (src : Src) (s : State), s.DmaAlone c →
    let o := fun (r : Nat) => 0x20000 + 0x80 * c.val + r
    let x := s.dma c
    let on := s.dmaOn c = true
    let len := 2 ^ s.fld .DMA_CH_SIZE c
    s.carries src (o 0) = true →
    (∀ v : Word,
      let n := v.toNat % 4096
      (n < len → s.GoesOn c (.dmaTail src c v) (s.cleared.setFld .DMA_CH_TAIL c n)) ∧
      (len ≤ n → s.GoesOn c (.dmaTail src c v) (s.cleared.accessLogged src (o 0x18) true .refused)) ∧
      (n < 2 ^ s.fld .DMA_CH_RSIZE c → s.GoesOn c (.dmaRdWrite src c v) (s.cleared.setFld .DMA_CH_RD c n)) ∧
      (2 ^ s.fld .DMA_CH_RSIZE c ≤ n → s.GoesOn c (.dmaRdWrite src c v) (s.cleared.accessLogged src (o 0x38) true .refused))) ∧
    (∀ v : Word,
      let b := fun hi lo => bitsN v.toNat hi lo
      let held := s.fld .DMA_CH_CFG_QUOTA c
      let sum := ((List.range 16).map fun d => s.fld .DMA_CH_CFG_QUOTA d).sum
      let much := held < b 14 8 ∧ 64 < sum - held + b 14 8
      let t := ((s.cleared.setFld .DMA_CH_CFG_MODE c (b 30 30)).setFld .DMA_CH_CFG_NOSNOOP c (b 29 29)).setFld .DMA_CH_CFG_FEED c (b 18 17)
      let t := (if much then (t.setFld .DMA_ENG_EVT_QUOTA_BAD 0 1).accessLogged src (o 0) true .refused
        else t.setFld .DMA_CH_CFG_QUOTA c (b 14 8)).setFld .DMA_CH_CFG_PRI c (b 28 28)
      let late := ((s.cleared.setFld .DMA_ENG_EVT_QUOTA_BAD 0 1).accessLogged src (o 0) true .locked).setFld .DMA_CH_CFG_PRI c (b 28 28)
      let begun := (t.setFld .DMA_CH_CFG_EN c 1).setFld .DMA_CH_STAT_STATE c 0
      let size := s.fld .DMA_CH_RSIZE c
      let twice := ∃ d, d < 16 ∧ d ≠ c.val ∧ s.dmaOn d = true ∧ s.dmaFeeds d = true ∧ s.fld .DMA_CH_CFG_FEED d = b 18 17
      let bad := b 30 30 = 1 ∧ (twice ∨ size < 2 ∨ 12 < size)
      (¬ on → b 31 31 = 0 → x.atRest ∨ x.awaits → Ends (.dmaCfgWrite src c v) s t) ∧
      (¬ on → b 31 31 = 1 → bad → x.atRest ∨ x.awaits → Ends (.dmaCfgWrite src c v) s (t.setFld .DMA_CH_EVT_BIND_BAD c 1)) ∧
      (¬ on → b 31 31 = 1 → ¬ bad → x.atRest → s.fld .DMA_CH_STAT_STATE c ≠ 4 →
        Ends (.dmaCfgWrite src c v) s (if b 30 30 = 1 then begun else begun.dmaFetch c)) ∧
      (on → b 31 31 = 1 → s.GoesOn c (.dmaCfgWrite src c v) late) ∧
      (on → b 31 31 = 0 → s.Aborts c (.dmaCfgWrite src c v) (late.setFld .DMA_CH_CFG_EN c 0))) ∧
    s.Aborts c (.dmaAbort src c) s.cleared ∧
    (on → s.GoesOn c (.dmaSkip src c) (s.cleared.accessLogged src (o 4) true .locked)) ∧
    (¬ on → s.GoesOn c (.dmaSkip src c) (s.cleared.setFld .DMA_CH_HEAD c ((s.fld .DMA_CH_HEAD c + 1) % len)))

namespace Sys2Proof.Machine

/-- The eight words of a FILL to the host, with the reserved bits 0 and the checks of R310 passed, that one posted write carries. -/
def PlainFill (d : List Nat) (dst len : Nat) : Prop :=
  d.length = 8 ∧ (∀ w ∈ d, w < 2 ^ 32) ∧ d.getD 0 0 % 128 / 16 % 4 = 0 ∧ d.getD 0 0 % 16 = 1 ∧ d.getD 0 0 / 1024 % 64 = 0 ∧
  d.getD 0 0 / 128 % 2 = 0 ∧ len = d.getD 1 0 ∧ dst = d.getD 4 0 + 2 ^ 32 * d.getD 5 0 ∧
  0 < len ∧ len % 8 = 0 ∧ dst % 8 = 0 ∧ len ≤ 128 ∧ dst % 4096 + len ≤ 4096

end Sys2Proof.Machine

open Sys2Proof Sys2Proof.Machine in
/-- R304, R306 to R311, R313, R314, R353: the completion of a channel's read, its timeout, and a feed's record. A failed read of a
descriptor stops the channel with HOSTERR, or ABORTED after an abort; a completion that no read awaits, or of the wrong length, is
discarded. A descriptor is checked before its data moves: an invalid one stops the channel with its RESULT, with DONE and its status as
it asks. A FILL posts its pattern and ends: DONE, FENCE, counters and HEAD as the descriptor asks. A record of a feed goes to its result
ring, and the pointer after it; while the ring is full STATE shows it. (Rests on choices of the model: log entry 40.) -/
def Obligations.DmaTransfers : Prop :=
  ∀ (c : Fin 16) (s : State), s.DmaAlone c →
    let x := s.dma c
    let result := match x.fin with | some f => f.1 | none => 5
    let cto := match (s.fn 0).cto with | 1 => 80000 | 2 => 8000000 | 5 => 40000000 | 6 => 150000000 | _ => 10000000
    (∀ tag data, (∀ q ∈ x.open', q.tag ≠ tag.val) → s.GoesOn c (.dmaReadCompletion c tag data) s) ∧
    (x.open' = [] → s.GoesOn c (.completionTimeout c) s) ∧
    (∀ q, x.desc = [] → x.reqs = [q] → q.data = none → ∀ tag : Fin 32, q.tag = tag.val →
      (∀ data : List Byte, data.length ≠ q.len → Ends (.dmaReadCompletion c tag (some data)) s s) ∧
      (s.tnow < q.at' + cto ∨ (s.fn 0).ctoOff = true → Ends (.completionTimeout c) s s) ∧
      Ends (.dmaReadCompletion c tag none) s (s.dmaStopped c result) ∧
      ((s.fn 0).ctoOff = false → q.at' + cto ≤ s.tnow → Ends (.completionTimeout c) s (s.dmaStopped c result)) ∧
      (x.fin ≠ none → ∀ data : List Byte, data.length = q.len →
        Ends (.dmaReadCompletion c tag (some data)) s (s.dmaStopped c result))) ∧
    (∀ (q : DmaReq) (tag : Fin 32) (data : List Byte), x.desc = [] → x.reqs = [q] → q.data = none → x.fin = none → q.kind = .fetch →
      q.tag = tag.val → data.length = q.len → q.len = 32 →
      let d := wordsOf data
      let d0 := d.getD 0 0
      let run := Instr.dmaReadCompletion c tag (some data)
      let plain := d0 / 1024 % 64 = 0 ∧ d.getD 1 0 < 2 ^ 24
      let aligned := d.getD 4 0 % 8 = 0 ∧ d.getD 1 0 % 8 = 0 ∧ d.getD 1 0 ≠ 0
      (∀ r, (r = 7 ∧ (2 < d0 % 16 ∨ (d0 % 16 ≠ 1 ∧ s.fld .DMA_CH_CFG_QUOTA c = 0))) ∨
          (r = 2 ∧ d0 % 32 = 1 ∧ plain ∧ ¬ aligned) ∨
          (r = 3 ∧ d0 % 64 = 33 ∧ plain ∧ aligned ∧ 2 ^ 24 ≤ d.getD 4 0 + 2 ^ 32 * d.getD 5 0) →
        (d0.testBit 7 = false ∨ (s.fn 0).bme = true → Ends run s (s.dmaFails c d0 x.addr r 0))) ∧
      ∀ dst len, PlainFill d dst len → s.dmaOn c = true → s.dmaFeeds c = false → (s.fn 0).bme = true →
        (s.fld .DMA_CH_HEAD c + 1) % 2 ^ s.fld .DMA_CH_SIZE c = s.fld .DMA_CH_TAIL c →
        let t := { s with pcie := { s.pcie with writeTurn := (c + 1) % 16, out := s.pcie.out ++ [PcieOut.write c dst
          ((List.range (len / 4)).map fun k => d.getD (2 + k % 2) 0) (s.flag .DMA_CH_CFG_NOSNOOP c)] } }
        let t := t.setFld .DMA_CH_CNT_BYTES c (min (s.fld .DMA_CH_CNT_BYTES c + len) (2 ^ 32 - 1))
        let t := if d0.testBit 8 then t.publish (8 + c) (d0 / 65536) else t
        let t := if d0.testBit 6 then t.setFld .DMA_CH_EVT_DONE c 1 else t
        Ends run s ((((t.setFld .DMA_CH_HEAD c (s.fld .DMA_CH_TAIL c)).count .DMA_CH_CNT_DESC c).setDma c {}).setFld .DMA_CH_STAT_STATE c 0)) ∧
    let f := s.fld .DMA_CH_CFG_FEED c
    let wr := s.fld .DMA_CH_WR c
    let next := (wr + 1) % 2 ^ s.fld .DMA_CH_RSIZE c
    let feeds := s.dmaOn c = true ∧ s.dmaFeeds c = true
    (feeds → s.dmaStateView c = if next = s.fld .DMA_CH_RD c then 3 else 0) ∧
    (¬ feeds ∨ next = s.fld .DMA_CH_RD c ∨ (s.feed f).records = [] → Ends (.dmaFeedTransfer c) s s) ∧
    (feeds → next ≠ s.fld .DMA_CH_RD c → (s.feed f).records ≠ [] → (s.fn 0).bme = false →
      Ends (.dmaFeedTransfer c) s (s.setFld .DMA_ENG_EVT_BME_OFF 0 1)) ∧
    ∀ w0 w1 w2 w3 rest, feeds → next ≠ s.fld .DMA_CH_RD c → s.feed f = { records := [w0, w1, w2, w3] :: rest } →
      (∀ w ∈ [w0, w1, w2, w3], w < 2 ^ 32) → (s.fn 0).bme = true → EndsIn (.dmaFeedTransfer c) s fun u =>
        u = { s with regs := u.regs, feeds := u.feeds, latched := u.latched, pcie := u.pcie } ∧ u.feed f = { records := rest } ∧
        (∀ g, g ≠ f → u.feed g = s.feed g) ∧ u.fld .DMA_CH_WR c = next ∧
        u.pcie = { s.pcie with out := s.pcie.out ++ [PcieOut.write c (s.fld .DMA_CH_RBASE c * 16 + 16 * wr) [w0, w1, w2, w3]
          (s.flag .DMA_CH_CFG_NOSNOOP c)] ++ (if s.flag .DMA_CH_WRPTR_ADDR_EN c then
            [PcieOut.write c (s.fld .DMA_CH_WRPTR_ADDR c * 8) [next, 0] false] else []) } ∧
        u.fld .DMA_CH_CNT_BYTES c = min (s.fld .DMA_CH_CNT_BYTES c + 16) (2 ^ 32 - 1) ∧
        u.fld .DMA_CH_CNT_DESC c = min (s.fld .DMA_CH_CNT_DESC c + 1) (2 ^ 32 - 1) ∧
        ∀ (g : Fld) (i : Nat), ¬ (i % 1024 = c ∧ g ∈ [.DMA_CH_WR, .DMA_CH_CNT_BYTES, .DMA_CH_CNT_DESC]) → u.fld g i = s.fld g i

/-- The interrupt controller. -/
def Obligations.Interrupts : Prop :=
  Sys2Proof.Machine.InterruptCommandsClaim ∧ Sys2Proof.Machine.NoMessageWaitsClaim

namespace Sys2Proof.Machine

/-! ### The monitor SPI port and the endpoint (R334 to R359) -/

/-- The CRC-8 of R335, bit by bit from the most significant of the 64: polynomial 0x2F, initial value 0xFF. -/
def crcOf (v : Nat) : Nat :=
  (List.range 64).foldl (fun c k =>
    let c' := 2 * c % 256
    if (c.testBit 7) != v.testBit (63 - k) then c' ^^^ 0x2F else c') 0xFF

/-- The frame of a response: STATUS, ADDR, DATA and their CRC (R335, R339). -/
def State.response (s : State) : Nat :=
  let m := s.mspi
  let status := 128 * b2n m.first + 64 * b2n m.ferr + 32 * b2n m.cerr + 16 * b2n m.cmderr + 8 * b2n m.aerr
    + 4 * b2n (decide (s.mode = 5)) + 2 * b2n s.intLow + b2n m.done
  let v := status * 2 ^ 56 + m.addr * 2 ^ 32 + m.data
  v * 256 + crcOf v

/-- The state in which a frame of `bits` bits takes effect: MISO has carried that many bits of the response to the frame before, the first
bit first, and 0 after the 72nd (R334). -/
def State.framed (s : State) (bits : Nat := 72) : State :=
  { s with mspi := { first := false, miso := some (bits, if bits ≤ 72 then s.response / 2 ^ (72 - bits) else s.response * 2 ^ (bits - 72)) } }

/-- A spillway path of 2 to 5 ends every channel without a safe end of its own at once, but for one that completes already (R158, R159). -/
def State.Cut (s u : State) : Prop :=
  ∀ c, c < 96 → s.flag .OUT_POLICY_END c = false → s.flag .OUT_STAT_COMPLETING c = false → u.level c = false

/-- Clearing with a cause, by a spillway path (R161, R178): in force at once, with the hold of the path and every channel without a
safe end of its own inactive. -/
structure State.ClearsBy (s u : State) (cause path : Nat) : Prop where
  mode : u.mode = 5
  cause : u.fld .MODE_STAT_CLEAR_CAUSE = cause
  epoch : u.flag .MODE_STAT_EPOCH_PENDING = false
  hold : u.hold2 = true
  path : u.fld .SPILL_STAT_LAST_PATH = path
  time : u.fld .SPILL_LAST_TNOW = s.tnow
  ends : s.Cut u
  count : u.fld .MODE_CNT_TRANS = min (s.fld .MODE_CNT_TRANS + 1) (2 ^ Fld.width .MODE_CNT_TRANS - 1)

end Sys2Proof.Machine

open Sys2Proof Sys2Proof.Machine in
/-- R334 to R341: a frame's response goes out while the next one comes in. NOP changes nothing else. READ and WRITE act as a 32-bit
access of the map, and their response carries ADDR and DATA, with DONE where the access was carried out; what the rules discard or log is
shown as AERR, also a write that finds nothing but read-only fields. CLEAR enters Clearing
with cause MONITOR. A good frame outside the table is counted and shown as CMDERR; a frame of a wrong length, one that begins early, or
one with a wrong CRC is counted, its cause kept. In Dormant the port answers nothing. A frame on the line is the command that its bits spell.
(Rests on choices of the model: log entry 43.) -/
def Obligations.MonitorFrames : Prop :=
  (∀ s : State, s.Sound →
    let on := s.live = true ∧ s.perStopped = false ∧ s.mode ≠ 0
    let u := s.framed
    let m := u.mspi
    (¬ on → ∀ addr cmd v bits frame early, bits ≠ 72 → ∀ c ∈ [Instr.mspiNop, .mspiRead addr, .mspiWrite addr v, .mspiClear,
        .mspiCmdError cmd addr v, .mspiFrameDiscard bits frame early], Ends c s { s with mspi := { s.mspi with miso := none } }) ∧
    (on →
      Ends .mspiNop s { s with mspi := { m with done := true } } ∧
      (∀ a : BitVec 24,
        let off := a.toNat
        let fails := fun (k : ErrKind) (done : Bool) => Ends (.mspiRead a) s { s.accessLogged .mspi off false k with
          mspi := { m with addr := off, data := 0, done, aerr := true } }
        (off % 4 ≠ 0 → fails .misaligned false) ∧
        (off % 4 = 0 → regAt off = none → memAt off = none → fails .unmapped true) ∧
        (∀ x, off % 4 = 0 → regAt off = none → memAt off = some x → Ends (.mspiRead a) s
          { s with mspi := { m with addr := off, data := s.word off, done := true } }) ∧
        ∀ r i, off % 4 = 0 → regAt off = some ⟨r, i, 0⟩ → r.row.words = 1 → r ∉ ownReads → (∀ f ∈ r.row.fields, f.info.acc ≠ .rc) →
          Ends (.mspiRead a) s { s with mspi := { m with addr := off, data := u.regWord ⟨r, i, 0⟩, done := true } }) ∧
      (∀ (a : BitVec 24) (v : Word), s.dmaIdle = true →
        let off := a.toNat
        let ends := fun (t : State) (aerr done : Bool) => Ends (.mspiWrite a v) s
          { t.passedOn .mspi off v.toNat with mspi := { m with addr := off, data := v.toNat, done, aerr } }
        (off % 4 ≠ 0 → ends (s.accessLogged .mspi off true .misaligned) true false) ∧
        (off % 4 = 0 → s.writeBarred off true = true → ends (s.accessLogged .mspi off true .locked) true false) ∧
        (off % 4 = 0 → s.writeBarred off true = false → regAt off = none → memAt off = none →
          ends (s.accessLogged .mspi off true .unmapped) true false) ∧
        ∀ r i, off % 4 = 0 → s.writeBarred off true = false → regAt off = some ⟨r, i, 0⟩ → r.row.words = 1 → r ∉ ownWrites →
          let has := fun (p : Acc → Bool) => r.row.fields.any fun f => p f.info.acc
          let acts := has fun x => x != .ro && x != .rc && (x != .rwl || s.rwlOpen)
          let refused := s.rwlRefuses r i v.toNat
          ends (s.regWritten .mspi off r i v.toNat) (refused || !acts) (if refused then has (· == .rw) else acts)) ∧
      (2 ≤ s.mode → s.mode ≤ 4 → EndsIn .mspiClear s fun t =>
        s.ClearsBy t 3 2 ∧ t.mspi = { m with data := 0xA55A5AA5, done := true }) ∧
      (s.mode = 1 ∨ (s.mode = 5 ∧ ¬ s.inChange) → Ends .mspiClear s ({ s with mspi := { m with data := 0xA55A5AA5, done := true } }.log 4 0 3
        (s.fld .MODE_STAT_CLEAR_CAUSE * 65536 + s.fld .MODE_STAT_TARGET * 256 + s.fld .MODE_STAT_EPOCH_PENDING * 32
          + s.fld .MODE_STAT_TRANSITION * 16 + s.mode))) ∧
      (∀ (cmd : BitVec 8) (a : BitVec 24) (v : Word),
        let good := (cmd = 0 ∧ a = 0 ∧ v = 0) ∨ (cmd = 1 ∧ v = 0) ∨ cmd = 2 ∨ (cmd = 0xC3 ∧ a = 0 ∧ v = 0xA55A5AA5)
        (¬ good → Ends (.mspiCmdError cmd a v) s
          { s.count .MSPI_CNT_CMD 0 with mspi := { m with addr := a.toNat, cmderr := true } }) ∧
        (good → Ends (.mspiCmdError cmd a v) s u)) ∧
      ∀ (bits : Nat) (frame : BitVec 72),
        let counted := fun (cause : Nat) (x : Mspi) => Ends (.mspiFrameDiscard bits frame false) s
          { (s.count .MSPI_CNT_FRAME 0).setFld .MSPI_STAT_LAST_CAUSE 0 cause with mspi := x }
        let m := (s.framed bits).mspi
        let crc := crcOf (frame.toNat / 256) = frame.toNat % 256
        (bits ≠ 72 → counted 1 { m with ferr := true }) ∧
        (bits = 72 → ¬ crc → counted 2 { m with cerr := true }) ∧
        (bits = 72 → crc → Ends (.mspiFrameDiscard bits frame false) s s) ∧
        Ends (.mspiFrameDiscard bits frame true) s { (s.count .MSPI_CNT_FRAME 0).setFld .MSPI_STAT_LAST_CAUSE 0 1 with
          mspi := { first := s.mspi.first, ferr := true, miso := none } })) ∧
  ∀ (cmd : BitVec 8) (a : BitVec 24) (v : Word),
    let top := cmd.toNat * 2 ^ 56 + a.toNat * 2 ^ 32 + v.toNat
    let sent := BitVec.ofNat 72 (top * 256 + crcOf top)
    frameCommand 72 sent = (if cmd = 0 ∧ a = 0 ∧ v = 0 then .mspiNop else if cmd = 1 ∧ v = 0 then .mspiRead a
      else if cmd = 2 then .mspiWrite a v else if cmd = 0xC3 ∧ a = 0 ∧ v = 0xA55A5AA5 then .mspiClear else .mspiCmdError cmd a v) ∧
    ∀ bits (frame : BitVec 72), bits ≠ 72 ∨ crcOf (frame.toNat / 256) ≠ frame.toNat % 256 →
      frameCommand bits frame = .mspiFrameDiscard bits frame false

namespace Sys2Proof.Machine

/-- R305, R345, R346, R349, R352, R359: the endpoint's events. A conventional reset resets the configuration of every function, drops the
messages that wait and ends the reads of the host, and nothing else; training and PERST# show in PCIE_STAT, and for 20 ms configuration
requests are answered with a retry. CLK_SEP follows SEL, and in automatic mode the reference that the latest deassertion of PERST# found.
Bus Master Enable and the power state of a function change what it may send. A foreign access is counted,
the first one recorded, and a write of it shown in AER, the first one that is not masked with its header.
(Rests on choices of the model: log entries 42 and 40.) -/
def EndpointEventsClaim : Prop :=
  ∀ s : State, s.Sound → s.live = true →
    (∀ cause : ConvReset, (∀ c, c < 16 → (s.dma c).desc = [] ∧ ((s.dma c).reqs = [] → (s.dma c).fin = none) ∧
        ∀ q ∈ (s.dma c).reqs, q.data = none) → EndsIn (.conventionalReset cause) s fun u =>
      u = { s with regs := u.regs, pcie := u.pcie, dmas := u.dmas } ∧ (∀ f, u.fn f = {}) ∧
      u.pcie = { s.pcie with fns := [], due := [], perst := s.pcie.perst || decide (cause = .perst)
                             retry := s.pcie.retry || decide (cause = .perst), writeTurn := u.pcie.writeTurn } ∧
      (∀ f ∈ [.PCIE_STAT_LINK_UP, .PCIE_STAT_SPEED, .PCIE_STAT_WIDTH], u.fld f 0 = 0) ∧
      u.fld .PCIE_EVT_LINK_DOWN = (if s.flag .PCIE_STAT_LINK_UP then 1 else s.fld .PCIE_EVT_LINK_DOWN) ∧
      (s.fld .PCIE_CLK_CFG_SEL = 1 → u.fld .PCIE_STAT_CLK_SEP = 0) ∧ (s.fld .PCIE_CLK_CFG_SEL = 2 → u.fld .PCIE_STAT_CLK_SEP = 1) ∧
      (s.fld .PCIE_CLK_CFG_SEL ∉ [1, 2] → u.fld .PCIE_STAT_CLK_SEP = b2n (!s.pcie.refclk)) ∧
      (∀ c, c < 16 → (s.dma c).reqs ≠ [] → u.dma c = {} ∧ u.fld .DMA_CH_CFG_EN c = 0 ∧ u.fld .DMA_CH_EVT_ERR c = 1 ∧
        u.fld .DMA_CH_STAT_STATE c = 5 ∧ u.fld .DMA_CH_STAT_LAST_RESULT c = (match (s.dma c).fin with | some f => f.1 | none => 5) % 8) ∧
      ∀ f i, f ∉ [.PCIE_STAT_LINK_UP, .PCIE_STAT_SPEED, .PCIE_STAT_WIDTH, .PCIE_STAT_CLK_SEP, .PCIE_EVT_LINK_DOWN, .DMA_CH_CFG_EN,
        .DMA_CH_EVT_ERR, .DMA_CH_STAT_STATE, .DMA_CH_STAT_LAST_RESULT, .DMA_ENG_EVT_BME_OFF] → u.fld f i = s.fld f i) ∧
    (s.pcie.perst = false → Ends .perstDeassert s s) ∧
    (s.pcie.perst = true → ∃ refclk : Bool, let sel := s.fld .PCIE_CLK_CFG_SEL
      Ends .perstDeassert s ({ s with pcie := { s.pcie with perst := false, perstAt := s.tnow, retry := true, refclk } }.setFld
        .PCIE_STAT_CLK_SEP 0 (if sel = 1 then 0 else if sel = 2 then 1 else b2n (!refclk)))) ∧
    (s.pcie.perst = true ∨ s.tnow < s.pcie.perstAt + 20000000 → Ends .configRetryEnd s s) ∧
    (s.pcie.perst = false → s.pcie.perstAt + 20000000 ≤ s.tnow →
      Ends .configRetryEnd s { s with pcie := { s.pcie with retry := false } }) ∧
    (∀ (speed : Fin 3) (width : Fin 2),
      let up := s.pcie.perst = true ∨ s.flag .PCIE_STAT_LINK_UP = true
      (up → Ends (.linkUp speed width) s s) ∧
      (¬ up → Ends (.linkUp speed width) s ((((s.setFld .PCIE_STAT_LINK_UP 0 1).setFld .PCIE_STAT_SPEED 0 (speed + 1)).setFld
        .PCIE_STAT_WIDTH 0 (width + 1)).setFld .PCIE_EVT_LINK_UP 0 1))) ∧
    (s.dmaIdle = true → Ends .busMasterEnableSet s (s.setFn 0 { s.fn 0 with bme := true })) ∧
    (∀ c, c < 16 → s.DmaAlone c → s.dmaOn c = true → s.dmaFeeds c = false → s.dma c = {} →
      Ends .busMasterEnableSet s ((s.setFn 0 { s.fn 0 with bme := true }).dmaFetch c)) ∧
    (∀ (f : Fin 4) (d3 : Bool), s.dmaIdle = true → Ends (.powerStateChange f d3) s (s.setFn f { s.fn f with d3 })) ∧
    ∀ (f : Fin 4) (off : BitVec 24) (wr : Bool), s.power.forced = false →
      let x := s.fn f
      let first := x.aerMask.testBit 20 = false ∧ x.aerStat - (x.aerStat &&& x.aerMask) = 0
      let own := s.reaches f = true ∧ decodes f off.toNat = true
      let t := s.count .PCIE_FOREIGN_CNT 0
      let t := if s.flag .PCIE_EVT_FOREIGN then t else (((t.setFld .PCIE_FOREIGN_ADDR_WRITE 0 (b2n wr)).setFld .PCIE_FOREIGN_ADDR_FUNC 0 f).setFld
        .PCIE_FOREIGN_ADDR_OFFSET 0 off.toNat).setFld .PCIE_EVT_FOREIGN 0 1
      (own → Ends (.pcieForeignAccess f off wr) s s) ∧
      (¬ own → Ends (.pcieForeignAccess f off wr) s
        (if wr then t.setFn f { x with
            aerStat := x.aerStat ||| 2 ^ 20, aerFirst := if first then 20 else x.aerFirst
            aerHdr := if first then s.writeHeader f off.toNat 1 else x.aerHdr }
          else { t with resp := .ur }))

/-- A register's fields that a function reset changes are at their reset values (R8). -/
def State.AtReset (u : State) (rs : List Reg) : Prop :=
  ∀ r ∈ rs, ∀ f ∈ r.row.fields, f.info.keep = false → ∀ i, u.fld f i = f.resetAt i

/-- R299, R318, R354 to R358: a Function Level Reset. It resets the function's configuration, and the blocks of the function alone: at
once those of F0, F2 and F3, with FLR_DONE. That of F1 first spills by path 4, into Clearing with cause FLR_F1, or asks for a handover
where HO_EN and the partner allow it; the blocks are reset once every channel is inactive. A handover that does not come about
in HO_MS falls back to the spill. Memories are kept, but the data memories, which F1's reset clears.
(Rests on choices of the model: log entries 35 and 34.) -/
def FunctionResetsClaim : Prop :=
  ∀ s : State, s.Sound → s.up = true →
    let pending := (s.fld .PCIE_STAT_FLR_PENDING).testBit 1 = true
    let hands := s.pair.token = true ∧ s.pstate = 2 ∧ s.partner = stShadow ∧ s.flag .PCIE_FLR_CFG_HO_EN = true
    let x := fun (f : Fin 4) => Tab.put s.pcie.resetAt f (some s.wsNs)
    let live := [Reg.PWR_STAT, .PWR_VIN, .CLK_STAT, .PCIE_STAT]
    (EndsIn (.flr 0) s fun u => u.fn 0 = {} ∧ (∀ f, f ≠ 0 → u.fn f = s.fn f) ∧ u.mem = s.mem ∧ u.seqs = s.seqs ∧
      u.AtReset (dmaRegs ++ icuRegs.filter (· ≠ .ICU_TGT)) ∧ u.dmas = [] ∧ u.pcie.resetAt = x 0 ∧
      (∀ r ∈ live, ∀ f ∈ r.row.fields, f.info.keep = false → f ≠ .PCIE_STAT_FLR_PENDING → f ≠ .PCIE_STAT_HO_ACTIVE → u.view f 0 = 0) ∧
      (∀ f ∈ [.MSPI_STAT_LAST_CAUSE, .MSPI_CNT_FRAME, .MSPI_CNT_CMD], u.fld f = s.fld f) ∧ (u.fld .PCIE_EVT_FLR_DONE).testBit 0 = true ∧
      (u.fld .PCIE_STAT_FLR_PENDING).testBit 0 = false ∧
      ∀ k, k < 384 → (s.fld .ICU_TGT_TYPE k ≤ 5 → u.fld .ICU_TGT_TYPE k = 0) ∧
        (5 < s.fld .ICU_TGT_TYPE k → u.fld .ICU_TGT_TYPE k = s.fld .ICU_TGT_TYPE k)) ∧
    (EndsIn (.flr 2) s fun u => u.fn 2 = {} ∧ (∀ f, f ≠ 2 → u.fn f = s.fn f) ∧ u.mem = s.mem ∧ u.seqs = s.seqs ∧ u.doms = s.doms ∧
      u.AtReset (adcRegs ++ basRegs) ∧ u.basins = [] ∧ u.adcs = [] ∧ u.feeds = [] ∧ (u.fld .PCIE_EVT_FLR_DONE).testBit 2 = true ∧
      (u.fld .PCIE_STAT_FLR_PENDING).testBit 2 = false) ∧
    (EndsIn (.flr 3) s fun u => u.fn 3 = {} ∧ (∀ f, f ≠ 3 → u.fn f = s.fn f) ∧ u.mem = s.mem ∧ u.seqs = s.seqs ∧ u.doms = s.doms ∧
      u.AtReset (pwmRegs.filter (· ≠ .TRIP_STAT) ++ ioeRegs.filter (· ≠ .GIO_IN)) ∧ (s.flag .DBG_STAT_HALTED = false → u.pwms = []) ∧ u.gio = [] ∧
      (∀ e, e < 16 → u.ioe e = {}) ∧ u.pcie.resetAt = x 3 ∧ u.view .GIO_IN_LEVEL 0 = 0 ∧ (u.fld .PCIE_EVT_FLR_DONE).testBit 3 = true ∧ (u.fld .PCIE_STAT_FLR_PENDING).testBit 3 = false) ∧
    (pending → Ends (.flr 1) s { s.setFn 1 {} with
      pcie := { (s.setFn 1 {}).pcie with due := s.pcie.due.filter (·.f ≠ 1), resetAt := x 1 } }) ∧
    (¬ pending → ¬ hands → EndsIn (.flr 1) s fun u => u.fn 1 = {} ∧ (u.fld .PCIE_STAT_FLR_PENDING).testBit 1 = true ∧
      u.pcie.f1At = some s.tnow ∧ u.pcie.hoAt = none ∧
      (∀ a, (∀ n, n < 24 → ¬ (dmemAddr n 0 ≤ a ∧ a < dmemAddr n 1024)) → u.byte a = s.byte a) ∧
      s.Cut u ∧ (2 ≤ s.mode → s.mode ≤ 4 → u.mode = 5 ∧
        u.fld .MODE_STAT_CLEAR_CAUSE = 6)) ∧
    (¬ pending → hands → EndsIn (.flr 1) s fun u => u.fn 1 = {} ∧ (u.fld .PCIE_STAT_FLR_PENDING).testBit 1 = true ∧
      u.pcie.hoAt = some s.tnow ∧ u.flag .PCIE_STAT_HO_ACTIVE = true ∧ u.seqs = s.seqs ∧ u.mem = s.mem ∧ u.mode = s.mode) ∧
    (¬ pending ∨ (s.pcie.hoAt = none ∧ s.activeCount ≠ 0) ∨ (s.pcie.hoAt ≠ none ∧ s.pair.token = true) → Ends .f1BlockReset s s) ∧
    (pending → s.pcie.hoAt = none → s.activeCount = 0 → EndsIn .f1BlockReset s fun u =>
      u.AtReset ((adRegs ++ wfeRegs ++ outRegs).filter fun r =>
        r ∉ [.AD_SYNC_STAT, .AD_FAULT, .AD_EST_FAULT, .AD_TCL_STAT, .SPILL_STAT, .SPILL_LAST, .SPILL_CNT]) ∧
      ((∀ c, s.change = some c → c.epoch = none) → u.AtReset [.SPILL_STAT, .SPILL_LAST, .SPILL_CNT]) ∧
      u.doms = [] ∧ (∀ c, (u.chan c).cap = none ∧ (u.chan c).lastAt = (s.chan c).lastAt) ∧ u.svcs = [] ∧
      (∀ n, n < 24 → (u.seq n).state = .idle ∧ (u.seq n).slots = [] ∧ ∀ k, u.x n k = 0) ∧
      (∀ n w, n < 24 → w < 1023 → u.word (dmemAddr n w) = 0) ∧ (∀ a, (∀ n, n < 24 → ¬ (dmemAddr n 0 ≤ a ∧ a < dmemAddr n 1024)) →
        u.byte a = s.byte a) ∧ (u.fld .PCIE_EVT_FLR_DONE).testBit 1 = true ∧ (u.fld .PCIE_STAT_FLR_PENDING).testBit 1 = false ∧
      u.pcie.f1At = none) ∧
    (pending → s.pcie.hoAt ≠ none → s.pair.token = false → EndsIn .f1BlockReset s fun u => u.pcie.hoAt = none ∧
      u.flag .PCIE_STAT_HO_ACTIVE = false ∧ (s.isSolo = false → u.pstate = 6) ∧ s.Cut u) ∧
    let due := s.pair.token = true ∧ ∃ t, s.pcie.hoAt = some t ∧ t + min 90 (max 1 (s.fld .PCIE_FLR_CFG_HO_MS)) * 1000000 ≤ s.tnow
    (¬ due → Ends .flrHandoverFallback s s) ∧
    (due → EndsIn .flrHandoverFallback s fun u => u.fld .PCIE_EVT_HO_FALLBACK = 1 ∧ u.pcie.hoAt = none ∧
      u.flag .PCIE_STAT_HO_ACTIVE = false ∧ s.Cut u ∧
      (2 ≤ s.mode → s.mode ≤ 4 → u.mode = 5 ∧ u.fld .MODE_STAT_CLEAR_CAUSE = 6))

end Sys2Proof.Machine

/-- The endpoint of PCIe, and the resets of its functions. -/
def Obligations.EndpointAndResets : Prop :=
  Sys2Proof.Machine.EndpointEventsClaim ∧ Sys2Proof.Machine.FunctionResetsClaim

namespace Sys2Proof.Machine

/-! ### The redundant pair (R363 to R391) -/

/-- The state `t` with every line driver decided as it now says (R166): only its channels' decisions change. -/
def State.Drives (t u : State) : Prop :=
  u = { t with chans := u.chans } ∧ ∀ c, c < 96 →
    (u.chan c).drive = u.wantsDriver c ∧ (u.chan c).lastAt = (t.chan c).lastAt ∧ (u.chan c).cap = (t.chan c).cap

/-- Command `c` leaves `t`, with the line drivers decided anew. -/
def EndsDriven (c : Instr) (s t : State) : Prop := EndsIn c s t.Drives

/-- The module takes the LEAD token with a cause (R365, R382): the change is recorded and logged, and it is in LEAD, but for a SOLO
module, which keeps its state. -/
def State.tookToken (s : State) (cause : Nat) : State :=
  let t := (((s.setFld .PAIR_TAKE_TOOK 0 1).setFld .PAIR_TAKE_CAUSE 0 cause).setFld .PAIR_TAKE_TIME_TNOW 0 s.tnow).setFld .PAIR_STAT_ROLE 0 1
  let t := if s.isSolo then t else t.setFld .PAIR_STAT_STATE 0 2
  { t.log 9 0 cause (2 ^ 31) with pair := { s.pair with
    token := true, leadPin := s.den.on, sentAccept := false, joinOpen := false, joinStarted := false, aim := none, aimSent := none
    ho := none } }

/-- The module of a pair gives the token up, with LEAD deasserted, into a pair state. -/
def State.gaveToken (s : State) (cause st : Nat) : State :=
  let t := (((s.setFld .PAIR_TAKE_TOOK 0 0).setFld .PAIR_TAKE_CAUSE 0 cause).setFld .PAIR_TAKE_TIME_TNOW 0 s.tnow).setFld .PAIR_STAT_ROLE 0 0
  { (t.setFld .PAIR_STAT_STATE 0 st).log 9 0 cause 0 with pair := { s.pair with token := false, leadPin := false } }

/-- A bit of PAIR_EVT set (R390). -/
def State.event (s : State) (b : Nat) : State := s.setFld .PAIR_EVT 0 (s.fld .PAIR_EVT ||| 2 ^ b)

/-- A handover that is in progress fails: HO_FAIL, and an ABORT to the partner (R386). -/
def State.hoFails (s : State) : State :=
  if s.pair.ho = none then s else ({ s with pair := { s.pair with ho := none } }.event 3).sendReliable fun q => .token q 4

/-- The module has entered JOINING (R388): every sequencer reset, Standby in force unless it was in Dormant, JOIN REQ sent. -/
def State.Joining (s u : State) : Prop :=
  u.fld .PAIR_STAT_STATE = 3 ∧ u.pair.joinOpen = true ∧ u.pair.joinStarted = false ∧ u.pair.aim = none ∧ u.pair.aimSent = none ∧
  (2 ≤ s.mode → s.mode ≤ 5 → u.mode = 1) ∧ (∀ n, n < 24 → (u.seq n).state = .idle) ∧
  ∃ f, u.pair.sent = s.pair.sent ++ f ∧ (s.pair.unacked.length < 32 → s.pair.ho = none → f = [.join s.pair.txSeq 1 0 0])

/-- A path 6 or 7 (R161, R384, R387): every channel is inactive, whatever its policy; Clearing follows where its mode allows; the token
goes, but a SOLO module only deasserts LEAD. -/
def State.PathEnds (s u : State) (path cause : Nat) : Prop :=
  (∀ c, c < 96 → u.level c = false) ∧ u.hold2 = true ∧ u.pair.ho = none ∧ u.pair.leadPin = false ∧
  (2 ≤ s.mode → s.mode ≤ 4 → u.mode = 5 ∧ u.fld .MODE_STAT_CLEAR_CAUSE = cause) ∧
  (s.isSolo = true → u.pair.token = s.pair.token) ∧
  (s.isSolo = false → s.pair.token = true → u.pair.token = false ∧ u.pair.released = true ∧ u.fld .PAIR_STAT_STATE = 6 ∧
    u.fld .PAIR_STAT_ROLE = 0 ∧ (u.fld .PAIR_EVT).testBit 1 = true ∧ u.fld .PAIR_TAKE_CAUSE = (if path = 7 then 9 else 8))

/-- DEN stopped at the level of its last edge, its half-periods of 500 ns counted from its start (R370, R373). -/
def State.denEnded (s : State) : Den :=
  let x := s.den
  if x.on then
    let since := (s.wsNs - x.startWs) % 500
    { x with on := false, level := if (s.wsNs - x.startWs) / 500 % 2 = 1 then !x.level else x.level
             edgeAt := s.tnow - since, edgeWs := s.wsNs - since }
  else x

end Sys2Proof.Machine

open Sys2Proof Sys2Proof.Machine in
/-- R161, R365, R368 to R373, R387, R442: start, conflict, DEN and PRESENT. A module in START joins a partner that leads, waits in
ISOLATED while the link is down, and else leads after 20 ms or 40 ms by its slot. Of two that hold the token, the odd slot gives way. A
refresh finds the conditions of R371 or names the first that fails; the first accepted one starts DEN, as does the first after a
failure of the wellspring's oscillator that finds it back. DEN that stops for 1.5 µs is
path 7, a PRESENT that breaks path 6, and 2 µs after DEN's end LEAD is forced off. (Rests on choices of the model: log entries 21 and 44.) -/
def Obligations.PairDrive : Prop :=
  ∀ s : State, s.Sound →
    (∀ lead den : Bool, s.live = true →
      let t := (s.setFld .PAIR_STAT_PEER_LEAD 0 (b2n lead)).setFld .PAIR_STAT_PEER_DEN_OK 0 (b2n den)
      let start := s.isSolo = false ∧ s.fld .PAIR_STAT_STATE = 1
      let both := lead = true ∧ den = true
      let ms := if s.fld .PAIR_STAT_SLOT % 2 = 0 then 20 else 40
      let due := s.power.released + ms * 1000000 ≤ s.wsNs
      (¬ start → Ends (.pairStartDecide lead den) s t) ∧
      (start → both → s.linkUp = false → Ends (.pairStartDecide lead den) s (t.setFld .PAIR_STAT_STATE 0 6)) ∧
      (start → both → s.linkUp = true → EndsIn (.pairStartDecide lead den) s fun u => s.Joining u) ∧
      (start → ¬ both → ¬ due → Ends (.pairStartDecide lead den) s t) ∧
      (start → ¬ both → due → EndsDriven (.pairStartDecide lead den) s (t.tookToken 6))) ∧
    (s.live = true →
      let t := (s.setFld .PAIR_STAT_PEER_LEAD 0 1).setFld .PAIR_STAT_PEER_DEN_OK 0 1
      let gives := s.pair.token = true ∧ s.isSolo = false ∧ s.fld .PAIR_STAT_SLOT % 2 = 1
      (¬ gives → Ends .leadConflict s t) ∧ (gives → EndsDriven .leadConflict s ((t.hoFails.gaveToken 12 6).event 1))) ∧
    (s.live = true → s.perStopped = false →
      let x := s.den
      let fails := fun (k : Nat) => match k with
        | 1 => s.power.forced = true ∨ s.wsNs ≤ s.power.released
        | 2 => s.wsNs < s.power.released + 10000 ∨ (x.refreshAt.isSome = true ∧ x.withheld = false ∧ s.tnow < x.refreshTnow + 9000)
        | 3 => s.mode = 0 ∨ s.power.entering.isSome = true
        | 4 => s.flag .PAIR_CFG_DEN_HOLD = true
        | 5 => ∃ k, k < 384 ∧ s.fld .ICU_TGT_TYPE k = 7 ∧ s.fld .ICU_TGT_PRI k = 3 ∧ s.source k = true
        | _ => False
      let all := ∀ k, ¬ fails k
      let back := s.power.oscBad = false ∨ Config.oscBack s.wsNs = true
      let den := { x with on := true, seen := true, silent := false, withheld := false, refreshAt := some s.wsNs, refreshTnow := s.tnow
                          level := if x.on then x.level else !x.level, startWs := if x.on then x.startWs else s.wsNs }
      let ok := x.seen = true ∧ x.silent = false
      let t := { s.count .RMGR_CNT_REFRESH_CNT 0 with den, power := { s.power with oscBad := false } }
      let joins := s.isSolo = false ∧ s.fld .PAIR_STAT_STATE = 6 ∧ s.linkUp = true ∧ s.pair.joinWait = false
      (∀ k, fails k → (∀ j, j < k → ¬ fails j) → Ends .rmgrRefresh s
        { s.setFld .RMGR_STAT_HEALTH 0 k with den := { x with withheld := x.withheld || decide (4 ≤ k) } }) ∧
      (all → ¬ back → Ends .rmgrRefresh s s) ∧
      (all → back → s.isSolo = true → s.pair.token = false → EndsDriven .rmgrRefresh s (t.tookToken 6)) ∧
      (all → back → s.isSolo = false ∨ s.pair.token = true → ¬ joins →
        let u := { t with pair := { s.pair with leadPin := s.pair.token && s.flag .PAIR_STAT_PRESENT || s.pair.leadPin } }
        (ok → Ends .rmgrRefresh s u) ∧ (¬ ok → EndsDriven .rmgrRefresh s u)) ∧
      (all → back → joins → EndsIn .rmgrRefresh s fun u => u.den = den ∧ s.Joining u)) ∧
    (let due := s.den.on = true ∧ ∃ t, s.den.refreshAt = some t ∧ t + 15000 ≤ s.wsNs;
      (¬ due → Ends .denStop s s) ∧
      (due → Ends .denStop s { s with den := s.denEnded })) ∧
    (s.live = true →
      let due := s.den.seen = true ∧ s.den.on = false ∧ s.den.silent = false ∧ s.power.forced = false ∧ s.den.edgeAt + 1500 ≤ s.tnow
      (¬ due → Ends .denSilence s s) ∧
      (due → EndsIn .denSilence s fun u => u.den = { s.den with silent := true } ∧ s.PathEnds u 7 8)) ∧
    (let due := s.den.seen = true ∧ s.den.on = false ∧ s.den.edgeWs + 2000 ≤ s.wsNs;
      (¬ due → Ends .leadForceOff s s) ∧ (due → Ends .leadForceOff s { s with pair := { s.pair with leadPin := false } })) ∧
    (s.live = false → Ends .presentMake s (s.setFld .PAIR_STAT_PRESENT 0 1) ∧ Ends .presentBreak s (s.setFld .PAIR_STAT_PRESENT 0 0)) ∧
    (s.live = true →
      let seen := s.flag .PAIR_STAT_PRESENT = true ∧ s.pair.presentSeen = true
      EndsDriven .presentMake s { s.setFld .PAIR_STAT_PRESENT 0 1 with
        pair := { s.pair with presentSeen := true, leadPin := s.pair.leadPin || (s.pair.token && s.den.on) } } ∧
      (¬ seen → Ends .presentBreak s (s.setFld .PAIR_STAT_PRESENT 0 0)) ∧
      (seen → EndsIn .presentBreak s fun u => u.flag .PAIR_STAT_PRESENT = false ∧ s.PathEnds u 6 10))

namespace Sys2Proof.Machine

/-- A heartbeat of the module (R377): token, RELEASED and its DEN, the last reliable frame received, mode and sync states. -/
def State.beat (s : State) (released : Bool) : Frame :=
  .heartbeat (b2n s.pair.token + 2 * b2n (released || s.pair.released) + 4 * b2n (s.den.seen && !s.den.silent)) ((s.pair.rxSeq + 65535) % 65536)
    (s.mode + 8 * s.fld .MODE_STAT_TRANSITION + 16 * s.fld .AD_SYNC_STAT_STATE 0 + 64 * s.fld .AD_SYNC_STAT_STATE 1 +
      256 * s.fld .AD_SYNC_STAT_STATE 2 + 1024 * s.fld .AD_SYNC_STAT_STATE 3 + 4096 * s.pstate)

/-- The frames of a link whose SEQ the module has taken. -/
def State.seqTaken (s : State) : State := { s with pair := { s.pair with rxSeq := (s.pair.rxSeq + 1) % 65536 } }

end Sys2Proof.Machine

open Sys2Proof Sys2Proof.Machine in
/-- R374, R375, R377, R378, R390, R391: a heartbeat every 1 µs. A valid one brings the partner's state and, as the sixteenth in a row, the
link; the frames it acknowledges are freed. 2.5 µs without one are counted, and 10 µs bring the link down: sequence numbers start
again, and a Follow is ISOLATED. Unacknowledged frames are sent again after 20 µs; a frame with a wrong CRC is discarded and counted.
(Rests on choices of the model: log entry 44.) -/
def Obligations.LinkCourse : Prop :=
  ∀ s : State, s.Sound → s.up = true →
    let p := s.pair
    (p.hbSentAt + 900 ≤ s.tnow → Ends .heartbeatSend s { s with pair := { p with sent := p.sent ++ [s.beat false], hbSentAt := s.tnow } }) ∧
    (s.tnow < p.hbSentAt + 900 → Ends .heartbeatSend s s) ∧
    (∀ (flags : BitVec 8) (ack state : BitVec 16), EndsIn (.heartbeat flags ack state) s fun u =>
      let row := if ∃ t, p.hbAt = some t ∧ s.tnow < t + 10000 then p.hbRun + 1 else 1
      u.pair.hbAt = some s.tnow ∧ u.pair.hbRun = min 16 row ∧ u.pair.peerFlags = flags.toNat ∧ u.pair.peerState = state.toNat ∧
      u.fld .PAIR_STAT_PARTNER_STATE = state.toNat / 4096 % 8 ∧ u.linkUp = (s.linkUp || decide (16 ≤ row)) ∧ u.mem = s.mem) ∧
    (∀ (flags : BitVec 8) (ack state : BitVec 16), p.ho = none → s.isSolo = true ∨ s.fld .PAIR_STAT_STATE ∉ [3, 6] →
      EndsIn (.heartbeat flags ack state) s fun u =>
        let row := if ∃ t, p.hbAt = some t ∧ s.tnow < t + 10000 then p.hbRun + 1 else 1
        let peer := state.toNat / 4096 % 8
        let gains := s.linkUp = false ∧ 16 ≤ row
        let n := (ack.toNat + 1 + 65536 * (p.unacked.length / 65536 + 1) + p.unacked.length - p.txSeq) % 65536
        u = { s with regs := u.regs, pair := u.pair } ∧ u.pair.hbAt = some s.tnow ∧ u.pair.hbRun = min 16 row ∧
        u.pair.peerFlags = flags.toNat ∧ u.pair.peerState = state.toNat ∧ u.fld .PAIR_STAT_PARTNER_STATE = peer ∧
        u.linkUp = (s.linkUp || decide (16 ≤ row)) ∧
        (u.fld .PAIR_EVT).testBit 4 = ((s.fld .PAIR_EVT).testBit 4 || decide gains) ∧
        (u.fld .PAIR_EVT).testBit 6 = ((s.fld .PAIR_EVT).testBit 6 || (decide (s.partner = 5) != decide (peer = 5))) ∧
        (p.txSeq < 65536 → p.unacked.length ≤ 65536 → 1 ≤ n → n ≤ min 32 p.unacked.length → u.pair.unacked = p.unacked.drop n ∧
          u.pair.ackAt = s.tnow) ∧
        (p.txSeq < 65536 → p.unacked.length ≤ 65536 → n = 0 ∨ min 32 p.unacked.length < n → u.pair.unacked = p.unacked)) ∧
    (let due := s.isSolo = false ∧ max (p.hbAt.getD 0) p.hbMissAt + 2500 ≤ s.tnow;
      (¬ due → Ends .heartbeatMiss s s) ∧
      (due → Ends .heartbeatMiss s { s.count .PAIR_CNT_HB_MISS 0 with pair := { p with hbMissAt := s.tnow } })) ∧
    Ends .linkFrameDiscard s { s.count .PAIR_CNT_LINK_CRC 0 with pair := { p with hbRun := if s.linkUp then p.hbRun else 0 } } ∧
    (s.tnow < p.hbAt.getD 0 + 10000 → Ends .linkDown s s) ∧
    (p.hbAt.getD 0 + 10000 ≤ s.tnow → EndsIn .linkDown s fun u =>
      u = { s with regs := u.regs, pair := u.pair } ∧ u.fld .PAIR_STAT_PARTNER_STATE = 7 ∧ u.linkUp = false ∧
      (s.linkUp = false → u.pair = p) ∧
      (s.linkUp = true → u.pair.unacked = [] ∧ u.pair.txSeq = 0 ∧ u.pair.rxSeq = 0 ∧ u.pair.hbRun = 0 ∧ u.pair.ho = none ∧
        u.pair.joinOpen = (p.joinOpen && decide (s.pstate ∉ [3, 4, 5])) ∧ (u.fld .PAIR_EVT).testBit 4 = true ∧
        u.fld .PAIR_STAT_STATE = if s.pstate ∈ [3, 4, 5] then 6 else s.fld .PAIR_STAT_STATE)) ∧
    let late := s.linkUp = true ∧ p.unacked ≠ [] ∧ p.ackAt + 20000 ≤ s.tnow
    (¬ late → Ends .linkRetry s s) ∧
    (late → Ends .linkRetry s { s.setFld .PAIR_CNT_RETRY 0 (min (2 ^ Fld.width .PAIR_CNT_RETRY - 1) (s.fld .PAIR_CNT_RETRY + min 32 p.unacked.length)) with
      pair := { p with sent := p.sent ++ p.unacked.take 32, ackAt := s.tnow } })

namespace Sys2Proof.Machine

/-- R376, R378: a reliable frame with another SEQ than the next, or without a link, has no effect; the next one is taken. -/
def ReliableClaim : Prop :=
  ∀ (q : BitVec 16) (s : State), s.Sound → s.live = true → s.linkUp = false ∨ q.toNat ≠ s.pair.rxSeq →
    ∀ (tgt : Fin 6) (cause : BitVec 8) (d : Fin 4) (imm : Bool) (angle v : Word) (len : Nat) (crc : BitVec 32) (off : BitVec 24)
      (data : List Byte) (be : BitVec 4), ∀ c ∈ [Instr.modeFrame q tgt cause d imm angle, .tokenOffer q, .tokenAccept q, .tokenRefuse q,
        .tokenAbort q, .tokenReleased q, .joinReq q, .joinStart q, .joinEnd q len crc, .joinAbortFrame q, .bulk q off data,
        .writeFrame q cause be off v], Ends c s s

/-- R367, R378, R386: a reliable frame of the module takes the next SEQ and waits for its ACK; the thirty-third waits to be sent.
The frames of a handover, the release of a token among them, which only tells. (Rests on choices of the model: log entry 44.) -/
def TokenFramesClaim : Prop :=
  ∀ (q : BitVec 16) (s : State), s.Sound → s.up = true → s.linkUp = true → q.toNat = s.pair.rxSeq →
    let t := s.seqTaken
    let p := t.pair
    (∀ mk : Nat → Frame, s.sendReliable mk = { s with pair := { s.pair with
      sent := s.pair.sent ++ if s.pair.unacked.length < 32 then [mk s.pair.txSeq] else []
      txSeq := (s.pair.txSeq + 1) % 65536, unacked := s.pair.unacked ++ [mk s.pair.txSeq]
      ackAt := if s.pair.unacked = [] then s.tnow else s.pair.ackAt } }) ∧
    (s.pstate = 5 → Ends (.tokenOffer q) s ({ t with pair := { p with sentAccept := true } }.sendReliable fun q => .token q 2)) ∧
    (s.pstate ≠ 5 → Ends (.tokenOffer q) s (t.sendReliable fun q => .token q 3)) ∧
    (p.ho = none → Ends (.tokenAccept q) s t ∧ Ends (.tokenRefuse q) s t) ∧
    (∀ h, p.ho = some h →
      Ends (.tokenAccept q) s { t with pair := { p with ho := some { acceptedAt := some (h.acceptedAt.getD s.tnow) } } } ∧
      Ends (.tokenRefuse q) s ({ t with pair := { p with ho := none } }.event 3)) ∧
    Ends (.tokenAbort q) s { t with pair := { p with sentAccept := false } } ∧ Ends (.tokenReleased q) s t

/-- A join that ends without SHADOW (R389). -/
def State.joinEnded (s : State) : State :=
  { (if s.isSolo then s else s.setFld .PAIR_STAT_STATE 0 6).event 7 with
    pair := { s.pair with joinOpen := false, joinStarted := false, joinWait := true, aim := none, aimSent := none } }

/-- R193, R366, R367, R388, R389: the frames of a join, of modes and of forwarded writes. A Lead with JOIN_EN answers a request with the
whole join set between START and END. In JOINING the set is stored as it comes, its bytes counted and its CRC formed; an END that
does not agree ends the join. A Follow takes the Lead's transitions and its forwarded writes.
(Rests on choices of the model: log entries 45 and 44.) -/
def JoinFramesClaim : Prop :=
  ∀ (q : BitVec 16) (s : State), s.Sound → s.up = true → s.linkUp = true → q.toNat = s.pair.rxSeq →
    let t := s.seqTaken
    let p := t.pair
    let joining := s.pstate = 3
    let answers := s.pstate = 2 ∧ s.flag .PAIR_CFG_JOIN_EN = true
    (¬ answers → Ends (.joinReq q) s t) ∧
    (answers → EndsIn (.joinReq q) s fun u => u = { t with regs := u.regs, pair := u.pair } ∧ ∃ l len crc,
      u.pair.unacked = p.unacked ++ [.join p.txSeq 2 0 0] ++ l ++ [.join ((u.pair.txSeq + 65535) % 65536) 3 len crc] ∧
      u.fld .PAIR_JOIN_KIB = len / 1024 % 2 ^ Fld.width .PAIR_JOIN_KIB) ∧
    (joining → Ends (.joinStart q) s { t.setFld .PAIR_JOIN_KIB 0 0 with
      pair := { p with joinStarted := true, joinLen := 0, joinCrc := 0xFFFFFFFF, joinRun := [] } }) ∧
    (¬ joining → Ends (.joinStart q) s t) ∧
    (∀ (len : Nat) (crc : BitVec 32),
      let fits := len = p.joinLen ∧ crc.toNat = p.joinCrc ^^^ 0xFFFFFFFF
      let runs := joining ∧ p.joinStarted = true
      (¬ runs → Ends (.joinEnd q len crc) s t) ∧ (runs → ¬ fits → Ends (.joinEnd q len crc) s t.joinEnded) ∧
      let goal := p.aimSent.getD (p.peerState % 8)
      (runs → fits → s.mode = 1 → EndsIn (.joinEnd q len crc) s fun u => u.pair.joinStarted = false ∧
        (goal = 1 → u.mode = 1 ∧ u.fld .PAIR_STAT_STATE = 4) ∧
        (2 ≤ goal → u.mode = 2 ∧ u.fld .PAIR_STAT_STATE = 3 ∧ u.pair.aim = some goal))) ∧
    (p.joinOpen = true → Ends (.joinAbortFrame q) s t.joinEnded) ∧ (p.joinOpen = false → Ends (.joinAbortFrame q) s t) ∧
    (∀ (off : BitVec 24) (data : List Byte),
      (¬ (joining ∧ p.joinStarted = true) → Ends (.bulk q off data) s t) ∧
      (joining → p.joinStarted = true → off.toNat % 4 = 0 → data.length % 4 = 0 → 0x500000 ≤ off.toNat →
        off.toNat + data.length ≤ 0x518000 → EndsIn (.bulk q off data) s fun u =>
          u = { t with regs := u.regs, pair := u.pair, mem := u.mem, dataIn := u.dataIn } ∧
          u.pair = { p with joinLen := p.joinLen + data.length, joinCrc := data.foldl (fun c b => crc32Byte c b.toNat) p.joinCrc } ∧
          (∀ j, j < data.length → u.byte (off.toNat + j) = data.getD j 0) ∧
          ∀ a, a < off.toNat ∨ off.toNat + data.length ≤ a → u.byte a = s.byte a)) ∧
    (∀ (src : BitVec 8) (be : BitVec 4) (off : BitVec 24) (v : Word), s.dmaIdle = true →
      let follows := s.pstate ∈ [3, 4, 5]
      (¬ follows → Ends (.writeFrame q src be off v) s t) ∧
      (follows → off = 0x300 → Ends (.writeFrame q src be off v) s (t.setFld .FENCE_DONE src.toNat (v.toNat % 65536))) ∧
      (follows → be = 15 → off.toNat % 4 = 0 → 0x500000 ≤ off.toNat → off.toNat < 0x518000 → EndsIn (.writeFrame q src be off v) s fun u =>
        u = { t with mem := u.mem, dataIn := u.dataIn } ∧ u.word off.toNat = v.toNat ∧ ∀ a, a < off.toNat ∨ off.toNat + 4 ≤ a → u.byte a = s.byte a)) ∧
    ∀ (tgt : Fin 6) (cause : BitVec 8) (d : Fin 4) (imm : Bool) (angle : Word),
      let c := Instr.modeFrame q tgt cause d imm angle
      (s.pstate ∉ [3, 4, 5] → Ends c s t) ∧
      (joining → p.aim = none → Ends c s { t with pair := { p with aimSent := some tgt.val } }) ∧
      (joining → p.aim ≠ none → 2 ≤ tgt.val → s.mode = 2 →
        Ends c s { t with pair := { p with aimSent := some tgt.val, aim := some tgt.val } }) ∧
      (joining → p.aim ≠ none → 2 ≤ tgt.val → s.mode = 1 → EndsIn c s fun u => u.mode = 2 ∧ u.pair.aim = some tgt.val) ∧
      (joining → p.aim ≠ none → tgt.val = 1 → s.mode ≠ 0 → EndsIn c s fun u => u.mode = 1 ∧ u.fld .PAIR_STAT_STATE = 4) ∧
      (s.pstate ∈ [4, 5] → tgt.val = 0 → EndsIn c s fun u => s.Accepted u 0 true ∧ u.auxOff = true ∧ u.power.entering = some s.wsNs) ∧
      (s.pstate ∈ [4, 5] → tgt.val ∈ [2, 3, 4] → imm = true → EndsIn c s fun u => s.Accepted u tgt.val false) ∧
      (s.pstate ∈ [4, 5] → tgt.val ∈ [1, 5] → imm = true → EndsIn c s fun u =>
        u.mode = tgt.val ∧ (s.mode ≠ 5 → tgt.val = 5 → s.Cut u ∧ u.hold2 = true)) ∧
      (s.pstate ∈ [4, 5] → tgt.val ≠ 0 → imm = false → s.angleValid d = true → EndsIn c s fun u => s.Accepted u tgt.val true ∧
        ∃ x, u.change = some x ∧ x.target = tgt.val ∧ x.epoch = some (d.val, angle.toNat, s.angle d))

/-- R375 to R377, R379: the bytes of a frame are the command that it is; one whose CRC differs, or of another length or TYPE, is discarded.
(Rests on choices of the model: log entry 56.) -/
def FrameBytesClaim : Prop :=
  (∀ (flags : BitVec 8) (ack state : BitVec 16),
    linkCommand (Frame.heartbeat flags.toNat ack.toNat state.toNat).bytes = .heartbeat flags ack state) ∧
  (∀ bytes : List Byte, bytes.length = 32 → linkCommand (Frame.digest (bytes.map (·.toNat))).bytes = .digest bytes) ∧
  (∀ (q : BitVec 16),
    let n := q.toNat
    (∀ (tgt : Fin 6) (cause : BitVec 8) (d : Fin 4) (imm : Bool) (angle : Word),
      linkCommand (Frame.mode n tgt cause.toNat d (b2n imm) angle.toNat).bytes = .modeFrame q tgt cause d imm angle) ∧
    (∀ p ∈ [(1, Instr.tokenOffer q), (2, .tokenAccept q), (3, .tokenRefuse q), (4, .tokenAbort q), (5, .tokenReleased q)],
      linkCommand (Frame.token n p.1).bytes = p.2) ∧
    (∀ p ∈ [(1, Instr.joinReq q), (2, .joinStart q), (4, .joinAbortFrame q)], linkCommand (Frame.join n p.1 0 0).bytes = p.2) ∧
    (∀ (len : Nat) (crc : BitVec 32), len < 2 ^ 32 → linkCommand (Frame.join n 3 len crc.toNat).bytes = .joinEnd q len crc) ∧
    (∀ (off : BitVec 24) (data : List Byte), data.length ∈ (List.range 28).map (8 * ·) → data ≠ [] →
      linkCommand (Frame.bulk n off.toNat (data.map (·.toNat))).bytes = .bulk q off data) ∧
    ∀ (src : BitVec 8) (be : BitVec 4) (off : BitVec 24) (v : Word),
      linkCommand (Frame.write n src.toNat be.toNat off.toNat v.toNat).bytes = .writeFrame q src be off v) ∧
  (∀ body crc : List Nat, body.head? ≠ some 1 → crc.length = 4 → crc ≠ bytesBE 4 (crc32 body) →
    linkCommand (body ++ crc) = .linkFrameDiscard) ∧
  (∀ body crc : List Nat, body.head? = some 1 → crc.length = 2 → crc ≠ bytesBE 2 (crc16 body) →
    linkCommand (body ++ crc) = .linkFrameDiscard) ∧
  ∀ bs : List Nat, bs.headD 0 ∉ [1, 2, 3, 4, 5, 6, 7] ∨ bs.length < 8 → linkCommand bs = .linkFrameDiscard

end Sys2Proof.Machine

open Sys2Proof Sys2Proof.Machine in
/-- R193, R366, R367, R376, R378, R386, R388, R389: the reliable frames of the link. -/
def Obligations.ReliableFrames : Prop := ReliableClaim ∧ TokenFramesClaim ∧ JoinFramesClaim ∧ FrameBytesClaim

namespace Sys2Proof.Machine

/-- The token goes over by a planned handover (R386, step 4). -/
def State.handedOver (s : State) (cause : Nat) : State :=
  let t := (({ s with pair := { s.pair with ho := none } }.sendReliable fun q => .token q 5).gaveToken cause 5).event 2
  { t with pair := { t.pair with sent := t.pair.sent ++ [t.beat true], hbSentAt := t.tnow } }

end Sys2Proof.Machine

open Sys2Proof Sys2Proof.Machine in
/-- R381 to R387: a Follow whose DEN runs and whose PRESENT is made takes the token on its ground: it drives on the channels that may
resume, and ends the others; a module in another state only records what its partner shows. A planned handover, asked for by the host,
goes to a partner in SHADOW; at an idle instant after its acceptance the Lead releases the token, or after IDLE_WAIT by force, or it
fails. JOIN_ABORT ends a join. (Rests on choices of the model: log entry 44.) -/
def Obligations.TakeoverAndHandover : Prop :=
  (∀ (cond : TakeCond) (s : State), s.Sound → s.live = true →
    let t := s.setFld (if cond = .noDen then .PAIR_STAT_PEER_DEN_OK else .PAIR_STAT_PEER_LEAD) 0 0
    let ground := match cond with
      | .noDen => True
      | .noHeartbeat => ∀ t, s.pair.hbAt = some t → t + 2500 ≤ s.tnow
      | .released => s.pair.peerFlags.testBit 1 = true
      | .accepted => s.pair.sentAccept = true
    let may := s.pstate ∈ [3, 4, 5, 6] ∧ s.pair.token = false ∧ s.den.on = true ∧ s.flag .PAIR_STAT_PRESENT = true ∧ s.mode ≠ 0 ∧ ground
    let cause := match cond with | .noDen => 1 | .noHeartbeat => 2 | .released => 3 | .accepted => if s.activeCount = 0 then 4 else 5
    let b := if cond = .accepted then 2 else 0
    (¬ may → s.fld .PAIR_STAT_STATE < 7 → Ends (.takeover cond) s t) ∧
    (may → EndsIn (.takeover cond) s fun u =>
      u.pair = { s.pair with
        token := true, leadPin := true, sentAccept := false, joinOpen := false, joinStarted := false, aim := none, aimSent := none, ho := none } ∧
      u.fld .PAIR_STAT_STATE = 2 ∧ u.fld .PAIR_STAT_ROLE = 1 ∧ u.fld .PAIR_TAKE_CAUSE = cause ∧ u.fld .PAIR_TAKE_TOOK = 1 ∧
      u.fld .PAIR_TAKE_TIME_TNOW = s.tnow ∧ (u.fld .PAIR_EVT).testBit b = true ∧ u.mode = s.mode ∧ u.mem = s.mem ∧
      (∀ c, c < 96 → (s.fld .PAIR_NORESUME (c / 32)).testBit (c % 32) = true → u.level c = false) ∧
      (∀ c, c < 96 → s.level c = false → u.level c = false) ∧ (s.activeCount = 0 → u.seqs = s.seqs))) ∧
  (∀ (src : Src) (s : State),
    let t := s.cleared
    let ready := s.pstate = 2 ∧ s.linkUp = true ∧ s.partner = 5 ∧ ¬ s.inChange ∧ s.pair.peerState.testBit 3 = false
    (s.pair.ho ≠ none → Stores (.pairHandover src) s src 0x30020 1 t) ∧
    (s.pair.ho = none → ready → Stores (.pairHandover src) s src 0x30020 1
      ({ t with pair := { s.pair with ho := some {} } }.sendReliable fun q => .token q 1)) ∧
    (s.pair.ho = none → ¬ ready → Stores (.pairHandover src) s src 0x30020 1 ((t.event 3).accessLogged src 0x30020 true .refused)) ∧
    let open' := s.pair.joinOpen = true
    let other := s.pstate = 2 ∧ s.linkUp = true ∧ s.partner = 3
    let told := t.sendReliable fun q => .join q 4 0 0
    (¬ open' → ¬ other → Stores (.pairJoinAbort src) s src 0x30020 2 t) ∧
    (¬ open' → other → Stores (.pairJoinAbort src) s src 0x30020 2 told) ∧
    (open' → Stores (.pairJoinAbort src) s src 0x30020 2 told.joinEnded)) ∧
  ∀ s : State, s.Sound → s.live = true →
    let quiet := s.activeCount = 0 ∧ ∀ n k, n < 24 → k < 64 → (s.slot n k).armed = true → (s.slot n k).kind.sets = true →
      ∀ t, s.slotNs n k = some t → s.fld .PAIR_GUARD_HO_GUARD < t
    let accepted := ∃ h t, s.pair.ho = some h ∧ h.acceptedAt = some t
    let due := ∃ h t, s.pair.ho = some h ∧ h.acceptedAt = some t ∧ t + max 1 (s.fld .PAIR_CFG_IDLE_WAIT_MS) * 1000000 ≤ s.tnow
    (¬ (accepted ∧ quiet) → Ends .idleInstant s s) ∧
    (accepted → quiet → s.isSolo = false → EndsDriven .idleInstant s (s.handedOver 10)) ∧
    (¬ due → Ends .idleWaitExpiry s s) ∧
    (due → s.flag .PAIR_CFG_FORCE_EN = true → s.isSolo = false → EndsDriven .idleWaitExpiry s (s.handedOver 11)) ∧
    (due → s.flag .PAIR_CFG_FORCE_EN = false → Ends .idleWaitExpiry s s.hoFails)

open Sys2Proof Sys2Proof.Machine in
/-- R379, R380: a module that compares digests sets one that arrives against its own counterpart, of the same domain, cycle, revolution
and position. Equal ones are counted; different modes suspend the comparison; any other difference is recorded, and a Follow in SHADOW
goes back to MATCHING. One without a counterpart waits for it, and the
oldest of sixteen that wait then counts as missing. (Rests on choices of the model: log entry 53.) -/
def Obligations.DigestComparison : Prop :=
  ∀ (bytes : List Byte) (s : State), s.Sound → s.up = true →
    let b := bytes.map fun x => x.toNat
    let d := b.getD 0 0 % 4
    let compares := (s.pstate = 2 ∧ s.linkUp = true ∧ s.partner ∈ [4, 5]) ∨ s.pstate ∈ [4, 5]
    let own := Tab.get [] s.pair.ownDig d
    let same := fun (a : List Nat) => a.getD 0 0 % 4 = d ∧ (a.getD 0 0).testBit 4 = (b.getD 0 0).testBit 4 ∧ (a.drop 1).take 4 = (b.drop 1).take 4
    (¬ compares → Ends (.digest bytes) s s) ∧
    (compares → (∀ e ∈ own, ¬ same e.2) → (Tab.get [] s.pair.rxDig d).length < 16 → Ends (.digest bytes) s { s with pair :=
      { s.pair with rxDig := Tab.set [] s.pair.rxDig d (Tab.get [] s.pair.rxDig d ++ [((s.dom d).digests, b)]) } }) ∧
    (∀ x more, compares → (∀ e ∈ own, ¬ same e.2) → Tab.get [] s.pair.rxDig d = x :: more → 16 ≤ more.length + 1 → EndsIn (.digest bytes) s fun u =>
      u = { s with regs := u.regs, pair := u.pair } ∧ Tab.get [] u.pair.rxDig d = more ++ [((s.dom d).digests, b)] ∧
      u.fld .PAIR_CNT_DIG_MISSING = min (s.fld .PAIR_CNT_DIG_MISSING + 1) (2 ^ Fld.width .PAIR_CNT_DIG_MISSING - 1) ∧
      u.fld .PAIR_DIG_MISSING = 1 ∧ (u.fld .PAIR_EVT).testBit 5 = true) ∧
    ∀ first e rest, compares → own = first ++ e :: rest → (∀ x ∈ first, ¬ same x.2) → same e.2 →
      let t := { s with pair := { s.pair with ownDig := Tab.set [] s.pair.ownDig d (first ++ rest) } }
      let suspended := (e.2.drop 5).take 9 ≠ (b.drop 5).take 9
      (suspended → Ends (.digest bytes) s (t.count .PAIR_CNT_DIG_SUSP 0)) ∧
      (¬ suspended → e.2 = b → Ends (.digest bytes) s (t.count .PAIR_CNT_DIG_MATCH 0)) ∧
      (¬ suspended → e.2 ≠ b → EndsIn (.digest bytes) s fun u =>
        u = { t with regs := u.regs, pair := { t.pair with cleanCyc := 0, cycOpen := false } } ∧
        u.fld .PAIR_CNT_DIG_MISMATCH = min (s.fld .PAIR_CNT_DIG_MISMATCH + 1) (2 ^ Fld.width .PAIR_CNT_DIG_MISMATCH - 1) ∧
        u.fld .PAIR_DIG_DOMAIN = d ∧ u.fld .PAIR_DIG_MISSING = 0 ∧ (u.fld .PAIR_EVT).testBit 5 = true ∧
        u.fld .PAIR_STAT_STATE = if s.pstate = 5 then 4 else s.fld .PAIR_STAT_STATE)

namespace Sys2Proof.Machine

/-! ### Power, clocks, reset and the wellspring (R161, R260, R392 to R413) -/

/-- A field without one of its bits. -/
def without (v n : Nat) : Nat := v - (v &&& 2 ^ n)

/-- Supply `n` holds its output. -/
def State.supplyOn (s : State) (n : Nat) : State :=
  ((s.setFld .PWR_STAT_SUP_ON 0 (s.fld .PWR_STAT_SUP_ON ||| 2 ^ n)).setFld .PWR_STAT_SUP_LIMIT 0
    (without (s.fld .PWR_STAT_SUP_LIMIT) n)).setFld .PWR_STAT_SUP_OFF 0 (without (s.fld .PWR_STAT_SUP_OFF) n)

end Sys2Proof.Machine

open Sys2Proof Sys2Proof.Machine in
/-- R397: a supply that is asked for more than its limit holds the limit; after 1 ms it switches off, with its SUP_FAULT bit set, and
10 ms later it tries again. An overload that ends first leaves it on. The other supplies are unaffected.
(Rests on choices of the model: log entries 49 and 4.) -/
def Obligations.SupplyOverloads : Prop :=
  ∀ (n : Fin 4) (s : State), s.Sound → s.live = true →
    let on := (s.fld .PWR_STAT_SUP_ON).testBit n
    let limit := (s.fld .PWR_STAT_SUP_LIMIT).testBit n
    let off := (s.fld .PWR_STAT_SUP_OFF).testBit n
    let long := Tab.get 0 s.power.overAt n + 1000000 ≤ s.tnow
    let waited := Tab.get 0 s.power.offAt n + 10000000 ≤ s.tnow
    (on = false → Ends (.supOverload n) s s) ∧ (limit = false ∨ ¬ long → Ends (.supOff n) s s) ∧
    (off = false ∨ ¬ waited → Ends (.supRetry n) s s) ∧ (limit = false → Ends (.overloadEnd n) s s) ∧
    (off = true → waited → Ends (.supRetry n) s (s.supplyOn n)) ∧ (limit = true → Ends (.overloadEnd n) s (s.supplyOn n)) ∧
    (on = true → EndsIn (.supOverload n) s fun u => u = { s with regs := u.regs, power := u.power } ∧
      u.power = { s.power with overAt := u.power.overAt } ∧ Tab.get 0 u.power.overAt n = s.tnow ∧
      u.regs = ((s.setFld .PWR_STAT_SUP_LIMIT 0 (s.fld .PWR_STAT_SUP_LIMIT ||| 2 ^ n.val)).setFld .PWR_STAT_SUP_ON 0
        (without (s.fld .PWR_STAT_SUP_ON) n)).regs) ∧
    (limit = true → long → EndsIn (.supOff n) s fun u => u = { s with regs := u.regs, power := u.power } ∧
      u.power = { s.power with offAt := u.power.offAt } ∧ Tab.get 0 u.power.offAt n = s.tnow ∧
      u.regs = (((s.setFld .PWR_STAT_SUP_LIMIT 0 (without (s.fld .PWR_STAT_SUP_LIMIT) n)).setFld .PWR_STAT_SUP_OFF 0
        (s.fld .PWR_STAT_SUP_OFF ||| 2 ^ n.val)).setFld .PWR_EVT_SUP_FAULT 0 (s.fld .PWR_EVT_SUP_FAULT ||| 2 ^ n.val)).regs)

namespace Sys2Proof.Machine

/-- Every generator stands with the pins that it has, but for those that stand already (R260, R261). -/
def State.PwmStand (s u : State) : Prop :=
  ∀ g, g < 16 → u.pwm g = if ((s.pwm g).halted).isSome then s.pwm g else
    { s.pwm g with halted := some s.tick, frozen := some (s.auxPad (2 * g), s.auxPad (2 * g + 1)) }

/-- Every generator that stands goes on from its held count, and what was written meanwhile acts on the next tick (R260). -/
def State.PwmGoOn (s u : State) : Prop :=
  ∀ g, g < 16 → match (s.pwm g).halted with
    | none => u.pwm g = s.pwm g
    | some h => u.pwm g = { s.pwm g with
        halted := none, frozen := none, due := some (s.tick + 1), start := (s.pwm g).start + (s.tick - h)
        bound := if (s.pwm g).run then (s.pwm g).bound + (s.tick - h) else s.tick + 1 }

/-- R10, R261, R399, R403, R404: a clock failure forces the drivers, gates DEN off and records its cause; the clocks that fail with it stand,
and the generators with the peripheral clock. 1 ms after the last one the module
shows it and clears through path 7. An oscillator that leaves its window gates DEN off. (Rests on choices of the model: log entry 46.) -/
def ClocksClaim : Prop :=
  (∀ (code : FailCode) (s : State), s.Sound → s.live = true →
    let halted := s.flag .DBG_STAT_HALTED = true
    let k := match code with
      | .reference => 1 | .eventPll => 2 | .sequencerPll => 3 | .peripheralPll => 4 | .window => 5
    (s.power.forced = false → EndsIn (.clockFail code) s fun u =>
      u = { s with power := { s.power with forced := true, failCode := k, failAt := s.wsNs }, den := s.denEnded, pwms := u.pwms
                   clkStopAt := if s.seqStopped then s.clkStopAt else s.tnow } ∧
      (k ∈ [1, 4] → ¬ halted → s.PwmStand u) ∧ (k ∉ [1, 4] ∨ halted → u.pwms = s.pwms) ∧
      u.perStopped = decide (k ∈ [1, 4]) ∧ u.evStopped = decide (k ∈ [1, 2]) ∧
      u.seqStopped = (s.flag .DBG_STAT_CLK_STOPPED || decide (k ∈ [1, 2, 3]))) ∧
    (s.power.forced = true → Ends (.clockFail code) s { s with power := { s.power with failAt := s.wsNs } }) ∧
    let due := s.power.forced = true ∧ s.power.failAt + 1000000 ≤ s.wsNs
    (¬ due → Ends .clockRecovery s s) ∧
    (due → s.den.silent = false → EndsIn .clockRecovery s fun u =>
      u.power = { s.power with forced := false } ∧ u.den = { s.den with silent := true, withheld := true } ∧
      u.fld .CLK_STAT_LAST_FAIL = s.power.failCode % 8 ∧ u.flag .PWR_EVT_CLK_FAIL = true ∧ s.PathEnds u 7 8) ∧
    (due → s.den.silent = true → EndsIn .clockRecovery s fun u =>
      u = { s with power := { s.power with forced := false }, den := { s.den with withheld := true }, regs := u.regs, seqs := u.seqs
                   pwms := u.pwms, logNew := s.logNew ++ [⟨8, 0, s.power.failCode, 0⟩] } ∧
      u.fld .CLK_STAT_LAST_FAIL = s.power.failCode % 8 ∧ u.flag .PWR_EVT_CLK_FAIL = true ∧
      (s.perStopped = true → ¬ halted → s.PwmGoOn u) ∧ (s.perStopped = false ∨ halted → u.pwms = s.pwms))) ∧
  ∀ s : State, s.Sound → Ends .oscillatorWindowLeave s { s with power := { s.power with oscBad := true }, den := s.denEnded }

/-- R407, R408, R410: once DEN has stopped, an accepted Dormant request completes; a wake source that the copied configuration enables is
kept, the first one, with what it was, and the catcher then keeps the 16 newest edges of each input it serves.
(Rests on choices of the model: log entries 47 and 33.) -/
def DormantClaim : Prop :=
  ∀ s : State, s.Sound →
    let asleep := s.power.held = false ∧ (s.power.entering ≠ none ∨ (s.mode = 0 ∧ s.power.clocks = false))
    let wakes := fun (c : Instr) (enabled : Prop) (w : Wake) =>
      (asleep → enabled → s.power.wake = none → Ends c s { s with
        power := { s.power with wake := some w, during := s.power.entering.isSome, catching := s.power.copyMask } }) ∧
      (¬ (asleep ∧ enabled ∧ s.power.wake = none) → Ends c s s)
    (∀ w : Fin 8, wakes (.wakeWheel w) (s.power.copyMask.testBit w = true) { cause := 1, win := w }) ∧
    wakes .wakePin (s.power.copyPinEn ≠ 0) { cause := 2 } ∧
    wakes .wakeTimer (s.power.copyTimerEn ≠ 0 ∧ s.power.keepAt + max 1 s.power.copyTimer * 1000000000 ≤ s.wsNs) { cause := 3 } ∧
    (s.live = true →
      let due := s.power.entering ≠ none ∧ s.den.on = false ∧ (s.den.silent = true ∨ s.den.seen = false)
      (¬ due → Ends .dormantEntryDone s s) ∧
      (due → EndsIn .dormantEntryDone s fun u => u.power = { s.power with entering := none, clocks := false } ∧ u.live = false ∧
        u.mode = 0 ∧ u.change = none ∧ ¬ u.inChange ∧ u.flag .PCIE_STAT_LINK_UP = false ∧ u.mem = s.mem ∧ u.pair = s.pair)) ∧
    ∀ (w : Fin 8) (stamp : Nat) (rising : Bool),
      let c := Instr.firstEdgeCatch w stamp rising
      let served := s.power.catching.testBit w
      let l := Tab.get [] s.power.caught w ++ [{ stamp := if s.live then stamp else stamp / 8000 * 8000, rising, caught := !s.live : Edge }]
      (served = false → Ends c s s) ∧
      (served = true → EndsIn c s fun u => u = { s with power := { s.power with caught := u.power.caught } } ∧
        Tab.get [] u.power.caught w = l.drop (l.length - 16) ∧ ∀ j, j ≠ w.val → Tab.get [] u.power.caught j = Tab.get [] s.power.caught j)

end Sys2Proof.Machine

open Sys2Proof Sys2Proof.Machine in
/-- R399, R403, R404, R407, R408, R410: clock failures, Dormant, its wake sources and the first-edge catcher. -/
def Obligations.ClocksAndDormant : Prop := ClocksClaim ∧ DormantClaim

namespace Sys2Proof.Machine

/-- R393, R406, R409, R411: at the end of power-on reset everything is as reset leaves it, with the slot address read. A wake does the same
outside the wellspring, whose own items, TNOW among them, go on; the cause is shown.
(Rests on choices of the model: log entries 48 and 47.) -/
def PowerOnClaim : Prop :=
  (∀ (straps : Fin 8) (s : State), s.Sound →
    Runs (.powerOnReset straps) s fun t => t = ({ State.reset with pending := s.pending }).setFld .PAIR_STAT_SLOT 0 straps) ∧
  (∀ s : State, s.Sound → Runs .powerOnResetAssert s fun t => t.live = false ∧ t.power.held = true ∧ t.tnow = 0 ∧ t.mem = [] ∧
    t.pending = s.pending ∧ ∀ (f : Fld) (i : Nat), f ≠ .PAIR_STAT_SLOT → t.fld f i = State.reset.fld f i) ∧
  ∀ s : State, s.Sound →
    let asleep := s.mode = 0 ∧ s.power.clocks = false
    (s.power.wake = none ∨ ¬ asleep → Ends .wakeRelease s s) ∧
    ∀ w, s.power.wake = some w → asleep → s.power.held = false → Runs .wakeRelease s fun t =>
      t.live = true ∧ t.mode = 1 ∧ t.wsNs = s.wsNs ∧
      t.tnow = (s.power.keepTnow + 1000 * (s.wsNs / 1000 - s.power.keepAt / 1000)) % 2 ^ 64 ∧
      t.power = { s.power with clocks := true, forced := false, wake := none, during := false, released := s.wsNs, overAt := [], offAt := [] } ∧
      t.fld .PWR_WAKE_STAT_CAUSE = w.cause % 2 ^ Fld.width .PWR_WAKE_STAT_CAUSE ∧
      t.fld .PWR_WAKE_STAT_WIN = w.win % 2 ^ Fld.width .PWR_WAKE_STAT_WIN ∧
      t.flag .PWR_WAKE_STAT_DURING_ENTRY = s.power.during ∧ t.flag .PWR_EVT_WOKE = true ∧
      t.fld .CLK_STAT_LAST_FAIL = s.power.failCode % 8 ∧
      t.fld .PAIR_STAT_SLOT = s.fld .PAIR_STAT_SLOT ∧ t.flag .PAIR_STAT_PRESENT = s.flag .PAIR_STAT_PRESENT ∧
      t.mem = [] ∧ t.seqs = [] ∧ t.pending = s.pending ∧
      ∀ f ∉ [Fld.PWR_WAKE_STAT_CAUSE, .PWR_WAKE_STAT_WIN, .PWR_WAKE_STAT_DURING_ENTRY, .PWR_EVT_WOKE, .CLK_STAT_LAST_FAIL, .PAIR_STAT_SLOT,
        .PAIR_STAT_PRESENT], ∀ i, t.fld f i = State.reset.fld f i

/-- R161, R260, R411: a debug halt takes path 5: Clearing where the mode allows it, the counters of the PWM generators held, and the
sequencer clocks stopped once every channel is inactive. A test-logic reset ends it, without a change of mode, and the generators go on
where the peripheral clock runs. (Rests on choices of the model: log entry 36.) -/
def DebugHaltClaim : Prop :=
  ∀ s : State, s.Sound → s.live = true →
    let halted := s.flag .DBG_STAT_HALTED
    (halted = true → Ends .debugHalt s s) ∧
    (halted = false → EndsIn .debugHalt s fun u => u.flag .DBG_STAT_HALTED = true ∧ u.fld .SPILL_STAT_LAST_PATH = 5 ∧
      u.hold2 = true ∧ (2 ≤ s.mode → s.mode ≤ 4 → u.mode = 5 ∧ u.fld .MODE_STAT_CLEAR_CAUSE = 7) ∧
      (∀ g, g < 16 → (u.pwm g).halted = some ((s.pwm g).halted.getD s.tick) ∧ (u.pwm g).start = (s.pwm g).start ∧
        (u.pwm g).bound = (s.pwm g).bound) ∧
      (s.mode < 2 ∨ 4 < s.mode → s.PwmStand u)) ∧
    (halted = false → Runs .debugHalt s fun t => (t.flag .DBG_STAT_CLK_STOPPED = true ↔
      s.flag .DBG_STAT_CLK_STOPPED = true ∨ ∀ c, c < 96 → t.level c = false)) ∧
    (halted = false → Ends .testLogicReset s s) ∧
    (halted = true → EndsIn .testLogicReset s fun u =>
      u = { s with regs := u.regs, seqs := u.seqs, pwms := u.pwms } ∧
      u.flag .DBG_STAT_HALTED = false ∧ u.flag .DBG_STAT_CLK_STOPPED = false ∧ u.mode = s.mode ∧
      (s.perStopped = false → s.PwmGoOn u) ∧ (s.perStopped = true → u.pwms = s.pwms) ∧
      (s.flag .DBG_STAT_CLK_STOPPED = false → u.seqs = s.seqs) ∧
      ∀ n, n < 24 → (u.seq n).state = (s.seq n).state ∧ (u.seq n).pc = (s.seq n).pc ∧ (u.seq n).xs = (s.seq n).xs)

end Sys2Proof.Machine

open Sys2Proof Sys2Proof.Machine in
/-- R161, R260, R393, R406, R409, R411: power-on reset, the wake from Dormant, and the debug halt with its end. -/
def Obligations.ResetsAndHalt : Prop := PowerOnClaim ∧ DebugHaltClaim

namespace Sys2Proof.Machine

/-! ### The block as a whole -/

end Sys2Proof.Machine

open Sys2Proof Sys2Proof.Machine in
/-- A step takes the command at the front of the queue and runs it with the queue's rest. -/
def Obligations.StepRunsTheFront : Prop :=
  ∀ (c : Instr) (s : State), step { s with pending := c :: s.pending } = exec c s

open Sys2Proof Sys2Proof.Machine in
/-- On an empty queue one nanosecond passes: the wellspring counts it, and TNOW counts it, modulo 2^64, while the event clock runs (R4, R10).
With it the due change of a generator takes effect (R244, R249), and at the start of a peripheral cycle every message that waits leaves
once, counted, highest PRI first (R297). The table has no row for the passing of
time. (Rests on choices of the model: log entries 1 and 13.) -/
def Obligations.IdleStep : Prop :=
  ∀ s : State, s.Sound → s.pending = [] →
    let a := { s with wsNs := s.wsNs + 1, tnow := if s.live && !s.evStopped then (s.tnow + 1) % 2 ^ 64 else s.tnow }
    let leaves := a.tnow % 4 = 0 ∧ s.flag .PCIE_STAT_LINK_UP = true
    ∃ u t : State, step s = .next t ∧ u.EndOf s.mode t ∧ u = { a with regs := u.regs, pwms := u.pwms, pcie := u.pcie } ∧
      (∀ f i, f ∉ [.PWM_STAT_FORCE_BAD, .ICU_CNT_MSG_CNT] → u.fld f i = s.fld f i) ∧
      (∀ g, (s.pwm g).halted ≠ none ∨ (∀ k, (s.pwm g).due = some k → a.tick < k) → u.pwm g = s.pwm g) ∧
      (∀ g k, (s.pwm g).halted = none → (s.pwm g).due = some k → k ≤ a.tick → (u.pwm g).due = none ∧
        (u.pwm g).run = s.flag .PWM_CTRL_EN g ∧ (u.pwm g).fa = s.fld .PWM_FORCE_FA g ∧ (u.pwm g).fb = s.fld .PWM_FORCE_FB g) ∧
      (¬ leaves → u.pcie = s.pcie) ∧
      (leaves → u.pcie.due = [] ∧ ∃ l : List Msi, l.Perm s.pcie.due ∧ l.Pairwise (fun x y =>
          y.pri < x.pri ∨ (y.pri = x.pri ∧ (x.f < y.f ∨ (x.f = y.f ∧ x.vec ≤ y.vec)))) ∧
        u.pcie.out = s.pcie.out ++ l.map (fun m => PcieOut.msix m.f m.vec m.addr m.data) ∧
        ((∀ m ∈ l, m.f < 4) → ∀ f, f < 4 → u.fld .ICU_CNT_MSG_CNT f =
          min (s.fld .ICU_CNT_MSG_CNT f + (l.filter (·.f = f)).length) (2 ^ Fld.width .ICU_CNT_MSG_CNT - 1)))

open Sys2Proof Sys2Proof.Machine in
/-- R8, R69, R185, R406, R411: what power-on reset leaves: TNOW 0, Standby, 0x80_0000 in every word of a correction bank, Standby applied in
word 1,023 of every data memory and 0 in every other memory, every register field at the value its table gives, every sequencer
idle, every channel inactive, nothing driven, and no command waiting. (Rests on choices of the model: log entries 5 and 6.) -/
def Obligations.ResetState : Prop :=
  let s := State.reset
  s.tnow = 0 ∧ s.mode = 1 ∧ s.live = true ∧ s.pending = [] ∧
  (∀ d b k, d < 4 → b < 2 → k < 1024 → s.word (tclAddr d b k) = 0x800000) ∧
  (∀ n, n < 24 → s.word (dmemAddr n 1023) = 1) ∧
  (∀ a, (∀ d, d < 4 → a < tclAddr d 0 0 ∨ tclAddr d 2 0 ≤ a) → (∀ n, n < 24 → a ≠ dmemAddr n 1023) → s.byte a = 0) ∧
  (∀ c, c < 96 → s.view .OUT_STAT_INHIBIT c = 0 ∧ s.driving c = false) ∧
  (∀ f ∈ [Fld.CLK_STAT_MON_OK, .CLK_STAT_PER_LOCK, .CLK_STAT_SEQ_LOCK, .CLK_STAT_EV_LOCK, .CLK_STAT_REF_OK], s.view f 0 = 0) ∧ (∀ (f : Fld) (i : Nat), s.fld f i = f.resetAt i) ∧
  (∀ n, (s.seq n).state = .idle ∧ ∀ k, s.x n k = 0) ∧ (∀ c, s.level c = false) ∧ (∀ p, Tab.get .z s.gio p = .z) ∧
  s.den.on = false ∧ s.pair.token = false ∧ s.pair.leadPin = false

open Sys2Proof Sys2Proof.Machine in
/-- The state that reset leaves meets the invariant. -/
def Obligations.ResetIsSound : Prop := State.reset.Sound

open Sys2Proof Sys2Proof.Machine in
/-- A step from any state that meets the invariant leads to one that does: every table in its canonical form, the memory among them, every
register field within its width (R5, R7), every sequencer register within 32 bits and x0 at 0 (R79), TNOW within 64 bits (R4), and every
entry of the error log written (R423). -/
def Obligations.StepKeepsSound : Prop := ∀ s t : State, s.Sound → step s = .next t → t.Sound

open Sys2Proof Sys2Proof.Machine in
/-- No command stops the block: each has a next state, in which every part of the state that is not among those it may write, the queue
among them, is as it was. (Rests on choices of the model: log entry 3.) -/
def Obligations.CommandFrames : Prop :=
  ∀ (c : Instr) (s : State), ∃ t, exec c s = .next t ∧ ∀ p, p ∉ writesOf c → p.Kept s t

open Sys2Proof Sys2Proof.Machine in
/-- R402, R407: while the fast clocks stand still, no command of the blocks that they run has any effect. The wellspring, the contacts and the
serial port go on. (Rests on choices of the model: log entry 3.) -/
def Obligations.NoClocksNoEffect : Prop :=
  ∀ (c : Instr) (s : State), s.Sound → s.live = false → selfClocked c = false → exec c s = .next s

namespace Sys2Proof.Machine

/-! ### The words of Phiad (R92 to R94) -/

/-- The word with an opcode, the three four-bit fields below it, and fourteen bits. -/
def phCompose (opc a b c low : Nat) : Nat := opc * 2 ^ 26 + a * 2 ^ 22 + b * 2 ^ 18 + c * 2 ^ 14 + low

/-- The words that spell an instruction: its opcode and codes, with every field that it does not read at 0 (R93, R94). -/
def Spelled (o : PhOp) (opc a b c low : Nat) : Prop :=
  let alu := fun (k : Nat) => opc = 0x01 ∧ low = k
  let shift := fun (k : Nat) => opc = 0x06 ∧ c = 4 * k ∧ low < 32
  let mul := fun (k : Nat) => opc = 0x08 ∧ low = k
  let branch := fun (k : Nat) => opc = 0x11 ∧ c = k
  let ch := low / 128
  let act := low / 16 % 8
  let fl := low % 16
  let armed := (act ≤ 1 ∧ ch ≤ 95 ∧ c = 0 ∧ fl = 0) ∨ (2 ≤ act ∧ act ≤ 3 ∧ ch = 0 ∧ fl = 0) ∨ (act = 4 ∧ ch = 0 ∧ c = 0)
  let cancel := fun (k : Nat) => opc = 0x1B ∧ act = k ∧ c = 0 ∧ fl = 0
  let waite := fun (k : Nat) => opc = 0x1E ∧ c = k
  let sys := fun (k : Nat) => opc = 0x1F ∧ a = k
  let bare := b = 0 ∧ c = 0 ∧ low = 0
  match o with
  | .add => alu 0 | .sub => alu 1 | .and' => alu 2 | .or' => alu 3 | .xor' => alu 4 | .sll => alu 5 | .srl => alu 6 | .sra => alu 7
  | .slt => alu 8 | .sltu => alu 9 | .min' => alu 10 | .max' => alu 11 | .minu => alu 12 | .maxu => alu 13 | .clamp => alu 14
  | .clampu => alu 15 | .pack => alu 16
  | .addi => opc = 0x02 | .andi => opc = 0x03 | .ori => opc = 0x04 | .xori => opc = 0x05
  | .slli => shift 0 | .srli => shift 1 | .srai => shift 2 | .rori => shift 3 | .lui => opc = 0x07
  | .mulu => mul 0 ∧ a % 2 = 0 | .muls => mul 1 ∧ a % 2 = 0 | .mul => mul 2 | .mulq => mul 3
  | .divu => mul 8 | .divs => mul 9 | .remu => mul 10 | .rems => mul 11
  | .lw => opc = 0x09 | .sw => opc = 0x0A | .lmu => opc = 0x0B | .lms => opc = 0x0C | .lmw => opc = 0x0D | .map2 => opc = 0x0E
  | .a2t => opc = 0x0F ∧ c = 0 ∧ low = 0 | .t2a => opc = 0x0F ∧ c = 0 ∧ low = 1 | .rds => opc = 0x10 ∧ b = 0 ∧ c = 0 ∧ low ≤ 4
  | .beq => branch 0 | .bne => branch 1 | .blt => branch 2 | .bge => branch 3 | .bltu => branch 4 | .bgeu => branch 5
  | .bmlt => branch 6 | .bmge => branch 7 | .jal => opc = 0x12 | .jalr => opc = 0x13
  | .arm => opc = 0x18 ∧ armed | .armt => opc = 0x19 ∧ armed
  | .pulse => opc = 0x1A ∧ ch ≤ 95 ∧ low % 128 ≤ 1 ∧ (low % 2 = 1 → a = 0)
  | .cancelHandle => cancel 0 ∧ ch = 0 | .cancelChannel => cancel 1 ∧ b = 0 ∧ ch ≤ 95 | .cancelAll => cancel 2 ∧ b = 0 ∧ ch = 0
  | .waita => opc = 0x1C ∧ c = 0 ∧ low = 0 | .waitt => opc = 0x1D ∧ c = 0 ∧ low = 0
  | .waiteTooth => waite 0 ∧ b = 0 ∧ low = 0 | .waiteIcu => waite 1 ∧ b = 0 ∧ low ≤ 383 | .waiteFence => waite 2
  | .waiteEpoch => waite 3 ∧ b = 0 ∧ low = 0 | .waiteFlag => waite 4 ∧ low = 0
  | .safept => sys 1 ∧ bare | .fence => sys 2 | .budget => sys 3 | .yield => sys 4 ∧ bare | .halt => sys 5 ∧ bare
  | .handover => sys 6 ∧ c = 0 ∧ low < 128

end Sys2Proof.Machine

open Sys2Proof Sys2Proof.Machine in
/-- R92, R93, R94: each word is one opcode with its fields, it spells the instruction that the opcode and codes name, and it spells none where
R93 makes it illegal: a code without an instruction, or a field that is not read and not 0. (Rests on choices of the model: log entry 17.) -/
def Obligations.PhiadWords : Prop :=
  (∀ opc a b c low : Nat, opc < 64 → a < 16 → b < 16 → c < 16 → low < 2 ^ 14 →
    let w := phCompose opc a b c low
    (∀ o : PhOp, phDecode w = some o ↔ Spelled o opc a b c low) ∧
    phOpc w = opc ∧ phA w = a ∧ phB w = b ∧ phC w = c ∧ phImm w = c * 2 ^ 14 + low ∧ phImm14 w = low ∧
    phImm22 w = b * 2 ^ 18 + c * 2 ^ 14 + low ∧ phCh w = low / 128 ∧ phAct w = low / 16 % 8 ∧ phFl w = low % 16) ∧
  ∀ w, w < 2 ^ 32 → w = phCompose (phOpc w) (phA w) (phB w) (phC w) (phImm14 w)
end

