-- ==== Sys2Proof/Laws/State.lean ====
section
/-! SUPPORT. One lemma per field of the state per elementary update: what the update leaves alone. The updates that are
other names of an elementary one are rewritten to it. -/

namespace Sys2Proof.Machine

/-! ### Other names of elementary updates -/

@[simp] theorem State.raise_eq (s : State) (f : Fld) (i : Nat) : s.raise f i = s.setFld f i 1 := rfl
@[simp] theorem State.putFlag_eq (s : State) (f : Fld) (i : Nat) (b : Bool) : s.putFlag f i b = s.setFld f i (b2n b) := rfl
@[simp] theorem State.bumpBy_eq (s : State) (f : Fld) (i n : Nat) :
    s.bumpBy f i n = s.setFld f i (min (s.fld f i + n) (2 ^ f.width - 1)) := rfl
@[simp] theorem State.bump_eq (s : State) (f : Fld) (i : Nat) :
    s.bump f i = s.setFld f i (min (s.fld f i + 1) (2 ^ f.width - 1)) := rfl
@[simp] theorem State.orFld_eq (s : State) (f : Fld) (i m : Nat) : s.orFld f i m = s.setFld f i (s.fld f i ||| m) := rfl
@[simp] theorem State.clearBits_eq (s : State) (f : Fld) (i m : Nat) :
    s.clearBits f i m = s.setFld f i (s.fld f i - (s.fld f i &&& m)) := rfl
@[simp] theorem State.modDom_eq (s : State) (d : Nat) (g : Domain → Domain) : s.modDom d g = s.setDom d (g (s.dom d)) := rfl
@[simp] theorem State.modSeq_eq (s : State) (n : Nat) (g : Seq → Seq) : s.modSeq n g = s.setSeq n (g (s.seq n)) := rfl
@[simp] theorem State.modChan_eq (s : State) (c : Nat) (g : Chan → Chan) : s.modChan c g = s.setChan c (g (s.chan c)) := rfl
@[simp] theorem State.modFn_eq (s : State) (f : Nat) (g : PcieFn → PcieFn) : s.modFn f g = s.setFn f (g (s.fn f)) := rfl

/-! ### setFld -/

@[simp] theorem State.setFld_pending (s : State) (f : Fld) (i v : Nat) : (s.setFld f i v).pending = s.pending := rfl
@[simp] theorem State.setFld_tnow (s : State) (f : Fld) (i v : Nat) : (s.setFld f i v).tnow = s.tnow := rfl
@[simp] theorem State.setFld_wsNs (s : State) (f : Fld) (i v : Nat) : (s.setFld f i v).wsNs = s.wsNs := rfl
@[simp] theorem State.setFld_mem (s : State) (f : Fld) (i v : Nat) : (s.setFld f i v).mem = s.mem := rfl
@[simp] theorem State.setFld_progErr (s : State) (f : Fld) (i v : Nat) : (s.setFld f i v).progErr = s.progErr := rfl
@[simp] theorem State.setFld_resp (s : State) (f : Fld) (i v : Nat) : (s.setFld f i v).resp = s.resp := rfl
@[simp] theorem State.setFld_latched (s : State) (f : Fld) (i v : Nat) : (s.setFld f i v).latched = s.latched := rfl
@[simp] theorem State.setFld_heldLow (s : State) (f : Fld) (i v : Nat) : (s.setFld f i v).heldLow = s.heldLow := rfl
@[simp] theorem State.setFld_logNew (s : State) (f : Fld) (i v : Nat) : (s.setFld f i v).logNew = s.logNew := rfl
@[simp] theorem State.setFld_lostOwed (s : State) (f : Fld) (i v : Nat) : (s.setFld f i v).lostOwed = s.lostOwed := rfl
@[simp] theorem State.setFld_armAt (s : State) (f : Fld) (i v : Nat) : (s.setFld f i v).armAt = s.armAt := rfl
@[simp] theorem State.setFld_doms (s : State) (f : Fld) (i v : Nat) : (s.setFld f i v).doms = s.doms := rfl
@[simp] theorem State.setFld_seqs (s : State) (f : Fld) (i v : Nat) : (s.setFld f i v).seqs = s.seqs := rfl
@[simp] theorem State.setFld_mapm (s : State) (f : Fld) (i v : Nat) : (s.setFld f i v).mapm = s.mapm := rfl
@[simp] theorem State.setFld_dataIn (s : State) (f : Fld) (i v : Nat) : (s.setFld f i v).dataIn = s.dataIn := rfl
@[simp] theorem State.setFld_chans (s : State) (f : Fld) (i v : Nat) : (s.setFld f i v).chans = s.chans := rfl
@[simp] theorem State.setFld_svcs (s : State) (f : Fld) (i v : Nat) : (s.setFld f i v).svcs = s.svcs := rfl
@[simp] theorem State.setFld_change (s : State) (f : Fld) (i v : Nat) : (s.setFld f i v).change = s.change := rfl
@[simp] theorem State.setFld_adcs (s : State) (f : Fld) (i v : Nat) : (s.setFld f i v).adcs = s.adcs := rfl
@[simp] theorem State.setFld_settle (s : State) (f : Fld) (i v : Nat) : (s.setFld f i v).settle = s.settle := rfl
@[simp] theorem State.setFld_basins (s : State) (f : Fld) (i v : Nat) : (s.setFld f i v).basins = s.basins := rfl
@[simp] theorem State.setFld_trkLatch (s : State) (f : Fld) (i v : Nat) : (s.setFld f i v).trkLatch = s.trkLatch := rfl
@[simp] theorem State.setFld_feeds (s : State) (f : Fld) (i v : Nat) : (s.setFld f i v).feeds = s.feeds := rfl
@[simp] theorem State.setFld_weightSwap (s : State) (f : Fld) (i v : Nat) : (s.setFld f i v).weightSwap = s.weightSwap := rfl
@[simp] theorem State.setFld_hold3 (s : State) (f : Fld) (i v : Nat) : (s.setFld f i v).hold3 = s.hold3 := rfl
@[simp] theorem State.setFld_hold2 (s : State) (f : Fld) (i v : Nat) : (s.setFld f i v).hold2 = s.hold2 := rfl
@[simp] theorem State.setFld_cmps (s : State) (f : Fld) (i v : Nat) : (s.setFld f i v).cmps = s.cmps := rfl
@[simp] theorem State.setFld_trips (s : State) (f : Fld) (i v : Nat) : (s.setFld f i v).trips = s.trips := rfl
@[simp] theorem State.setFld_pwms (s : State) (f : Fld) (i v : Nat) : (s.setFld f i v).pwms = s.pwms := rfl
@[simp] theorem State.setFld_auxOff (s : State) (f : Fld) (i v : Nat) : (s.setFld f i v).auxOff = s.auxOff := rfl
@[simp] theorem State.setFld_clkStopAt (s : State) (f : Fld) (i v : Nat) : (s.setFld f i v).clkStopAt = s.clkStopAt := rfl
@[simp] theorem State.setFld_ioes (s : State) (f : Fld) (i v : Nat) : (s.setFld f i v).ioes = s.ioes := rfl
@[simp] theorem State.setFld_gio (s : State) (f : Fld) (i v : Nat) : (s.setFld f i v).gio = s.gio := rfl
@[simp] theorem State.setFld_dmas (s : State) (f : Fld) (i v : Nat) : (s.setFld f i v).dmas = s.dmas := rfl
@[simp] theorem State.setFld_pcie (s : State) (f : Fld) (i v : Nat) : (s.setFld f i v).pcie = s.pcie := rfl
@[simp] theorem State.setFld_mspi (s : State) (f : Fld) (i v : Nat) : (s.setFld f i v).mspi = s.mspi := rfl
@[simp] theorem State.setFld_power (s : State) (f : Fld) (i v : Nat) : (s.setFld f i v).power = s.power := rfl
@[simp] theorem State.setFld_den (s : State) (f : Fld) (i v : Nat) : (s.setFld f i v).den = s.den := rfl
@[simp] theorem State.setFld_pair (s : State) (f : Fld) (i v : Nat) : (s.setFld f i v).pair = s.pair := rfl
@[simp] theorem State.setFld_read_byte (s : State) (f : Fld) (i v : Nat) (p : Nat) : (s.setFld f i v).byte p = s.byte p := rfl
@[simp] theorem State.setFld_read_dom (s : State) (f : Fld) (i v : Nat) (m : Nat) : (s.setFld f i v).dom m = s.dom m := rfl
@[simp] theorem State.setFld_read_seq (s : State) (f : Fld) (i v : Nat) (m : Nat) : (s.setFld f i v).seq m = s.seq m := rfl
@[simp] theorem State.setFld_read_chan (s : State) (f : Fld) (i v : Nat) (m : Nat) : (s.setFld f i v).chan m = s.chan m := rfl
@[simp] theorem State.setFld_read_svc (s : State) (f : Fld) (i v : Nat) (m : Nat) : (s.setFld f i v).svc m = s.svc m := rfl
@[simp] theorem State.setFld_read_live (s : State) (f : Fld) (i v : Nat)  : (s.setFld f i v).live = s.live := rfl
@[simp] theorem State.setFld_read_up (s : State) (f : Fld) (i v : Nat)  : (s.setFld f i v).up = s.up := rfl
@[simp] theorem State.setFld_read_evStopped (s : State) (f : Fld) (i v : Nat)  : (s.setFld f i v).evStopped = s.evStopped := rfl
@[simp] theorem State.setFld_read_perStopped (s : State) (f : Fld) (i v : Nat)  : (s.setFld f i v).perStopped = s.perStopped := rfl

/-! ### setByte -/

@[simp] theorem State.setByte_pending (s : State) (a : Nat) (b : Byte) : (s.setByte a b).pending = s.pending := rfl
@[simp] theorem State.setByte_tnow (s : State) (a : Nat) (b : Byte) : (s.setByte a b).tnow = s.tnow := rfl
@[simp] theorem State.setByte_wsNs (s : State) (a : Nat) (b : Byte) : (s.setByte a b).wsNs = s.wsNs := rfl
@[simp] theorem State.setByte_regs (s : State) (a : Nat) (b : Byte) : (s.setByte a b).regs = s.regs := rfl
@[simp] theorem State.setByte_progErr (s : State) (a : Nat) (b : Byte) : (s.setByte a b).progErr = s.progErr := rfl
@[simp] theorem State.setByte_resp (s : State) (a : Nat) (b : Byte) : (s.setByte a b).resp = s.resp := rfl
@[simp] theorem State.setByte_latched (s : State) (a : Nat) (b : Byte) : (s.setByte a b).latched = s.latched := rfl
@[simp] theorem State.setByte_heldLow (s : State) (a : Nat) (b : Byte) : (s.setByte a b).heldLow = s.heldLow := rfl
@[simp] theorem State.setByte_logNew (s : State) (a : Nat) (b : Byte) : (s.setByte a b).logNew = s.logNew := rfl
@[simp] theorem State.setByte_lostOwed (s : State) (a : Nat) (b : Byte) : (s.setByte a b).lostOwed = s.lostOwed := rfl
@[simp] theorem State.setByte_armAt (s : State) (a : Nat) (b : Byte) : (s.setByte a b).armAt = s.armAt := rfl
@[simp] theorem State.setByte_doms (s : State) (a : Nat) (b : Byte) : (s.setByte a b).doms = s.doms := rfl
@[simp] theorem State.setByte_seqs (s : State) (a : Nat) (b : Byte) : (s.setByte a b).seqs = s.seqs := rfl
@[simp] theorem State.setByte_mapm (s : State) (a : Nat) (b : Byte) : (s.setByte a b).mapm = s.mapm := rfl
@[simp] theorem State.setByte_dataIn (s : State) (a : Nat) (b : Byte) : (s.setByte a b).dataIn = s.dataIn := rfl
@[simp] theorem State.setByte_chans (s : State) (a : Nat) (b : Byte) : (s.setByte a b).chans = s.chans := rfl
@[simp] theorem State.setByte_svcs (s : State) (a : Nat) (b : Byte) : (s.setByte a b).svcs = s.svcs := rfl
@[simp] theorem State.setByte_change (s : State) (a : Nat) (b : Byte) : (s.setByte a b).change = s.change := rfl
@[simp] theorem State.setByte_adcs (s : State) (a : Nat) (b : Byte) : (s.setByte a b).adcs = s.adcs := rfl
@[simp] theorem State.setByte_settle (s : State) (a : Nat) (b : Byte) : (s.setByte a b).settle = s.settle := rfl
@[simp] theorem State.setByte_basins (s : State) (a : Nat) (b : Byte) : (s.setByte a b).basins = s.basins := rfl
@[simp] theorem State.setByte_trkLatch (s : State) (a : Nat) (b : Byte) : (s.setByte a b).trkLatch = s.trkLatch := rfl
@[simp] theorem State.setByte_feeds (s : State) (a : Nat) (b : Byte) : (s.setByte a b).feeds = s.feeds := rfl
@[simp] theorem State.setByte_weightSwap (s : State) (a : Nat) (b : Byte) : (s.setByte a b).weightSwap = s.weightSwap := rfl
@[simp] theorem State.setByte_hold3 (s : State) (a : Nat) (b : Byte) : (s.setByte a b).hold3 = s.hold3 := rfl
@[simp] theorem State.setByte_hold2 (s : State) (a : Nat) (b : Byte) : (s.setByte a b).hold2 = s.hold2 := rfl
@[simp] theorem State.setByte_cmps (s : State) (a : Nat) (b : Byte) : (s.setByte a b).cmps = s.cmps := rfl
@[simp] theorem State.setByte_trips (s : State) (a : Nat) (b : Byte) : (s.setByte a b).trips = s.trips := rfl
@[simp] theorem State.setByte_pwms (s : State) (a : Nat) (b : Byte) : (s.setByte a b).pwms = s.pwms := rfl
@[simp] theorem State.setByte_auxOff (s : State) (a : Nat) (b : Byte) : (s.setByte a b).auxOff = s.auxOff := rfl
@[simp] theorem State.setByte_clkStopAt (s : State) (a : Nat) (b : Byte) : (s.setByte a b).clkStopAt = s.clkStopAt := rfl
@[simp] theorem State.setByte_ioes (s : State) (a : Nat) (b : Byte) : (s.setByte a b).ioes = s.ioes := rfl
@[simp] theorem State.setByte_gio (s : State) (a : Nat) (b : Byte) : (s.setByte a b).gio = s.gio := rfl
@[simp] theorem State.setByte_dmas (s : State) (a : Nat) (b : Byte) : (s.setByte a b).dmas = s.dmas := rfl
@[simp] theorem State.setByte_pcie (s : State) (a : Nat) (b : Byte) : (s.setByte a b).pcie = s.pcie := rfl
@[simp] theorem State.setByte_mspi (s : State) (a : Nat) (b : Byte) : (s.setByte a b).mspi = s.mspi := rfl
@[simp] theorem State.setByte_power (s : State) (a : Nat) (b : Byte) : (s.setByte a b).power = s.power := rfl
@[simp] theorem State.setByte_den (s : State) (a : Nat) (b : Byte) : (s.setByte a b).den = s.den := rfl
@[simp] theorem State.setByte_pair (s : State) (a : Nat) (b : Byte) : (s.setByte a b).pair = s.pair := rfl
@[simp] theorem State.setByte_read_fld (s : State) (a : Nat) (b : Byte) (fl : Fld) (j : Nat) : (s.setByte a b).fld fl j = s.fld fl j := rfl
@[simp] theorem State.setByte_read_flag (s : State) (a : Nat) (b : Byte) (fl : Fld) (j : Nat) : (s.setByte a b).flag fl j = s.flag fl j := rfl
@[simp] theorem State.setByte_read_dom (s : State) (a : Nat) (b : Byte) (m : Nat) : (s.setByte a b).dom m = s.dom m := rfl
@[simp] theorem State.setByte_read_seq (s : State) (a : Nat) (b : Byte) (m : Nat) : (s.setByte a b).seq m = s.seq m := rfl
@[simp] theorem State.setByte_read_chan (s : State) (a : Nat) (b : Byte) (m : Nat) : (s.setByte a b).chan m = s.chan m := rfl
@[simp] theorem State.setByte_read_svc (s : State) (a : Nat) (b : Byte) (m : Nat) : (s.setByte a b).svc m = s.svc m := rfl
@[simp] theorem State.setByte_read_live (s : State) (a : Nat) (b : Byte)  : (s.setByte a b).live = s.live := rfl
@[simp] theorem State.setByte_read_up (s : State) (a : Nat) (b : Byte)  : (s.setByte a b).up = s.up := rfl
@[simp] theorem State.setByte_read_evStopped (s : State) (a : Nat) (b : Byte)  : (s.setByte a b).evStopped = s.evStopped := rfl
@[simp] theorem State.setByte_read_perStopped (s : State) (a : Nat) (b : Byte)  : (s.setByte a b).perStopped = s.perStopped := rfl

/-! ### clearMem -/

@[simp] theorem State.clearMem_pending (s : State) (lo hi : Nat) : (s.clearMem lo hi).pending = s.pending := rfl
@[simp] theorem State.clearMem_tnow (s : State) (lo hi : Nat) : (s.clearMem lo hi).tnow = s.tnow := rfl
@[simp] theorem State.clearMem_wsNs (s : State) (lo hi : Nat) : (s.clearMem lo hi).wsNs = s.wsNs := rfl
@[simp] theorem State.clearMem_regs (s : State) (lo hi : Nat) : (s.clearMem lo hi).regs = s.regs := rfl
@[simp] theorem State.clearMem_progErr (s : State) (lo hi : Nat) : (s.clearMem lo hi).progErr = s.progErr := rfl
@[simp] theorem State.clearMem_resp (s : State) (lo hi : Nat) : (s.clearMem lo hi).resp = s.resp := rfl
@[simp] theorem State.clearMem_latched (s : State) (lo hi : Nat) : (s.clearMem lo hi).latched = s.latched := rfl
@[simp] theorem State.clearMem_heldLow (s : State) (lo hi : Nat) : (s.clearMem lo hi).heldLow = s.heldLow := rfl
@[simp] theorem State.clearMem_logNew (s : State) (lo hi : Nat) : (s.clearMem lo hi).logNew = s.logNew := rfl
@[simp] theorem State.clearMem_lostOwed (s : State) (lo hi : Nat) : (s.clearMem lo hi).lostOwed = s.lostOwed := rfl
@[simp] theorem State.clearMem_armAt (s : State) (lo hi : Nat) : (s.clearMem lo hi).armAt = s.armAt := rfl
@[simp] theorem State.clearMem_doms (s : State) (lo hi : Nat) : (s.clearMem lo hi).doms = s.doms := rfl
@[simp] theorem State.clearMem_seqs (s : State) (lo hi : Nat) : (s.clearMem lo hi).seqs = s.seqs := rfl
@[simp] theorem State.clearMem_mapm (s : State) (lo hi : Nat) : (s.clearMem lo hi).mapm = s.mapm := rfl
@[simp] theorem State.clearMem_dataIn (s : State) (lo hi : Nat) : (s.clearMem lo hi).dataIn = s.dataIn := rfl
@[simp] theorem State.clearMem_chans (s : State) (lo hi : Nat) : (s.clearMem lo hi).chans = s.chans := rfl
@[simp] theorem State.clearMem_svcs (s : State) (lo hi : Nat) : (s.clearMem lo hi).svcs = s.svcs := rfl
@[simp] theorem State.clearMem_change (s : State) (lo hi : Nat) : (s.clearMem lo hi).change = s.change := rfl
@[simp] theorem State.clearMem_adcs (s : State) (lo hi : Nat) : (s.clearMem lo hi).adcs = s.adcs := rfl
@[simp] theorem State.clearMem_settle (s : State) (lo hi : Nat) : (s.clearMem lo hi).settle = s.settle := rfl
@[simp] theorem State.clearMem_basins (s : State) (lo hi : Nat) : (s.clearMem lo hi).basins = s.basins := rfl
@[simp] theorem State.clearMem_trkLatch (s : State) (lo hi : Nat) : (s.clearMem lo hi).trkLatch = s.trkLatch := rfl
@[simp] theorem State.clearMem_feeds (s : State) (lo hi : Nat) : (s.clearMem lo hi).feeds = s.feeds := rfl
@[simp] theorem State.clearMem_weightSwap (s : State) (lo hi : Nat) : (s.clearMem lo hi).weightSwap = s.weightSwap := rfl
@[simp] theorem State.clearMem_hold3 (s : State) (lo hi : Nat) : (s.clearMem lo hi).hold3 = s.hold3 := rfl
@[simp] theorem State.clearMem_hold2 (s : State) (lo hi : Nat) : (s.clearMem lo hi).hold2 = s.hold2 := rfl
@[simp] theorem State.clearMem_cmps (s : State) (lo hi : Nat) : (s.clearMem lo hi).cmps = s.cmps := rfl
@[simp] theorem State.clearMem_trips (s : State) (lo hi : Nat) : (s.clearMem lo hi).trips = s.trips := rfl
@[simp] theorem State.clearMem_pwms (s : State) (lo hi : Nat) : (s.clearMem lo hi).pwms = s.pwms := rfl
@[simp] theorem State.clearMem_auxOff (s : State) (lo hi : Nat) : (s.clearMem lo hi).auxOff = s.auxOff := rfl
@[simp] theorem State.clearMem_clkStopAt (s : State) (lo hi : Nat) : (s.clearMem lo hi).clkStopAt = s.clkStopAt := rfl
@[simp] theorem State.clearMem_ioes (s : State) (lo hi : Nat) : (s.clearMem lo hi).ioes = s.ioes := rfl
@[simp] theorem State.clearMem_gio (s : State) (lo hi : Nat) : (s.clearMem lo hi).gio = s.gio := rfl
@[simp] theorem State.clearMem_dmas (s : State) (lo hi : Nat) : (s.clearMem lo hi).dmas = s.dmas := rfl
@[simp] theorem State.clearMem_pcie (s : State) (lo hi : Nat) : (s.clearMem lo hi).pcie = s.pcie := rfl
@[simp] theorem State.clearMem_mspi (s : State) (lo hi : Nat) : (s.clearMem lo hi).mspi = s.mspi := rfl
@[simp] theorem State.clearMem_power (s : State) (lo hi : Nat) : (s.clearMem lo hi).power = s.power := rfl
@[simp] theorem State.clearMem_den (s : State) (lo hi : Nat) : (s.clearMem lo hi).den = s.den := rfl
@[simp] theorem State.clearMem_pair (s : State) (lo hi : Nat) : (s.clearMem lo hi).pair = s.pair := rfl
@[simp] theorem State.clearMem_read_fld (s : State) (lo hi : Nat) (fl : Fld) (j : Nat) : (s.clearMem lo hi).fld fl j = s.fld fl j := rfl
@[simp] theorem State.clearMem_read_flag (s : State) (lo hi : Nat) (fl : Fld) (j : Nat) : (s.clearMem lo hi).flag fl j = s.flag fl j := rfl
@[simp] theorem State.clearMem_read_dom (s : State) (lo hi : Nat) (m : Nat) : (s.clearMem lo hi).dom m = s.dom m := rfl
@[simp] theorem State.clearMem_read_seq (s : State) (lo hi : Nat) (m : Nat) : (s.clearMem lo hi).seq m = s.seq m := rfl
@[simp] theorem State.clearMem_read_chan (s : State) (lo hi : Nat) (m : Nat) : (s.clearMem lo hi).chan m = s.chan m := rfl
@[simp] theorem State.clearMem_read_svc (s : State) (lo hi : Nat) (m : Nat) : (s.clearMem lo hi).svc m = s.svc m := rfl
@[simp] theorem State.clearMem_read_live (s : State) (lo hi : Nat)  : (s.clearMem lo hi).live = s.live := rfl
@[simp] theorem State.clearMem_read_up (s : State) (lo hi : Nat)  : (s.clearMem lo hi).up = s.up := rfl
@[simp] theorem State.clearMem_read_evStopped (s : State) (lo hi : Nat)  : (s.clearMem lo hi).evStopped = s.evStopped := rfl
@[simp] theorem State.clearMem_read_perStopped (s : State) (lo hi : Nat)  : (s.clearMem lo hi).perStopped = s.perStopped := rfl

/-! ### setDom -/

@[simp] theorem State.setDom_pending (s : State) (d : Nat) (x : Domain) : (s.setDom d x).pending = s.pending := rfl
@[simp] theorem State.setDom_tnow (s : State) (d : Nat) (x : Domain) : (s.setDom d x).tnow = s.tnow := rfl
@[simp] theorem State.setDom_wsNs (s : State) (d : Nat) (x : Domain) : (s.setDom d x).wsNs = s.wsNs := rfl
@[simp] theorem State.setDom_regs (s : State) (d : Nat) (x : Domain) : (s.setDom d x).regs = s.regs := rfl
@[simp] theorem State.setDom_mem (s : State) (d : Nat) (x : Domain) : (s.setDom d x).mem = s.mem := rfl
@[simp] theorem State.setDom_progErr (s : State) (d : Nat) (x : Domain) : (s.setDom d x).progErr = s.progErr := rfl
@[simp] theorem State.setDom_resp (s : State) (d : Nat) (x : Domain) : (s.setDom d x).resp = s.resp := rfl
@[simp] theorem State.setDom_latched (s : State) (d : Nat) (x : Domain) : (s.setDom d x).latched = s.latched := rfl
@[simp] theorem State.setDom_heldLow (s : State) (d : Nat) (x : Domain) : (s.setDom d x).heldLow = s.heldLow := rfl
@[simp] theorem State.setDom_logNew (s : State) (d : Nat) (x : Domain) : (s.setDom d x).logNew = s.logNew := rfl
@[simp] theorem State.setDom_lostOwed (s : State) (d : Nat) (x : Domain) : (s.setDom d x).lostOwed = s.lostOwed := rfl
@[simp] theorem State.setDom_armAt (s : State) (d : Nat) (x : Domain) : (s.setDom d x).armAt = s.armAt := rfl
@[simp] theorem State.setDom_seqs (s : State) (d : Nat) (x : Domain) : (s.setDom d x).seqs = s.seqs := rfl
@[simp] theorem State.setDom_mapm (s : State) (d : Nat) (x : Domain) : (s.setDom d x).mapm = s.mapm := rfl
@[simp] theorem State.setDom_dataIn (s : State) (d : Nat) (x : Domain) : (s.setDom d x).dataIn = s.dataIn := rfl
@[simp] theorem State.setDom_chans (s : State) (d : Nat) (x : Domain) : (s.setDom d x).chans = s.chans := rfl
@[simp] theorem State.setDom_svcs (s : State) (d : Nat) (x : Domain) : (s.setDom d x).svcs = s.svcs := rfl
@[simp] theorem State.setDom_change (s : State) (d : Nat) (x : Domain) : (s.setDom d x).change = s.change := rfl
@[simp] theorem State.setDom_adcs (s : State) (d : Nat) (x : Domain) : (s.setDom d x).adcs = s.adcs := rfl
@[simp] theorem State.setDom_settle (s : State) (d : Nat) (x : Domain) : (s.setDom d x).settle = s.settle := rfl
@[simp] theorem State.setDom_basins (s : State) (d : Nat) (x : Domain) : (s.setDom d x).basins = s.basins := rfl
@[simp] theorem State.setDom_trkLatch (s : State) (d : Nat) (x : Domain) : (s.setDom d x).trkLatch = s.trkLatch := rfl
@[simp] theorem State.setDom_feeds (s : State) (d : Nat) (x : Domain) : (s.setDom d x).feeds = s.feeds := rfl
@[simp] theorem State.setDom_weightSwap (s : State) (d : Nat) (x : Domain) : (s.setDom d x).weightSwap = s.weightSwap := rfl
@[simp] theorem State.setDom_hold3 (s : State) (d : Nat) (x : Domain) : (s.setDom d x).hold3 = s.hold3 := rfl
@[simp] theorem State.setDom_hold2 (s : State) (d : Nat) (x : Domain) : (s.setDom d x).hold2 = s.hold2 := rfl
@[simp] theorem State.setDom_cmps (s : State) (d : Nat) (x : Domain) : (s.setDom d x).cmps = s.cmps := rfl
@[simp] theorem State.setDom_trips (s : State) (d : Nat) (x : Domain) : (s.setDom d x).trips = s.trips := rfl
@[simp] theorem State.setDom_pwms (s : State) (d : Nat) (x : Domain) : (s.setDom d x).pwms = s.pwms := rfl
@[simp] theorem State.setDom_auxOff (s : State) (d : Nat) (x : Domain) : (s.setDom d x).auxOff = s.auxOff := rfl
@[simp] theorem State.setDom_clkStopAt (s : State) (d : Nat) (x : Domain) : (s.setDom d x).clkStopAt = s.clkStopAt := rfl
@[simp] theorem State.setDom_ioes (s : State) (d : Nat) (x : Domain) : (s.setDom d x).ioes = s.ioes := rfl
@[simp] theorem State.setDom_gio (s : State) (d : Nat) (x : Domain) : (s.setDom d x).gio = s.gio := rfl
@[simp] theorem State.setDom_dmas (s : State) (d : Nat) (x : Domain) : (s.setDom d x).dmas = s.dmas := rfl
@[simp] theorem State.setDom_pcie (s : State) (d : Nat) (x : Domain) : (s.setDom d x).pcie = s.pcie := rfl
@[simp] theorem State.setDom_mspi (s : State) (d : Nat) (x : Domain) : (s.setDom d x).mspi = s.mspi := rfl
@[simp] theorem State.setDom_power (s : State) (d : Nat) (x : Domain) : (s.setDom d x).power = s.power := rfl
@[simp] theorem State.setDom_den (s : State) (d : Nat) (x : Domain) : (s.setDom d x).den = s.den := rfl
@[simp] theorem State.setDom_pair (s : State) (d : Nat) (x : Domain) : (s.setDom d x).pair = s.pair := rfl
@[simp] theorem State.setDom_read_fld (s : State) (d : Nat) (x : Domain) (fl : Fld) (j : Nat) : (s.setDom d x).fld fl j = s.fld fl j := rfl
@[simp] theorem State.setDom_read_flag (s : State) (d : Nat) (x : Domain) (fl : Fld) (j : Nat) : (s.setDom d x).flag fl j = s.flag fl j := rfl
@[simp] theorem State.setDom_read_byte (s : State) (d : Nat) (x : Domain) (p : Nat) : (s.setDom d x).byte p = s.byte p := rfl
@[simp] theorem State.setDom_read_seq (s : State) (d : Nat) (x : Domain) (m : Nat) : (s.setDom d x).seq m = s.seq m := rfl
@[simp] theorem State.setDom_read_chan (s : State) (d : Nat) (x : Domain) (m : Nat) : (s.setDom d x).chan m = s.chan m := rfl
@[simp] theorem State.setDom_read_svc (s : State) (d : Nat) (x : Domain) (m : Nat) : (s.setDom d x).svc m = s.svc m := rfl
@[simp] theorem State.setDom_read_live (s : State) (d : Nat) (x : Domain)  : (s.setDom d x).live = s.live := rfl
@[simp] theorem State.setDom_read_up (s : State) (d : Nat) (x : Domain)  : (s.setDom d x).up = s.up := rfl
@[simp] theorem State.setDom_read_evStopped (s : State) (d : Nat) (x : Domain)  : (s.setDom d x).evStopped = s.evStopped := rfl
@[simp] theorem State.setDom_read_perStopped (s : State) (d : Nat) (x : Domain)  : (s.setDom d x).perStopped = s.perStopped := rfl

/-! ### setSeq -/

@[simp] theorem State.setSeq_pending (s : State) (n : Nat) (q : Seq) : (s.setSeq n q).pending = s.pending := rfl
@[simp] theorem State.setSeq_tnow (s : State) (n : Nat) (q : Seq) : (s.setSeq n q).tnow = s.tnow := rfl
@[simp] theorem State.setSeq_wsNs (s : State) (n : Nat) (q : Seq) : (s.setSeq n q).wsNs = s.wsNs := rfl
@[simp] theorem State.setSeq_regs (s : State) (n : Nat) (q : Seq) : (s.setSeq n q).regs = s.regs := rfl
@[simp] theorem State.setSeq_mem (s : State) (n : Nat) (q : Seq) : (s.setSeq n q).mem = s.mem := rfl
@[simp] theorem State.setSeq_progErr (s : State) (n : Nat) (q : Seq) : (s.setSeq n q).progErr = s.progErr := rfl
@[simp] theorem State.setSeq_resp (s : State) (n : Nat) (q : Seq) : (s.setSeq n q).resp = s.resp := rfl
@[simp] theorem State.setSeq_latched (s : State) (n : Nat) (q : Seq) : (s.setSeq n q).latched = s.latched := rfl
@[simp] theorem State.setSeq_heldLow (s : State) (n : Nat) (q : Seq) : (s.setSeq n q).heldLow = s.heldLow := rfl
@[simp] theorem State.setSeq_logNew (s : State) (n : Nat) (q : Seq) : (s.setSeq n q).logNew = s.logNew := rfl
@[simp] theorem State.setSeq_lostOwed (s : State) (n : Nat) (q : Seq) : (s.setSeq n q).lostOwed = s.lostOwed := rfl
@[simp] theorem State.setSeq_armAt (s : State) (n : Nat) (q : Seq) : (s.setSeq n q).armAt = s.armAt := rfl
@[simp] theorem State.setSeq_doms (s : State) (n : Nat) (q : Seq) : (s.setSeq n q).doms = s.doms := rfl
@[simp] theorem State.setSeq_mapm (s : State) (n : Nat) (q : Seq) : (s.setSeq n q).mapm = s.mapm := rfl
@[simp] theorem State.setSeq_dataIn (s : State) (n : Nat) (q : Seq) : (s.setSeq n q).dataIn = s.dataIn := rfl
@[simp] theorem State.setSeq_chans (s : State) (n : Nat) (q : Seq) : (s.setSeq n q).chans = s.chans := rfl
@[simp] theorem State.setSeq_svcs (s : State) (n : Nat) (q : Seq) : (s.setSeq n q).svcs = s.svcs := rfl
@[simp] theorem State.setSeq_change (s : State) (n : Nat) (q : Seq) : (s.setSeq n q).change = s.change := rfl
@[simp] theorem State.setSeq_adcs (s : State) (n : Nat) (q : Seq) : (s.setSeq n q).adcs = s.adcs := rfl
@[simp] theorem State.setSeq_settle (s : State) (n : Nat) (q : Seq) : (s.setSeq n q).settle = s.settle := rfl
@[simp] theorem State.setSeq_basins (s : State) (n : Nat) (q : Seq) : (s.setSeq n q).basins = s.basins := rfl
@[simp] theorem State.setSeq_trkLatch (s : State) (n : Nat) (q : Seq) : (s.setSeq n q).trkLatch = s.trkLatch := rfl
@[simp] theorem State.setSeq_feeds (s : State) (n : Nat) (q : Seq) : (s.setSeq n q).feeds = s.feeds := rfl
@[simp] theorem State.setSeq_weightSwap (s : State) (n : Nat) (q : Seq) : (s.setSeq n q).weightSwap = s.weightSwap := rfl
@[simp] theorem State.setSeq_hold3 (s : State) (n : Nat) (q : Seq) : (s.setSeq n q).hold3 = s.hold3 := rfl
@[simp] theorem State.setSeq_hold2 (s : State) (n : Nat) (q : Seq) : (s.setSeq n q).hold2 = s.hold2 := rfl
@[simp] theorem State.setSeq_cmps (s : State) (n : Nat) (q : Seq) : (s.setSeq n q).cmps = s.cmps := rfl
@[simp] theorem State.setSeq_trips (s : State) (n : Nat) (q : Seq) : (s.setSeq n q).trips = s.trips := rfl
@[simp] theorem State.setSeq_pwms (s : State) (n : Nat) (q : Seq) : (s.setSeq n q).pwms = s.pwms := rfl
@[simp] theorem State.setSeq_auxOff (s : State) (n : Nat) (q : Seq) : (s.setSeq n q).auxOff = s.auxOff := rfl
@[simp] theorem State.setSeq_clkStopAt (s : State) (n : Nat) (q : Seq) : (s.setSeq n q).clkStopAt = s.clkStopAt := rfl
@[simp] theorem State.setSeq_ioes (s : State) (n : Nat) (q : Seq) : (s.setSeq n q).ioes = s.ioes := rfl
@[simp] theorem State.setSeq_gio (s : State) (n : Nat) (q : Seq) : (s.setSeq n q).gio = s.gio := rfl
@[simp] theorem State.setSeq_dmas (s : State) (n : Nat) (q : Seq) : (s.setSeq n q).dmas = s.dmas := rfl
@[simp] theorem State.setSeq_pcie (s : State) (n : Nat) (q : Seq) : (s.setSeq n q).pcie = s.pcie := rfl
@[simp] theorem State.setSeq_mspi (s : State) (n : Nat) (q : Seq) : (s.setSeq n q).mspi = s.mspi := rfl
@[simp] theorem State.setSeq_power (s : State) (n : Nat) (q : Seq) : (s.setSeq n q).power = s.power := rfl
@[simp] theorem State.setSeq_den (s : State) (n : Nat) (q : Seq) : (s.setSeq n q).den = s.den := rfl
@[simp] theorem State.setSeq_pair (s : State) (n : Nat) (q : Seq) : (s.setSeq n q).pair = s.pair := rfl
@[simp] theorem State.setSeq_read_fld (s : State) (n : Nat) (q : Seq) (fl : Fld) (j : Nat) : (s.setSeq n q).fld fl j = s.fld fl j := rfl
@[simp] theorem State.setSeq_read_flag (s : State) (n : Nat) (q : Seq) (fl : Fld) (j : Nat) : (s.setSeq n q).flag fl j = s.flag fl j := rfl
@[simp] theorem State.setSeq_read_byte (s : State) (n : Nat) (q : Seq) (p : Nat) : (s.setSeq n q).byte p = s.byte p := rfl
@[simp] theorem State.setSeq_read_dom (s : State) (n : Nat) (q : Seq) (m : Nat) : (s.setSeq n q).dom m = s.dom m := rfl
@[simp] theorem State.setSeq_read_chan (s : State) (n : Nat) (q : Seq) (m : Nat) : (s.setSeq n q).chan m = s.chan m := rfl
@[simp] theorem State.setSeq_read_svc (s : State) (n : Nat) (q : Seq) (m : Nat) : (s.setSeq n q).svc m = s.svc m := rfl
@[simp] theorem State.setSeq_read_live (s : State) (n : Nat) (q : Seq)  : (s.setSeq n q).live = s.live := rfl
@[simp] theorem State.setSeq_read_up (s : State) (n : Nat) (q : Seq)  : (s.setSeq n q).up = s.up := rfl
@[simp] theorem State.setSeq_read_evStopped (s : State) (n : Nat) (q : Seq)  : (s.setSeq n q).evStopped = s.evStopped := rfl
@[simp] theorem State.setSeq_read_perStopped (s : State) (n : Nat) (q : Seq)  : (s.setSeq n q).perStopped = s.perStopped := rfl

/-! ### setChan -/

@[simp] theorem State.setChan_pending (s : State) (c : Nat) (x : Chan) : (s.setChan c x).pending = s.pending := rfl
@[simp] theorem State.setChan_tnow (s : State) (c : Nat) (x : Chan) : (s.setChan c x).tnow = s.tnow := rfl
@[simp] theorem State.setChan_wsNs (s : State) (c : Nat) (x : Chan) : (s.setChan c x).wsNs = s.wsNs := rfl
@[simp] theorem State.setChan_regs (s : State) (c : Nat) (x : Chan) : (s.setChan c x).regs = s.regs := rfl
@[simp] theorem State.setChan_mem (s : State) (c : Nat) (x : Chan) : (s.setChan c x).mem = s.mem := rfl
@[simp] theorem State.setChan_progErr (s : State) (c : Nat) (x : Chan) : (s.setChan c x).progErr = s.progErr := rfl
@[simp] theorem State.setChan_resp (s : State) (c : Nat) (x : Chan) : (s.setChan c x).resp = s.resp := rfl
@[simp] theorem State.setChan_latched (s : State) (c : Nat) (x : Chan) : (s.setChan c x).latched = s.latched := rfl
@[simp] theorem State.setChan_heldLow (s : State) (c : Nat) (x : Chan) : (s.setChan c x).heldLow = s.heldLow := rfl
@[simp] theorem State.setChan_logNew (s : State) (c : Nat) (x : Chan) : (s.setChan c x).logNew = s.logNew := rfl
@[simp] theorem State.setChan_lostOwed (s : State) (c : Nat) (x : Chan) : (s.setChan c x).lostOwed = s.lostOwed := rfl
@[simp] theorem State.setChan_armAt (s : State) (c : Nat) (x : Chan) : (s.setChan c x).armAt = s.armAt := rfl
@[simp] theorem State.setChan_doms (s : State) (c : Nat) (x : Chan) : (s.setChan c x).doms = s.doms := rfl
@[simp] theorem State.setChan_seqs (s : State) (c : Nat) (x : Chan) : (s.setChan c x).seqs = s.seqs := rfl
@[simp] theorem State.setChan_mapm (s : State) (c : Nat) (x : Chan) : (s.setChan c x).mapm = s.mapm := rfl
@[simp] theorem State.setChan_dataIn (s : State) (c : Nat) (x : Chan) : (s.setChan c x).dataIn = s.dataIn := rfl
@[simp] theorem State.setChan_svcs (s : State) (c : Nat) (x : Chan) : (s.setChan c x).svcs = s.svcs := rfl
@[simp] theorem State.setChan_change (s : State) (c : Nat) (x : Chan) : (s.setChan c x).change = s.change := rfl
@[simp] theorem State.setChan_adcs (s : State) (c : Nat) (x : Chan) : (s.setChan c x).adcs = s.adcs := rfl
@[simp] theorem State.setChan_settle (s : State) (c : Nat) (x : Chan) : (s.setChan c x).settle = s.settle := rfl
@[simp] theorem State.setChan_basins (s : State) (c : Nat) (x : Chan) : (s.setChan c x).basins = s.basins := rfl
@[simp] theorem State.setChan_trkLatch (s : State) (c : Nat) (x : Chan) : (s.setChan c x).trkLatch = s.trkLatch := rfl
@[simp] theorem State.setChan_feeds (s : State) (c : Nat) (x : Chan) : (s.setChan c x).feeds = s.feeds := rfl
@[simp] theorem State.setChan_weightSwap (s : State) (c : Nat) (x : Chan) : (s.setChan c x).weightSwap = s.weightSwap := rfl
@[simp] theorem State.setChan_hold3 (s : State) (c : Nat) (x : Chan) : (s.setChan c x).hold3 = s.hold3 := rfl
@[simp] theorem State.setChan_hold2 (s : State) (c : Nat) (x : Chan) : (s.setChan c x).hold2 = s.hold2 := rfl
@[simp] theorem State.setChan_cmps (s : State) (c : Nat) (x : Chan) : (s.setChan c x).cmps = s.cmps := rfl
@[simp] theorem State.setChan_trips (s : State) (c : Nat) (x : Chan) : (s.setChan c x).trips = s.trips := rfl
@[simp] theorem State.setChan_pwms (s : State) (c : Nat) (x : Chan) : (s.setChan c x).pwms = s.pwms := rfl
@[simp] theorem State.setChan_auxOff (s : State) (c : Nat) (x : Chan) : (s.setChan c x).auxOff = s.auxOff := rfl
@[simp] theorem State.setChan_clkStopAt (s : State) (c : Nat) (x : Chan) : (s.setChan c x).clkStopAt = s.clkStopAt := rfl
@[simp] theorem State.setChan_ioes (s : State) (c : Nat) (x : Chan) : (s.setChan c x).ioes = s.ioes := rfl
@[simp] theorem State.setChan_gio (s : State) (c : Nat) (x : Chan) : (s.setChan c x).gio = s.gio := rfl
@[simp] theorem State.setChan_dmas (s : State) (c : Nat) (x : Chan) : (s.setChan c x).dmas = s.dmas := rfl
@[simp] theorem State.setChan_pcie (s : State) (c : Nat) (x : Chan) : (s.setChan c x).pcie = s.pcie := rfl
@[simp] theorem State.setChan_mspi (s : State) (c : Nat) (x : Chan) : (s.setChan c x).mspi = s.mspi := rfl
@[simp] theorem State.setChan_power (s : State) (c : Nat) (x : Chan) : (s.setChan c x).power = s.power := rfl
@[simp] theorem State.setChan_den (s : State) (c : Nat) (x : Chan) : (s.setChan c x).den = s.den := rfl
@[simp] theorem State.setChan_pair (s : State) (c : Nat) (x : Chan) : (s.setChan c x).pair = s.pair := rfl
@[simp] theorem State.setChan_read_fld (s : State) (c : Nat) (x : Chan) (fl : Fld) (j : Nat) : (s.setChan c x).fld fl j = s.fld fl j := rfl
@[simp] theorem State.setChan_read_flag (s : State) (c : Nat) (x : Chan) (fl : Fld) (j : Nat) : (s.setChan c x).flag fl j = s.flag fl j := rfl
@[simp] theorem State.setChan_read_byte (s : State) (c : Nat) (x : Chan) (p : Nat) : (s.setChan c x).byte p = s.byte p := rfl
@[simp] theorem State.setChan_read_dom (s : State) (c : Nat) (x : Chan) (m : Nat) : (s.setChan c x).dom m = s.dom m := rfl
@[simp] theorem State.setChan_read_seq (s : State) (c : Nat) (x : Chan) (m : Nat) : (s.setChan c x).seq m = s.seq m := rfl
@[simp] theorem State.setChan_read_svc (s : State) (c : Nat) (x : Chan) (m : Nat) : (s.setChan c x).svc m = s.svc m := rfl
@[simp] theorem State.setChan_read_live (s : State) (c : Nat) (x : Chan)  : (s.setChan c x).live = s.live := rfl
@[simp] theorem State.setChan_read_up (s : State) (c : Nat) (x : Chan)  : (s.setChan c x).up = s.up := rfl
@[simp] theorem State.setChan_read_evStopped (s : State) (c : Nat) (x : Chan)  : (s.setChan c x).evStopped = s.evStopped := rfl
@[simp] theorem State.setChan_read_perStopped (s : State) (c : Nat) (x : Chan)  : (s.setChan c x).perStopped = s.perStopped := rfl

/-! ### setSvc -/

@[simp] theorem State.setSvc_pending (s : State) (k : Nat) (x : Svc) : (s.setSvc k x).pending = s.pending := rfl
@[simp] theorem State.setSvc_tnow (s : State) (k : Nat) (x : Svc) : (s.setSvc k x).tnow = s.tnow := rfl
@[simp] theorem State.setSvc_wsNs (s : State) (k : Nat) (x : Svc) : (s.setSvc k x).wsNs = s.wsNs := rfl
@[simp] theorem State.setSvc_regs (s : State) (k : Nat) (x : Svc) : (s.setSvc k x).regs = s.regs := rfl
@[simp] theorem State.setSvc_mem (s : State) (k : Nat) (x : Svc) : (s.setSvc k x).mem = s.mem := rfl
@[simp] theorem State.setSvc_progErr (s : State) (k : Nat) (x : Svc) : (s.setSvc k x).progErr = s.progErr := rfl
@[simp] theorem State.setSvc_resp (s : State) (k : Nat) (x : Svc) : (s.setSvc k x).resp = s.resp := rfl
@[simp] theorem State.setSvc_latched (s : State) (k : Nat) (x : Svc) : (s.setSvc k x).latched = s.latched := rfl
@[simp] theorem State.setSvc_heldLow (s : State) (k : Nat) (x : Svc) : (s.setSvc k x).heldLow = s.heldLow := rfl
@[simp] theorem State.setSvc_logNew (s : State) (k : Nat) (x : Svc) : (s.setSvc k x).logNew = s.logNew := rfl
@[simp] theorem State.setSvc_lostOwed (s : State) (k : Nat) (x : Svc) : (s.setSvc k x).lostOwed = s.lostOwed := rfl
@[simp] theorem State.setSvc_armAt (s : State) (k : Nat) (x : Svc) : (s.setSvc k x).armAt = s.armAt := rfl
@[simp] theorem State.setSvc_doms (s : State) (k : Nat) (x : Svc) : (s.setSvc k x).doms = s.doms := rfl
@[simp] theorem State.setSvc_seqs (s : State) (k : Nat) (x : Svc) : (s.setSvc k x).seqs = s.seqs := rfl
@[simp] theorem State.setSvc_mapm (s : State) (k : Nat) (x : Svc) : (s.setSvc k x).mapm = s.mapm := rfl
@[simp] theorem State.setSvc_dataIn (s : State) (k : Nat) (x : Svc) : (s.setSvc k x).dataIn = s.dataIn := rfl
@[simp] theorem State.setSvc_chans (s : State) (k : Nat) (x : Svc) : (s.setSvc k x).chans = s.chans := rfl
@[simp] theorem State.setSvc_change (s : State) (k : Nat) (x : Svc) : (s.setSvc k x).change = s.change := rfl
@[simp] theorem State.setSvc_adcs (s : State) (k : Nat) (x : Svc) : (s.setSvc k x).adcs = s.adcs := rfl
@[simp] theorem State.setSvc_settle (s : State) (k : Nat) (x : Svc) : (s.setSvc k x).settle = s.settle := rfl
@[simp] theorem State.setSvc_basins (s : State) (k : Nat) (x : Svc) : (s.setSvc k x).basins = s.basins := rfl
@[simp] theorem State.setSvc_trkLatch (s : State) (k : Nat) (x : Svc) : (s.setSvc k x).trkLatch = s.trkLatch := rfl
@[simp] theorem State.setSvc_feeds (s : State) (k : Nat) (x : Svc) : (s.setSvc k x).feeds = s.feeds := rfl
@[simp] theorem State.setSvc_weightSwap (s : State) (k : Nat) (x : Svc) : (s.setSvc k x).weightSwap = s.weightSwap := rfl
@[simp] theorem State.setSvc_hold3 (s : State) (k : Nat) (x : Svc) : (s.setSvc k x).hold3 = s.hold3 := rfl
@[simp] theorem State.setSvc_hold2 (s : State) (k : Nat) (x : Svc) : (s.setSvc k x).hold2 = s.hold2 := rfl
@[simp] theorem State.setSvc_cmps (s : State) (k : Nat) (x : Svc) : (s.setSvc k x).cmps = s.cmps := rfl
@[simp] theorem State.setSvc_trips (s : State) (k : Nat) (x : Svc) : (s.setSvc k x).trips = s.trips := rfl
@[simp] theorem State.setSvc_pwms (s : State) (k : Nat) (x : Svc) : (s.setSvc k x).pwms = s.pwms := rfl
@[simp] theorem State.setSvc_auxOff (s : State) (k : Nat) (x : Svc) : (s.setSvc k x).auxOff = s.auxOff := rfl
@[simp] theorem State.setSvc_clkStopAt (s : State) (k : Nat) (x : Svc) : (s.setSvc k x).clkStopAt = s.clkStopAt := rfl
@[simp] theorem State.setSvc_ioes (s : State) (k : Nat) (x : Svc) : (s.setSvc k x).ioes = s.ioes := rfl
@[simp] theorem State.setSvc_gio (s : State) (k : Nat) (x : Svc) : (s.setSvc k x).gio = s.gio := rfl
@[simp] theorem State.setSvc_dmas (s : State) (k : Nat) (x : Svc) : (s.setSvc k x).dmas = s.dmas := rfl
@[simp] theorem State.setSvc_pcie (s : State) (k : Nat) (x : Svc) : (s.setSvc k x).pcie = s.pcie := rfl
@[simp] theorem State.setSvc_mspi (s : State) (k : Nat) (x : Svc) : (s.setSvc k x).mspi = s.mspi := rfl
@[simp] theorem State.setSvc_power (s : State) (k : Nat) (x : Svc) : (s.setSvc k x).power = s.power := rfl
@[simp] theorem State.setSvc_den (s : State) (k : Nat) (x : Svc) : (s.setSvc k x).den = s.den := rfl
@[simp] theorem State.setSvc_pair (s : State) (k : Nat) (x : Svc) : (s.setSvc k x).pair = s.pair := rfl
@[simp] theorem State.setSvc_read_fld (s : State) (k : Nat) (x : Svc) (fl : Fld) (j : Nat) : (s.setSvc k x).fld fl j = s.fld fl j := rfl
@[simp] theorem State.setSvc_read_flag (s : State) (k : Nat) (x : Svc) (fl : Fld) (j : Nat) : (s.setSvc k x).flag fl j = s.flag fl j := rfl
@[simp] theorem State.setSvc_read_byte (s : State) (k : Nat) (x : Svc) (p : Nat) : (s.setSvc k x).byte p = s.byte p := rfl
@[simp] theorem State.setSvc_read_dom (s : State) (k : Nat) (x : Svc) (m : Nat) : (s.setSvc k x).dom m = s.dom m := rfl
@[simp] theorem State.setSvc_read_seq (s : State) (k : Nat) (x : Svc) (m : Nat) : (s.setSvc k x).seq m = s.seq m := rfl
@[simp] theorem State.setSvc_read_chan (s : State) (k : Nat) (x : Svc) (m : Nat) : (s.setSvc k x).chan m = s.chan m := rfl
@[simp] theorem State.setSvc_read_live (s : State) (k : Nat) (x : Svc)  : (s.setSvc k x).live = s.live := rfl
@[simp] theorem State.setSvc_read_up (s : State) (k : Nat) (x : Svc)  : (s.setSvc k x).up = s.up := rfl
@[simp] theorem State.setSvc_read_evStopped (s : State) (k : Nat) (x : Svc)  : (s.setSvc k x).evStopped = s.evStopped := rfl
@[simp] theorem State.setSvc_read_perStopped (s : State) (k : Nat) (x : Svc)  : (s.setSvc k x).perStopped = s.perStopped := rfl

/-! ### log -/

@[simp] theorem State.log_pending (s : State) (c i u e : Nat) : (s.log c i u e).pending = s.pending := rfl
@[simp] theorem State.log_tnow (s : State) (c i u e : Nat) : (s.log c i u e).tnow = s.tnow := rfl
@[simp] theorem State.log_wsNs (s : State) (c i u e : Nat) : (s.log c i u e).wsNs = s.wsNs := rfl
@[simp] theorem State.log_regs (s : State) (c i u e : Nat) : (s.log c i u e).regs = s.regs := rfl
@[simp] theorem State.log_mem (s : State) (c i u e : Nat) : (s.log c i u e).mem = s.mem := rfl
@[simp] theorem State.log_progErr (s : State) (c i u e : Nat) : (s.log c i u e).progErr = s.progErr := rfl
@[simp] theorem State.log_resp (s : State) (c i u e : Nat) : (s.log c i u e).resp = s.resp := rfl
@[simp] theorem State.log_latched (s : State) (c i u e : Nat) : (s.log c i u e).latched = s.latched := rfl
@[simp] theorem State.log_heldLow (s : State) (c i u e : Nat) : (s.log c i u e).heldLow = s.heldLow := rfl
@[simp] theorem State.log_lostOwed (s : State) (c i u e : Nat) : (s.log c i u e).lostOwed = s.lostOwed := rfl
@[simp] theorem State.log_armAt (s : State) (c i u e : Nat) : (s.log c i u e).armAt = s.armAt := rfl
@[simp] theorem State.log_doms (s : State) (c i u e : Nat) : (s.log c i u e).doms = s.doms := rfl
@[simp] theorem State.log_seqs (s : State) (c i u e : Nat) : (s.log c i u e).seqs = s.seqs := rfl
@[simp] theorem State.log_mapm (s : State) (c i u e : Nat) : (s.log c i u e).mapm = s.mapm := rfl
@[simp] theorem State.log_dataIn (s : State) (c i u e : Nat) : (s.log c i u e).dataIn = s.dataIn := rfl
@[simp] theorem State.log_chans (s : State) (c i u e : Nat) : (s.log c i u e).chans = s.chans := rfl
@[simp] theorem State.log_svcs (s : State) (c i u e : Nat) : (s.log c i u e).svcs = s.svcs := rfl
@[simp] theorem State.log_change (s : State) (c i u e : Nat) : (s.log c i u e).change = s.change := rfl
@[simp] theorem State.log_adcs (s : State) (c i u e : Nat) : (s.log c i u e).adcs = s.adcs := rfl
@[simp] theorem State.log_settle (s : State) (c i u e : Nat) : (s.log c i u e).settle = s.settle := rfl
@[simp] theorem State.log_basins (s : State) (c i u e : Nat) : (s.log c i u e).basins = s.basins := rfl
@[simp] theorem State.log_trkLatch (s : State) (c i u e : Nat) : (s.log c i u e).trkLatch = s.trkLatch := rfl
@[simp] theorem State.log_feeds (s : State) (c i u e : Nat) : (s.log c i u e).feeds = s.feeds := rfl
@[simp] theorem State.log_weightSwap (s : State) (c i u e : Nat) : (s.log c i u e).weightSwap = s.weightSwap := rfl
@[simp] theorem State.log_hold3 (s : State) (c i u e : Nat) : (s.log c i u e).hold3 = s.hold3 := rfl
@[simp] theorem State.log_hold2 (s : State) (c i u e : Nat) : (s.log c i u e).hold2 = s.hold2 := rfl
@[simp] theorem State.log_cmps (s : State) (c i u e : Nat) : (s.log c i u e).cmps = s.cmps := rfl
@[simp] theorem State.log_trips (s : State) (c i u e : Nat) : (s.log c i u e).trips = s.trips := rfl
@[simp] theorem State.log_pwms (s : State) (c i u e : Nat) : (s.log c i u e).pwms = s.pwms := rfl
@[simp] theorem State.log_auxOff (s : State) (c i u e : Nat) : (s.log c i u e).auxOff = s.auxOff := rfl
@[simp] theorem State.log_clkStopAt (s : State) (c i u e : Nat) : (s.log c i u e).clkStopAt = s.clkStopAt := rfl
@[simp] theorem State.log_ioes (s : State) (c i u e : Nat) : (s.log c i u e).ioes = s.ioes := rfl
@[simp] theorem State.log_gio (s : State) (c i u e : Nat) : (s.log c i u e).gio = s.gio := rfl
@[simp] theorem State.log_dmas (s : State) (c i u e : Nat) : (s.log c i u e).dmas = s.dmas := rfl
@[simp] theorem State.log_pcie (s : State) (c i u e : Nat) : (s.log c i u e).pcie = s.pcie := rfl
@[simp] theorem State.log_mspi (s : State) (c i u e : Nat) : (s.log c i u e).mspi = s.mspi := rfl
@[simp] theorem State.log_power (s : State) (c i u e : Nat) : (s.log c i u e).power = s.power := rfl
@[simp] theorem State.log_den (s : State) (c i u e : Nat) : (s.log c i u e).den = s.den := rfl
@[simp] theorem State.log_pair (s : State) (c i u e : Nat) : (s.log c i u e).pair = s.pair := rfl
@[simp] theorem State.log_read_fld (s : State) (c i u e : Nat) (fl : Fld) (j : Nat) : (s.log c i u e).fld fl j = s.fld fl j := rfl
@[simp] theorem State.log_read_flag (s : State) (c i u e : Nat) (fl : Fld) (j : Nat) : (s.log c i u e).flag fl j = s.flag fl j := rfl
@[simp] theorem State.log_read_byte (s : State) (c i u e : Nat) (p : Nat) : (s.log c i u e).byte p = s.byte p := rfl
@[simp] theorem State.log_read_dom (s : State) (c i u e : Nat) (m : Nat) : (s.log c i u e).dom m = s.dom m := rfl
@[simp] theorem State.log_read_seq (s : State) (c i u e : Nat) (m : Nat) : (s.log c i u e).seq m = s.seq m := rfl
@[simp] theorem State.log_read_chan (s : State) (c i u e : Nat) (m : Nat) : (s.log c i u e).chan m = s.chan m := rfl
@[simp] theorem State.log_read_svc (s : State) (c i u e : Nat) (m : Nat) : (s.log c i u e).svc m = s.svc m := rfl
@[simp] theorem State.log_read_live (s : State) (c i u e : Nat)  : (s.log c i u e).live = s.live := rfl
@[simp] theorem State.log_read_up (s : State) (c i u e : Nat)  : (s.log c i u e).up = s.up := rfl
@[simp] theorem State.log_read_evStopped (s : State) (c i u e : Nat)  : (s.log c i u e).evStopped = s.evStopped := rfl
@[simp] theorem State.log_read_perStopped (s : State) (c i u e : Nat)  : (s.log c i u e).perStopped = s.perStopped := rfl

/-! ### setAdc -/

@[simp] theorem State.setAdc_pending (s : State) (k : Nat) (x : Adc) : (s.setAdc k x).pending = s.pending := rfl
@[simp] theorem State.setAdc_tnow (s : State) (k : Nat) (x : Adc) : (s.setAdc k x).tnow = s.tnow := rfl
@[simp] theorem State.setAdc_wsNs (s : State) (k : Nat) (x : Adc) : (s.setAdc k x).wsNs = s.wsNs := rfl
@[simp] theorem State.setAdc_regs (s : State) (k : Nat) (x : Adc) : (s.setAdc k x).regs = s.regs := rfl
@[simp] theorem State.setAdc_mem (s : State) (k : Nat) (x : Adc) : (s.setAdc k x).mem = s.mem := rfl
@[simp] theorem State.setAdc_progErr (s : State) (k : Nat) (x : Adc) : (s.setAdc k x).progErr = s.progErr := rfl
@[simp] theorem State.setAdc_resp (s : State) (k : Nat) (x : Adc) : (s.setAdc k x).resp = s.resp := rfl
@[simp] theorem State.setAdc_latched (s : State) (k : Nat) (x : Adc) : (s.setAdc k x).latched = s.latched := rfl
@[simp] theorem State.setAdc_heldLow (s : State) (k : Nat) (x : Adc) : (s.setAdc k x).heldLow = s.heldLow := rfl
@[simp] theorem State.setAdc_logNew (s : State) (k : Nat) (x : Adc) : (s.setAdc k x).logNew = s.logNew := rfl
@[simp] theorem State.setAdc_lostOwed (s : State) (k : Nat) (x : Adc) : (s.setAdc k x).lostOwed = s.lostOwed := rfl
@[simp] theorem State.setAdc_armAt (s : State) (k : Nat) (x : Adc) : (s.setAdc k x).armAt = s.armAt := rfl
@[simp] theorem State.setAdc_doms (s : State) (k : Nat) (x : Adc) : (s.setAdc k x).doms = s.doms := rfl
@[simp] theorem State.setAdc_seqs (s : State) (k : Nat) (x : Adc) : (s.setAdc k x).seqs = s.seqs := rfl
@[simp] theorem State.setAdc_mapm (s : State) (k : Nat) (x : Adc) : (s.setAdc k x).mapm = s.mapm := rfl
@[simp] theorem State.setAdc_dataIn (s : State) (k : Nat) (x : Adc) : (s.setAdc k x).dataIn = s.dataIn := rfl
@[simp] theorem State.setAdc_chans (s : State) (k : Nat) (x : Adc) : (s.setAdc k x).chans = s.chans := rfl
@[simp] theorem State.setAdc_svcs (s : State) (k : Nat) (x : Adc) : (s.setAdc k x).svcs = s.svcs := rfl
@[simp] theorem State.setAdc_change (s : State) (k : Nat) (x : Adc) : (s.setAdc k x).change = s.change := rfl
@[simp] theorem State.setAdc_settle (s : State) (k : Nat) (x : Adc) : (s.setAdc k x).settle = s.settle := rfl
@[simp] theorem State.setAdc_basins (s : State) (k : Nat) (x : Adc) : (s.setAdc k x).basins = s.basins := rfl
@[simp] theorem State.setAdc_trkLatch (s : State) (k : Nat) (x : Adc) : (s.setAdc k x).trkLatch = s.trkLatch := rfl
@[simp] theorem State.setAdc_feeds (s : State) (k : Nat) (x : Adc) : (s.setAdc k x).feeds = s.feeds := rfl
@[simp] theorem State.setAdc_weightSwap (s : State) (k : Nat) (x : Adc) : (s.setAdc k x).weightSwap = s.weightSwap := rfl
@[simp] theorem State.setAdc_hold3 (s : State) (k : Nat) (x : Adc) : (s.setAdc k x).hold3 = s.hold3 := rfl
@[simp] theorem State.setAdc_hold2 (s : State) (k : Nat) (x : Adc) : (s.setAdc k x).hold2 = s.hold2 := rfl
@[simp] theorem State.setAdc_cmps (s : State) (k : Nat) (x : Adc) : (s.setAdc k x).cmps = s.cmps := rfl
@[simp] theorem State.setAdc_trips (s : State) (k : Nat) (x : Adc) : (s.setAdc k x).trips = s.trips := rfl
@[simp] theorem State.setAdc_pwms (s : State) (k : Nat) (x : Adc) : (s.setAdc k x).pwms = s.pwms := rfl
@[simp] theorem State.setAdc_auxOff (s : State) (k : Nat) (x : Adc) : (s.setAdc k x).auxOff = s.auxOff := rfl
@[simp] theorem State.setAdc_clkStopAt (s : State) (k : Nat) (x : Adc) : (s.setAdc k x).clkStopAt = s.clkStopAt := rfl
@[simp] theorem State.setAdc_ioes (s : State) (k : Nat) (x : Adc) : (s.setAdc k x).ioes = s.ioes := rfl
@[simp] theorem State.setAdc_gio (s : State) (k : Nat) (x : Adc) : (s.setAdc k x).gio = s.gio := rfl
@[simp] theorem State.setAdc_dmas (s : State) (k : Nat) (x : Adc) : (s.setAdc k x).dmas = s.dmas := rfl
@[simp] theorem State.setAdc_pcie (s : State) (k : Nat) (x : Adc) : (s.setAdc k x).pcie = s.pcie := rfl
@[simp] theorem State.setAdc_mspi (s : State) (k : Nat) (x : Adc) : (s.setAdc k x).mspi = s.mspi := rfl
@[simp] theorem State.setAdc_power (s : State) (k : Nat) (x : Adc) : (s.setAdc k x).power = s.power := rfl
@[simp] theorem State.setAdc_den (s : State) (k : Nat) (x : Adc) : (s.setAdc k x).den = s.den := rfl
@[simp] theorem State.setAdc_pair (s : State) (k : Nat) (x : Adc) : (s.setAdc k x).pair = s.pair := rfl
@[simp] theorem State.setAdc_read_fld (s : State) (k : Nat) (x : Adc) (fl : Fld) (j : Nat) : (s.setAdc k x).fld fl j = s.fld fl j := rfl
@[simp] theorem State.setAdc_read_flag (s : State) (k : Nat) (x : Adc) (fl : Fld) (j : Nat) : (s.setAdc k x).flag fl j = s.flag fl j := rfl
@[simp] theorem State.setAdc_read_byte (s : State) (k : Nat) (x : Adc) (p : Nat) : (s.setAdc k x).byte p = s.byte p := rfl
@[simp] theorem State.setAdc_read_dom (s : State) (k : Nat) (x : Adc) (m : Nat) : (s.setAdc k x).dom m = s.dom m := rfl
@[simp] theorem State.setAdc_read_seq (s : State) (k : Nat) (x : Adc) (m : Nat) : (s.setAdc k x).seq m = s.seq m := rfl
@[simp] theorem State.setAdc_read_chan (s : State) (k : Nat) (x : Adc) (m : Nat) : (s.setAdc k x).chan m = s.chan m := rfl
@[simp] theorem State.setAdc_read_svc (s : State) (k : Nat) (x : Adc) (m : Nat) : (s.setAdc k x).svc m = s.svc m := rfl
@[simp] theorem State.setAdc_read_live (s : State) (k : Nat) (x : Adc)  : (s.setAdc k x).live = s.live := rfl
@[simp] theorem State.setAdc_read_up (s : State) (k : Nat) (x : Adc)  : (s.setAdc k x).up = s.up := rfl
@[simp] theorem State.setAdc_read_evStopped (s : State) (k : Nat) (x : Adc)  : (s.setAdc k x).evStopped = s.evStopped := rfl
@[simp] theorem State.setAdc_read_perStopped (s : State) (k : Nat) (x : Adc)  : (s.setAdc k x).perStopped = s.perStopped := rfl

/-! ### setBasin -/

@[simp] theorem State.setBasin_pending (s : State) (k : Nat) (x : Basin) : (s.setBasin k x).pending = s.pending := rfl
@[simp] theorem State.setBasin_tnow (s : State) (k : Nat) (x : Basin) : (s.setBasin k x).tnow = s.tnow := rfl
@[simp] theorem State.setBasin_wsNs (s : State) (k : Nat) (x : Basin) : (s.setBasin k x).wsNs = s.wsNs := rfl
@[simp] theorem State.setBasin_regs (s : State) (k : Nat) (x : Basin) : (s.setBasin k x).regs = s.regs := rfl
@[simp] theorem State.setBasin_mem (s : State) (k : Nat) (x : Basin) : (s.setBasin k x).mem = s.mem := rfl
@[simp] theorem State.setBasin_progErr (s : State) (k : Nat) (x : Basin) : (s.setBasin k x).progErr = s.progErr := rfl
@[simp] theorem State.setBasin_resp (s : State) (k : Nat) (x : Basin) : (s.setBasin k x).resp = s.resp := rfl
@[simp] theorem State.setBasin_latched (s : State) (k : Nat) (x : Basin) : (s.setBasin k x).latched = s.latched := rfl
@[simp] theorem State.setBasin_heldLow (s : State) (k : Nat) (x : Basin) : (s.setBasin k x).heldLow = s.heldLow := rfl
@[simp] theorem State.setBasin_logNew (s : State) (k : Nat) (x : Basin) : (s.setBasin k x).logNew = s.logNew := rfl
@[simp] theorem State.setBasin_lostOwed (s : State) (k : Nat) (x : Basin) : (s.setBasin k x).lostOwed = s.lostOwed := rfl
@[simp] theorem State.setBasin_armAt (s : State) (k : Nat) (x : Basin) : (s.setBasin k x).armAt = s.armAt := rfl
@[simp] theorem State.setBasin_doms (s : State) (k : Nat) (x : Basin) : (s.setBasin k x).doms = s.doms := rfl
@[simp] theorem State.setBasin_seqs (s : State) (k : Nat) (x : Basin) : (s.setBasin k x).seqs = s.seqs := rfl
@[simp] theorem State.setBasin_mapm (s : State) (k : Nat) (x : Basin) : (s.setBasin k x).mapm = s.mapm := rfl
@[simp] theorem State.setBasin_dataIn (s : State) (k : Nat) (x : Basin) : (s.setBasin k x).dataIn = s.dataIn := rfl
@[simp] theorem State.setBasin_chans (s : State) (k : Nat) (x : Basin) : (s.setBasin k x).chans = s.chans := rfl
@[simp] theorem State.setBasin_svcs (s : State) (k : Nat) (x : Basin) : (s.setBasin k x).svcs = s.svcs := rfl
@[simp] theorem State.setBasin_change (s : State) (k : Nat) (x : Basin) : (s.setBasin k x).change = s.change := rfl
@[simp] theorem State.setBasin_adcs (s : State) (k : Nat) (x : Basin) : (s.setBasin k x).adcs = s.adcs := rfl
@[simp] theorem State.setBasin_settle (s : State) (k : Nat) (x : Basin) : (s.setBasin k x).settle = s.settle := rfl
@[simp] theorem State.setBasin_trkLatch (s : State) (k : Nat) (x : Basin) : (s.setBasin k x).trkLatch = s.trkLatch := rfl
@[simp] theorem State.setBasin_feeds (s : State) (k : Nat) (x : Basin) : (s.setBasin k x).feeds = s.feeds := rfl
@[simp] theorem State.setBasin_weightSwap (s : State) (k : Nat) (x : Basin) : (s.setBasin k x).weightSwap = s.weightSwap := rfl
@[simp] theorem State.setBasin_hold3 (s : State) (k : Nat) (x : Basin) : (s.setBasin k x).hold3 = s.hold3 := rfl
@[simp] theorem State.setBasin_hold2 (s : State) (k : Nat) (x : Basin) : (s.setBasin k x).hold2 = s.hold2 := rfl
@[simp] theorem State.setBasin_cmps (s : State) (k : Nat) (x : Basin) : (s.setBasin k x).cmps = s.cmps := rfl
@[simp] theorem State.setBasin_trips (s : State) (k : Nat) (x : Basin) : (s.setBasin k x).trips = s.trips := rfl
@[simp] theorem State.setBasin_pwms (s : State) (k : Nat) (x : Basin) : (s.setBasin k x).pwms = s.pwms := rfl
@[simp] theorem State.setBasin_auxOff (s : State) (k : Nat) (x : Basin) : (s.setBasin k x).auxOff = s.auxOff := rfl
@[simp] theorem State.setBasin_clkStopAt (s : State) (k : Nat) (x : Basin) : (s.setBasin k x).clkStopAt = s.clkStopAt := rfl
@[simp] theorem State.setBasin_ioes (s : State) (k : Nat) (x : Basin) : (s.setBasin k x).ioes = s.ioes := rfl
@[simp] theorem State.setBasin_gio (s : State) (k : Nat) (x : Basin) : (s.setBasin k x).gio = s.gio := rfl
@[simp] theorem State.setBasin_dmas (s : State) (k : Nat) (x : Basin) : (s.setBasin k x).dmas = s.dmas := rfl
@[simp] theorem State.setBasin_pcie (s : State) (k : Nat) (x : Basin) : (s.setBasin k x).pcie = s.pcie := rfl
@[simp] theorem State.setBasin_mspi (s : State) (k : Nat) (x : Basin) : (s.setBasin k x).mspi = s.mspi := rfl
@[simp] theorem State.setBasin_power (s : State) (k : Nat) (x : Basin) : (s.setBasin k x).power = s.power := rfl
@[simp] theorem State.setBasin_den (s : State) (k : Nat) (x : Basin) : (s.setBasin k x).den = s.den := rfl
@[simp] theorem State.setBasin_pair (s : State) (k : Nat) (x : Basin) : (s.setBasin k x).pair = s.pair := rfl
@[simp] theorem State.setBasin_read_fld (s : State) (k : Nat) (x : Basin) (fl : Fld) (j : Nat) : (s.setBasin k x).fld fl j = s.fld fl j := rfl
@[simp] theorem State.setBasin_read_flag (s : State) (k : Nat) (x : Basin) (fl : Fld) (j : Nat) : (s.setBasin k x).flag fl j = s.flag fl j := rfl
@[simp] theorem State.setBasin_read_byte (s : State) (k : Nat) (x : Basin) (p : Nat) : (s.setBasin k x).byte p = s.byte p := rfl
@[simp] theorem State.setBasin_read_dom (s : State) (k : Nat) (x : Basin) (m : Nat) : (s.setBasin k x).dom m = s.dom m := rfl
@[simp] theorem State.setBasin_read_seq (s : State) (k : Nat) (x : Basin) (m : Nat) : (s.setBasin k x).seq m = s.seq m := rfl
@[simp] theorem State.setBasin_read_chan (s : State) (k : Nat) (x : Basin) (m : Nat) : (s.setBasin k x).chan m = s.chan m := rfl
@[simp] theorem State.setBasin_read_svc (s : State) (k : Nat) (x : Basin) (m : Nat) : (s.setBasin k x).svc m = s.svc m := rfl
@[simp] theorem State.setBasin_read_live (s : State) (k : Nat) (x : Basin)  : (s.setBasin k x).live = s.live := rfl
@[simp] theorem State.setBasin_read_up (s : State) (k : Nat) (x : Basin)  : (s.setBasin k x).up = s.up := rfl
@[simp] theorem State.setBasin_read_evStopped (s : State) (k : Nat) (x : Basin)  : (s.setBasin k x).evStopped = s.evStopped := rfl
@[simp] theorem State.setBasin_read_perStopped (s : State) (k : Nat) (x : Basin)  : (s.setBasin k x).perStopped = s.perStopped := rfl

/-! ### setFeed -/

@[simp] theorem State.setFeed_pending (s : State) (k : Nat) (x : Feed) : (s.setFeed k x).pending = s.pending := rfl
@[simp] theorem State.setFeed_tnow (s : State) (k : Nat) (x : Feed) : (s.setFeed k x).tnow = s.tnow := rfl
@[simp] theorem State.setFeed_wsNs (s : State) (k : Nat) (x : Feed) : (s.setFeed k x).wsNs = s.wsNs := rfl
@[simp] theorem State.setFeed_regs (s : State) (k : Nat) (x : Feed) : (s.setFeed k x).regs = s.regs := rfl
@[simp] theorem State.setFeed_mem (s : State) (k : Nat) (x : Feed) : (s.setFeed k x).mem = s.mem := rfl
@[simp] theorem State.setFeed_progErr (s : State) (k : Nat) (x : Feed) : (s.setFeed k x).progErr = s.progErr := rfl
@[simp] theorem State.setFeed_resp (s : State) (k : Nat) (x : Feed) : (s.setFeed k x).resp = s.resp := rfl
@[simp] theorem State.setFeed_latched (s : State) (k : Nat) (x : Feed) : (s.setFeed k x).latched = s.latched := rfl
@[simp] theorem State.setFeed_heldLow (s : State) (k : Nat) (x : Feed) : (s.setFeed k x).heldLow = s.heldLow := rfl
@[simp] theorem State.setFeed_logNew (s : State) (k : Nat) (x : Feed) : (s.setFeed k x).logNew = s.logNew := rfl
@[simp] theorem State.setFeed_lostOwed (s : State) (k : Nat) (x : Feed) : (s.setFeed k x).lostOwed = s.lostOwed := rfl
@[simp] theorem State.setFeed_armAt (s : State) (k : Nat) (x : Feed) : (s.setFeed k x).armAt = s.armAt := rfl
@[simp] theorem State.setFeed_doms (s : State) (k : Nat) (x : Feed) : (s.setFeed k x).doms = s.doms := rfl
@[simp] theorem State.setFeed_seqs (s : State) (k : Nat) (x : Feed) : (s.setFeed k x).seqs = s.seqs := rfl
@[simp] theorem State.setFeed_mapm (s : State) (k : Nat) (x : Feed) : (s.setFeed k x).mapm = s.mapm := rfl
@[simp] theorem State.setFeed_dataIn (s : State) (k : Nat) (x : Feed) : (s.setFeed k x).dataIn = s.dataIn := rfl
@[simp] theorem State.setFeed_chans (s : State) (k : Nat) (x : Feed) : (s.setFeed k x).chans = s.chans := rfl
@[simp] theorem State.setFeed_svcs (s : State) (k : Nat) (x : Feed) : (s.setFeed k x).svcs = s.svcs := rfl
@[simp] theorem State.setFeed_change (s : State) (k : Nat) (x : Feed) : (s.setFeed k x).change = s.change := rfl
@[simp] theorem State.setFeed_adcs (s : State) (k : Nat) (x : Feed) : (s.setFeed k x).adcs = s.adcs := rfl
@[simp] theorem State.setFeed_settle (s : State) (k : Nat) (x : Feed) : (s.setFeed k x).settle = s.settle := rfl
@[simp] theorem State.setFeed_basins (s : State) (k : Nat) (x : Feed) : (s.setFeed k x).basins = s.basins := rfl
@[simp] theorem State.setFeed_trkLatch (s : State) (k : Nat) (x : Feed) : (s.setFeed k x).trkLatch = s.trkLatch := rfl
@[simp] theorem State.setFeed_weightSwap (s : State) (k : Nat) (x : Feed) : (s.setFeed k x).weightSwap = s.weightSwap := rfl
@[simp] theorem State.setFeed_hold3 (s : State) (k : Nat) (x : Feed) : (s.setFeed k x).hold3 = s.hold3 := rfl
@[simp] theorem State.setFeed_hold2 (s : State) (k : Nat) (x : Feed) : (s.setFeed k x).hold2 = s.hold2 := rfl
@[simp] theorem State.setFeed_cmps (s : State) (k : Nat) (x : Feed) : (s.setFeed k x).cmps = s.cmps := rfl
@[simp] theorem State.setFeed_trips (s : State) (k : Nat) (x : Feed) : (s.setFeed k x).trips = s.trips := rfl
@[simp] theorem State.setFeed_pwms (s : State) (k : Nat) (x : Feed) : (s.setFeed k x).pwms = s.pwms := rfl
@[simp] theorem State.setFeed_auxOff (s : State) (k : Nat) (x : Feed) : (s.setFeed k x).auxOff = s.auxOff := rfl
@[simp] theorem State.setFeed_clkStopAt (s : State) (k : Nat) (x : Feed) : (s.setFeed k x).clkStopAt = s.clkStopAt := rfl
@[simp] theorem State.setFeed_ioes (s : State) (k : Nat) (x : Feed) : (s.setFeed k x).ioes = s.ioes := rfl
@[simp] theorem State.setFeed_gio (s : State) (k : Nat) (x : Feed) : (s.setFeed k x).gio = s.gio := rfl
@[simp] theorem State.setFeed_dmas (s : State) (k : Nat) (x : Feed) : (s.setFeed k x).dmas = s.dmas := rfl
@[simp] theorem State.setFeed_pcie (s : State) (k : Nat) (x : Feed) : (s.setFeed k x).pcie = s.pcie := rfl
@[simp] theorem State.setFeed_mspi (s : State) (k : Nat) (x : Feed) : (s.setFeed k x).mspi = s.mspi := rfl
@[simp] theorem State.setFeed_power (s : State) (k : Nat) (x : Feed) : (s.setFeed k x).power = s.power := rfl
@[simp] theorem State.setFeed_den (s : State) (k : Nat) (x : Feed) : (s.setFeed k x).den = s.den := rfl
@[simp] theorem State.setFeed_pair (s : State) (k : Nat) (x : Feed) : (s.setFeed k x).pair = s.pair := rfl
@[simp] theorem State.setFeed_read_fld (s : State) (k : Nat) (x : Feed) (fl : Fld) (j : Nat) : (s.setFeed k x).fld fl j = s.fld fl j := rfl
@[simp] theorem State.setFeed_read_flag (s : State) (k : Nat) (x : Feed) (fl : Fld) (j : Nat) : (s.setFeed k x).flag fl j = s.flag fl j := rfl
@[simp] theorem State.setFeed_read_byte (s : State) (k : Nat) (x : Feed) (p : Nat) : (s.setFeed k x).byte p = s.byte p := rfl
@[simp] theorem State.setFeed_read_dom (s : State) (k : Nat) (x : Feed) (m : Nat) : (s.setFeed k x).dom m = s.dom m := rfl
@[simp] theorem State.setFeed_read_seq (s : State) (k : Nat) (x : Feed) (m : Nat) : (s.setFeed k x).seq m = s.seq m := rfl
@[simp] theorem State.setFeed_read_chan (s : State) (k : Nat) (x : Feed) (m : Nat) : (s.setFeed k x).chan m = s.chan m := rfl
@[simp] theorem State.setFeed_read_svc (s : State) (k : Nat) (x : Feed) (m : Nat) : (s.setFeed k x).svc m = s.svc m := rfl
@[simp] theorem State.setFeed_read_live (s : State) (k : Nat) (x : Feed)  : (s.setFeed k x).live = s.live := rfl
@[simp] theorem State.setFeed_read_up (s : State) (k : Nat) (x : Feed)  : (s.setFeed k x).up = s.up := rfl
@[simp] theorem State.setFeed_read_evStopped (s : State) (k : Nat) (x : Feed)  : (s.setFeed k x).evStopped = s.evStopped := rfl
@[simp] theorem State.setFeed_read_perStopped (s : State) (k : Nat) (x : Feed)  : (s.setFeed k x).perStopped = s.perStopped := rfl

/-! ### setCmp -/

@[simp] theorem State.setCmp_pending (s : State) (k : Nat) (x : Cmp) : (s.setCmp k x).pending = s.pending := rfl
@[simp] theorem State.setCmp_tnow (s : State) (k : Nat) (x : Cmp) : (s.setCmp k x).tnow = s.tnow := rfl
@[simp] theorem State.setCmp_wsNs (s : State) (k : Nat) (x : Cmp) : (s.setCmp k x).wsNs = s.wsNs := rfl
@[simp] theorem State.setCmp_regs (s : State) (k : Nat) (x : Cmp) : (s.setCmp k x).regs = s.regs := rfl
@[simp] theorem State.setCmp_mem (s : State) (k : Nat) (x : Cmp) : (s.setCmp k x).mem = s.mem := rfl
@[simp] theorem State.setCmp_progErr (s : State) (k : Nat) (x : Cmp) : (s.setCmp k x).progErr = s.progErr := rfl
@[simp] theorem State.setCmp_resp (s : State) (k : Nat) (x : Cmp) : (s.setCmp k x).resp = s.resp := rfl
@[simp] theorem State.setCmp_latched (s : State) (k : Nat) (x : Cmp) : (s.setCmp k x).latched = s.latched := rfl
@[simp] theorem State.setCmp_heldLow (s : State) (k : Nat) (x : Cmp) : (s.setCmp k x).heldLow = s.heldLow := rfl
@[simp] theorem State.setCmp_logNew (s : State) (k : Nat) (x : Cmp) : (s.setCmp k x).logNew = s.logNew := rfl
@[simp] theorem State.setCmp_lostOwed (s : State) (k : Nat) (x : Cmp) : (s.setCmp k x).lostOwed = s.lostOwed := rfl
@[simp] theorem State.setCmp_armAt (s : State) (k : Nat) (x : Cmp) : (s.setCmp k x).armAt = s.armAt := rfl
@[simp] theorem State.setCmp_doms (s : State) (k : Nat) (x : Cmp) : (s.setCmp k x).doms = s.doms := rfl
@[simp] theorem State.setCmp_seqs (s : State) (k : Nat) (x : Cmp) : (s.setCmp k x).seqs = s.seqs := rfl
@[simp] theorem State.setCmp_mapm (s : State) (k : Nat) (x : Cmp) : (s.setCmp k x).mapm = s.mapm := rfl
@[simp] theorem State.setCmp_dataIn (s : State) (k : Nat) (x : Cmp) : (s.setCmp k x).dataIn = s.dataIn := rfl
@[simp] theorem State.setCmp_chans (s : State) (k : Nat) (x : Cmp) : (s.setCmp k x).chans = s.chans := rfl
@[simp] theorem State.setCmp_svcs (s : State) (k : Nat) (x : Cmp) : (s.setCmp k x).svcs = s.svcs := rfl
@[simp] theorem State.setCmp_change (s : State) (k : Nat) (x : Cmp) : (s.setCmp k x).change = s.change := rfl
@[simp] theorem State.setCmp_adcs (s : State) (k : Nat) (x : Cmp) : (s.setCmp k x).adcs = s.adcs := rfl
@[simp] theorem State.setCmp_settle (s : State) (k : Nat) (x : Cmp) : (s.setCmp k x).settle = s.settle := rfl
@[simp] theorem State.setCmp_basins (s : State) (k : Nat) (x : Cmp) : (s.setCmp k x).basins = s.basins := rfl
@[simp] theorem State.setCmp_trkLatch (s : State) (k : Nat) (x : Cmp) : (s.setCmp k x).trkLatch = s.trkLatch := rfl
@[simp] theorem State.setCmp_feeds (s : State) (k : Nat) (x : Cmp) : (s.setCmp k x).feeds = s.feeds := rfl
@[simp] theorem State.setCmp_weightSwap (s : State) (k : Nat) (x : Cmp) : (s.setCmp k x).weightSwap = s.weightSwap := rfl
@[simp] theorem State.setCmp_hold3 (s : State) (k : Nat) (x : Cmp) : (s.setCmp k x).hold3 = s.hold3 := rfl
@[simp] theorem State.setCmp_hold2 (s : State) (k : Nat) (x : Cmp) : (s.setCmp k x).hold2 = s.hold2 := rfl
@[simp] theorem State.setCmp_trips (s : State) (k : Nat) (x : Cmp) : (s.setCmp k x).trips = s.trips := rfl
@[simp] theorem State.setCmp_pwms (s : State) (k : Nat) (x : Cmp) : (s.setCmp k x).pwms = s.pwms := rfl
@[simp] theorem State.setCmp_auxOff (s : State) (k : Nat) (x : Cmp) : (s.setCmp k x).auxOff = s.auxOff := rfl
@[simp] theorem State.setCmp_clkStopAt (s : State) (k : Nat) (x : Cmp) : (s.setCmp k x).clkStopAt = s.clkStopAt := rfl
@[simp] theorem State.setCmp_ioes (s : State) (k : Nat) (x : Cmp) : (s.setCmp k x).ioes = s.ioes := rfl
@[simp] theorem State.setCmp_gio (s : State) (k : Nat) (x : Cmp) : (s.setCmp k x).gio = s.gio := rfl
@[simp] theorem State.setCmp_dmas (s : State) (k : Nat) (x : Cmp) : (s.setCmp k x).dmas = s.dmas := rfl
@[simp] theorem State.setCmp_pcie (s : State) (k : Nat) (x : Cmp) : (s.setCmp k x).pcie = s.pcie := rfl
@[simp] theorem State.setCmp_mspi (s : State) (k : Nat) (x : Cmp) : (s.setCmp k x).mspi = s.mspi := rfl
@[simp] theorem State.setCmp_power (s : State) (k : Nat) (x : Cmp) : (s.setCmp k x).power = s.power := rfl
@[simp] theorem State.setCmp_den (s : State) (k : Nat) (x : Cmp) : (s.setCmp k x).den = s.den := rfl
@[simp] theorem State.setCmp_pair (s : State) (k : Nat) (x : Cmp) : (s.setCmp k x).pair = s.pair := rfl
@[simp] theorem State.setCmp_read_fld (s : State) (k : Nat) (x : Cmp) (fl : Fld) (j : Nat) : (s.setCmp k x).fld fl j = s.fld fl j := rfl
@[simp] theorem State.setCmp_read_flag (s : State) (k : Nat) (x : Cmp) (fl : Fld) (j : Nat) : (s.setCmp k x).flag fl j = s.flag fl j := rfl
@[simp] theorem State.setCmp_read_byte (s : State) (k : Nat) (x : Cmp) (p : Nat) : (s.setCmp k x).byte p = s.byte p := rfl
@[simp] theorem State.setCmp_read_dom (s : State) (k : Nat) (x : Cmp) (m : Nat) : (s.setCmp k x).dom m = s.dom m := rfl
@[simp] theorem State.setCmp_read_seq (s : State) (k : Nat) (x : Cmp) (m : Nat) : (s.setCmp k x).seq m = s.seq m := rfl
@[simp] theorem State.setCmp_read_chan (s : State) (k : Nat) (x : Cmp) (m : Nat) : (s.setCmp k x).chan m = s.chan m := rfl
@[simp] theorem State.setCmp_read_svc (s : State) (k : Nat) (x : Cmp) (m : Nat) : (s.setCmp k x).svc m = s.svc m := rfl
@[simp] theorem State.setCmp_read_live (s : State) (k : Nat) (x : Cmp)  : (s.setCmp k x).live = s.live := rfl
@[simp] theorem State.setCmp_read_up (s : State) (k : Nat) (x : Cmp)  : (s.setCmp k x).up = s.up := rfl
@[simp] theorem State.setCmp_read_evStopped (s : State) (k : Nat) (x : Cmp)  : (s.setCmp k x).evStopped = s.evStopped := rfl
@[simp] theorem State.setCmp_read_perStopped (s : State) (k : Nat) (x : Cmp)  : (s.setCmp k x).perStopped = s.perStopped := rfl

/-! ### setPwm -/

@[simp] theorem State.setPwm_pending (s : State) (g : Nat) (x : Pwm) : (s.setPwm g x).pending = s.pending := rfl
@[simp] theorem State.setPwm_tnow (s : State) (g : Nat) (x : Pwm) : (s.setPwm g x).tnow = s.tnow := rfl
@[simp] theorem State.setPwm_wsNs (s : State) (g : Nat) (x : Pwm) : (s.setPwm g x).wsNs = s.wsNs := rfl
@[simp] theorem State.setPwm_regs (s : State) (g : Nat) (x : Pwm) : (s.setPwm g x).regs = s.regs := rfl
@[simp] theorem State.setPwm_mem (s : State) (g : Nat) (x : Pwm) : (s.setPwm g x).mem = s.mem := rfl
@[simp] theorem State.setPwm_progErr (s : State) (g : Nat) (x : Pwm) : (s.setPwm g x).progErr = s.progErr := rfl
@[simp] theorem State.setPwm_resp (s : State) (g : Nat) (x : Pwm) : (s.setPwm g x).resp = s.resp := rfl
@[simp] theorem State.setPwm_latched (s : State) (g : Nat) (x : Pwm) : (s.setPwm g x).latched = s.latched := rfl
@[simp] theorem State.setPwm_heldLow (s : State) (g : Nat) (x : Pwm) : (s.setPwm g x).heldLow = s.heldLow := rfl
@[simp] theorem State.setPwm_logNew (s : State) (g : Nat) (x : Pwm) : (s.setPwm g x).logNew = s.logNew := rfl
@[simp] theorem State.setPwm_lostOwed (s : State) (g : Nat) (x : Pwm) : (s.setPwm g x).lostOwed = s.lostOwed := rfl
@[simp] theorem State.setPwm_armAt (s : State) (g : Nat) (x : Pwm) : (s.setPwm g x).armAt = s.armAt := rfl
@[simp] theorem State.setPwm_doms (s : State) (g : Nat) (x : Pwm) : (s.setPwm g x).doms = s.doms := rfl
@[simp] theorem State.setPwm_seqs (s : State) (g : Nat) (x : Pwm) : (s.setPwm g x).seqs = s.seqs := rfl
@[simp] theorem State.setPwm_mapm (s : State) (g : Nat) (x : Pwm) : (s.setPwm g x).mapm = s.mapm := rfl
@[simp] theorem State.setPwm_dataIn (s : State) (g : Nat) (x : Pwm) : (s.setPwm g x).dataIn = s.dataIn := rfl
@[simp] theorem State.setPwm_chans (s : State) (g : Nat) (x : Pwm) : (s.setPwm g x).chans = s.chans := rfl
@[simp] theorem State.setPwm_svcs (s : State) (g : Nat) (x : Pwm) : (s.setPwm g x).svcs = s.svcs := rfl
@[simp] theorem State.setPwm_change (s : State) (g : Nat) (x : Pwm) : (s.setPwm g x).change = s.change := rfl
@[simp] theorem State.setPwm_adcs (s : State) (g : Nat) (x : Pwm) : (s.setPwm g x).adcs = s.adcs := rfl
@[simp] theorem State.setPwm_settle (s : State) (g : Nat) (x : Pwm) : (s.setPwm g x).settle = s.settle := rfl
@[simp] theorem State.setPwm_basins (s : State) (g : Nat) (x : Pwm) : (s.setPwm g x).basins = s.basins := rfl
@[simp] theorem State.setPwm_trkLatch (s : State) (g : Nat) (x : Pwm) : (s.setPwm g x).trkLatch = s.trkLatch := rfl
@[simp] theorem State.setPwm_feeds (s : State) (g : Nat) (x : Pwm) : (s.setPwm g x).feeds = s.feeds := rfl
@[simp] theorem State.setPwm_weightSwap (s : State) (g : Nat) (x : Pwm) : (s.setPwm g x).weightSwap = s.weightSwap := rfl
@[simp] theorem State.setPwm_hold3 (s : State) (g : Nat) (x : Pwm) : (s.setPwm g x).hold3 = s.hold3 := rfl
@[simp] theorem State.setPwm_hold2 (s : State) (g : Nat) (x : Pwm) : (s.setPwm g x).hold2 = s.hold2 := rfl
@[simp] theorem State.setPwm_cmps (s : State) (g : Nat) (x : Pwm) : (s.setPwm g x).cmps = s.cmps := rfl
@[simp] theorem State.setPwm_trips (s : State) (g : Nat) (x : Pwm) : (s.setPwm g x).trips = s.trips := rfl
@[simp] theorem State.setPwm_auxOff (s : State) (g : Nat) (x : Pwm) : (s.setPwm g x).auxOff = s.auxOff := rfl
@[simp] theorem State.setPwm_clkStopAt (s : State) (g : Nat) (x : Pwm) : (s.setPwm g x).clkStopAt = s.clkStopAt := rfl
@[simp] theorem State.setPwm_ioes (s : State) (g : Nat) (x : Pwm) : (s.setPwm g x).ioes = s.ioes := rfl
@[simp] theorem State.setPwm_gio (s : State) (g : Nat) (x : Pwm) : (s.setPwm g x).gio = s.gio := rfl
@[simp] theorem State.setPwm_dmas (s : State) (g : Nat) (x : Pwm) : (s.setPwm g x).dmas = s.dmas := rfl
@[simp] theorem State.setPwm_pcie (s : State) (g : Nat) (x : Pwm) : (s.setPwm g x).pcie = s.pcie := rfl
@[simp] theorem State.setPwm_mspi (s : State) (g : Nat) (x : Pwm) : (s.setPwm g x).mspi = s.mspi := rfl
@[simp] theorem State.setPwm_power (s : State) (g : Nat) (x : Pwm) : (s.setPwm g x).power = s.power := rfl
@[simp] theorem State.setPwm_den (s : State) (g : Nat) (x : Pwm) : (s.setPwm g x).den = s.den := rfl
@[simp] theorem State.setPwm_pair (s : State) (g : Nat) (x : Pwm) : (s.setPwm g x).pair = s.pair := rfl
@[simp] theorem State.setPwm_read_fld (s : State) (g : Nat) (x : Pwm) (fl : Fld) (j : Nat) : (s.setPwm g x).fld fl j = s.fld fl j := rfl
@[simp] theorem State.setPwm_read_flag (s : State) (g : Nat) (x : Pwm) (fl : Fld) (j : Nat) : (s.setPwm g x).flag fl j = s.flag fl j := rfl
@[simp] theorem State.setPwm_read_byte (s : State) (g : Nat) (x : Pwm) (p : Nat) : (s.setPwm g x).byte p = s.byte p := rfl
@[simp] theorem State.setPwm_read_dom (s : State) (g : Nat) (x : Pwm) (m : Nat) : (s.setPwm g x).dom m = s.dom m := rfl
@[simp] theorem State.setPwm_read_seq (s : State) (g : Nat) (x : Pwm) (m : Nat) : (s.setPwm g x).seq m = s.seq m := rfl
@[simp] theorem State.setPwm_read_chan (s : State) (g : Nat) (x : Pwm) (m : Nat) : (s.setPwm g x).chan m = s.chan m := rfl
@[simp] theorem State.setPwm_read_svc (s : State) (g : Nat) (x : Pwm) (m : Nat) : (s.setPwm g x).svc m = s.svc m := rfl
@[simp] theorem State.setPwm_read_live (s : State) (g : Nat) (x : Pwm)  : (s.setPwm g x).live = s.live := rfl
@[simp] theorem State.setPwm_read_up (s : State) (g : Nat) (x : Pwm)  : (s.setPwm g x).up = s.up := rfl
@[simp] theorem State.setPwm_read_evStopped (s : State) (g : Nat) (x : Pwm)  : (s.setPwm g x).evStopped = s.evStopped := rfl
@[simp] theorem State.setPwm_read_perStopped (s : State) (g : Nat) (x : Pwm)  : (s.setPwm g x).perStopped = s.perStopped := rfl

/-! ### setTrip -/

@[simp] theorem State.setTrip_pending (s : State) (k : Nat) (x : Trip) : (s.setTrip k x).pending = s.pending := rfl
@[simp] theorem State.setTrip_tnow (s : State) (k : Nat) (x : Trip) : (s.setTrip k x).tnow = s.tnow := rfl
@[simp] theorem State.setTrip_wsNs (s : State) (k : Nat) (x : Trip) : (s.setTrip k x).wsNs = s.wsNs := rfl
@[simp] theorem State.setTrip_regs (s : State) (k : Nat) (x : Trip) : (s.setTrip k x).regs = s.regs := rfl
@[simp] theorem State.setTrip_mem (s : State) (k : Nat) (x : Trip) : (s.setTrip k x).mem = s.mem := rfl
@[simp] theorem State.setTrip_progErr (s : State) (k : Nat) (x : Trip) : (s.setTrip k x).progErr = s.progErr := rfl
@[simp] theorem State.setTrip_resp (s : State) (k : Nat) (x : Trip) : (s.setTrip k x).resp = s.resp := rfl
@[simp] theorem State.setTrip_latched (s : State) (k : Nat) (x : Trip) : (s.setTrip k x).latched = s.latched := rfl
@[simp] theorem State.setTrip_heldLow (s : State) (k : Nat) (x : Trip) : (s.setTrip k x).heldLow = s.heldLow := rfl
@[simp] theorem State.setTrip_logNew (s : State) (k : Nat) (x : Trip) : (s.setTrip k x).logNew = s.logNew := rfl
@[simp] theorem State.setTrip_lostOwed (s : State) (k : Nat) (x : Trip) : (s.setTrip k x).lostOwed = s.lostOwed := rfl
@[simp] theorem State.setTrip_armAt (s : State) (k : Nat) (x : Trip) : (s.setTrip k x).armAt = s.armAt := rfl
@[simp] theorem State.setTrip_doms (s : State) (k : Nat) (x : Trip) : (s.setTrip k x).doms = s.doms := rfl
@[simp] theorem State.setTrip_seqs (s : State) (k : Nat) (x : Trip) : (s.setTrip k x).seqs = s.seqs := rfl
@[simp] theorem State.setTrip_mapm (s : State) (k : Nat) (x : Trip) : (s.setTrip k x).mapm = s.mapm := rfl
@[simp] theorem State.setTrip_dataIn (s : State) (k : Nat) (x : Trip) : (s.setTrip k x).dataIn = s.dataIn := rfl
@[simp] theorem State.setTrip_chans (s : State) (k : Nat) (x : Trip) : (s.setTrip k x).chans = s.chans := rfl
@[simp] theorem State.setTrip_svcs (s : State) (k : Nat) (x : Trip) : (s.setTrip k x).svcs = s.svcs := rfl
@[simp] theorem State.setTrip_change (s : State) (k : Nat) (x : Trip) : (s.setTrip k x).change = s.change := rfl
@[simp] theorem State.setTrip_adcs (s : State) (k : Nat) (x : Trip) : (s.setTrip k x).adcs = s.adcs := rfl
@[simp] theorem State.setTrip_settle (s : State) (k : Nat) (x : Trip) : (s.setTrip k x).settle = s.settle := rfl
@[simp] theorem State.setTrip_basins (s : State) (k : Nat) (x : Trip) : (s.setTrip k x).basins = s.basins := rfl
@[simp] theorem State.setTrip_trkLatch (s : State) (k : Nat) (x : Trip) : (s.setTrip k x).trkLatch = s.trkLatch := rfl
@[simp] theorem State.setTrip_feeds (s : State) (k : Nat) (x : Trip) : (s.setTrip k x).feeds = s.feeds := rfl
@[simp] theorem State.setTrip_weightSwap (s : State) (k : Nat) (x : Trip) : (s.setTrip k x).weightSwap = s.weightSwap := rfl
@[simp] theorem State.setTrip_hold3 (s : State) (k : Nat) (x : Trip) : (s.setTrip k x).hold3 = s.hold3 := rfl
@[simp] theorem State.setTrip_hold2 (s : State) (k : Nat) (x : Trip) : (s.setTrip k x).hold2 = s.hold2 := rfl
@[simp] theorem State.setTrip_cmps (s : State) (k : Nat) (x : Trip) : (s.setTrip k x).cmps = s.cmps := rfl
@[simp] theorem State.setTrip_pwms (s : State) (k : Nat) (x : Trip) : (s.setTrip k x).pwms = s.pwms := rfl
@[simp] theorem State.setTrip_auxOff (s : State) (k : Nat) (x : Trip) : (s.setTrip k x).auxOff = s.auxOff := rfl
@[simp] theorem State.setTrip_clkStopAt (s : State) (k : Nat) (x : Trip) : (s.setTrip k x).clkStopAt = s.clkStopAt := rfl
@[simp] theorem State.setTrip_ioes (s : State) (k : Nat) (x : Trip) : (s.setTrip k x).ioes = s.ioes := rfl
@[simp] theorem State.setTrip_gio (s : State) (k : Nat) (x : Trip) : (s.setTrip k x).gio = s.gio := rfl
@[simp] theorem State.setTrip_dmas (s : State) (k : Nat) (x : Trip) : (s.setTrip k x).dmas = s.dmas := rfl
@[simp] theorem State.setTrip_pcie (s : State) (k : Nat) (x : Trip) : (s.setTrip k x).pcie = s.pcie := rfl
@[simp] theorem State.setTrip_mspi (s : State) (k : Nat) (x : Trip) : (s.setTrip k x).mspi = s.mspi := rfl
@[simp] theorem State.setTrip_power (s : State) (k : Nat) (x : Trip) : (s.setTrip k x).power = s.power := rfl
@[simp] theorem State.setTrip_den (s : State) (k : Nat) (x : Trip) : (s.setTrip k x).den = s.den := rfl
@[simp] theorem State.setTrip_pair (s : State) (k : Nat) (x : Trip) : (s.setTrip k x).pair = s.pair := rfl
@[simp] theorem State.setTrip_read_fld (s : State) (k : Nat) (x : Trip) (fl : Fld) (j : Nat) : (s.setTrip k x).fld fl j = s.fld fl j := rfl
@[simp] theorem State.setTrip_read_flag (s : State) (k : Nat) (x : Trip) (fl : Fld) (j : Nat) : (s.setTrip k x).flag fl j = s.flag fl j := rfl
@[simp] theorem State.setTrip_read_byte (s : State) (k : Nat) (x : Trip) (p : Nat) : (s.setTrip k x).byte p = s.byte p := rfl
@[simp] theorem State.setTrip_read_dom (s : State) (k : Nat) (x : Trip) (m : Nat) : (s.setTrip k x).dom m = s.dom m := rfl
@[simp] theorem State.setTrip_read_seq (s : State) (k : Nat) (x : Trip) (m : Nat) : (s.setTrip k x).seq m = s.seq m := rfl
@[simp] theorem State.setTrip_read_chan (s : State) (k : Nat) (x : Trip) (m : Nat) : (s.setTrip k x).chan m = s.chan m := rfl
@[simp] theorem State.setTrip_read_svc (s : State) (k : Nat) (x : Trip) (m : Nat) : (s.setTrip k x).svc m = s.svc m := rfl
@[simp] theorem State.setTrip_read_live (s : State) (k : Nat) (x : Trip)  : (s.setTrip k x).live = s.live := rfl
@[simp] theorem State.setTrip_read_up (s : State) (k : Nat) (x : Trip)  : (s.setTrip k x).up = s.up := rfl
@[simp] theorem State.setTrip_read_evStopped (s : State) (k : Nat) (x : Trip)  : (s.setTrip k x).evStopped = s.evStopped := rfl
@[simp] theorem State.setTrip_read_perStopped (s : State) (k : Nat) (x : Trip)  : (s.setTrip k x).perStopped = s.perStopped := rfl

/-! ### setIoe -/

@[simp] theorem State.setIoe_pending (s : State) (e : Nat) (x : Ioe) : (s.setIoe e x).pending = s.pending := rfl
@[simp] theorem State.setIoe_tnow (s : State) (e : Nat) (x : Ioe) : (s.setIoe e x).tnow = s.tnow := rfl
@[simp] theorem State.setIoe_wsNs (s : State) (e : Nat) (x : Ioe) : (s.setIoe e x).wsNs = s.wsNs := rfl
@[simp] theorem State.setIoe_regs (s : State) (e : Nat) (x : Ioe) : (s.setIoe e x).regs = s.regs := rfl
@[simp] theorem State.setIoe_mem (s : State) (e : Nat) (x : Ioe) : (s.setIoe e x).mem = s.mem := rfl
@[simp] theorem State.setIoe_progErr (s : State) (e : Nat) (x : Ioe) : (s.setIoe e x).progErr = s.progErr := rfl
@[simp] theorem State.setIoe_resp (s : State) (e : Nat) (x : Ioe) : (s.setIoe e x).resp = s.resp := rfl
@[simp] theorem State.setIoe_latched (s : State) (e : Nat) (x : Ioe) : (s.setIoe e x).latched = s.latched := rfl
@[simp] theorem State.setIoe_heldLow (s : State) (e : Nat) (x : Ioe) : (s.setIoe e x).heldLow = s.heldLow := rfl
@[simp] theorem State.setIoe_logNew (s : State) (e : Nat) (x : Ioe) : (s.setIoe e x).logNew = s.logNew := rfl
@[simp] theorem State.setIoe_lostOwed (s : State) (e : Nat) (x : Ioe) : (s.setIoe e x).lostOwed = s.lostOwed := rfl
@[simp] theorem State.setIoe_armAt (s : State) (e : Nat) (x : Ioe) : (s.setIoe e x).armAt = s.armAt := rfl
@[simp] theorem State.setIoe_doms (s : State) (e : Nat) (x : Ioe) : (s.setIoe e x).doms = s.doms := rfl
@[simp] theorem State.setIoe_seqs (s : State) (e : Nat) (x : Ioe) : (s.setIoe e x).seqs = s.seqs := rfl
@[simp] theorem State.setIoe_mapm (s : State) (e : Nat) (x : Ioe) : (s.setIoe e x).mapm = s.mapm := rfl
@[simp] theorem State.setIoe_dataIn (s : State) (e : Nat) (x : Ioe) : (s.setIoe e x).dataIn = s.dataIn := rfl
@[simp] theorem State.setIoe_chans (s : State) (e : Nat) (x : Ioe) : (s.setIoe e x).chans = s.chans := rfl
@[simp] theorem State.setIoe_svcs (s : State) (e : Nat) (x : Ioe) : (s.setIoe e x).svcs = s.svcs := rfl
@[simp] theorem State.setIoe_change (s : State) (e : Nat) (x : Ioe) : (s.setIoe e x).change = s.change := rfl
@[simp] theorem State.setIoe_adcs (s : State) (e : Nat) (x : Ioe) : (s.setIoe e x).adcs = s.adcs := rfl
@[simp] theorem State.setIoe_settle (s : State) (e : Nat) (x : Ioe) : (s.setIoe e x).settle = s.settle := rfl
@[simp] theorem State.setIoe_basins (s : State) (e : Nat) (x : Ioe) : (s.setIoe e x).basins = s.basins := rfl
@[simp] theorem State.setIoe_trkLatch (s : State) (e : Nat) (x : Ioe) : (s.setIoe e x).trkLatch = s.trkLatch := rfl
@[simp] theorem State.setIoe_feeds (s : State) (e : Nat) (x : Ioe) : (s.setIoe e x).feeds = s.feeds := rfl
@[simp] theorem State.setIoe_weightSwap (s : State) (e : Nat) (x : Ioe) : (s.setIoe e x).weightSwap = s.weightSwap := rfl
@[simp] theorem State.setIoe_hold3 (s : State) (e : Nat) (x : Ioe) : (s.setIoe e x).hold3 = s.hold3 := rfl
@[simp] theorem State.setIoe_hold2 (s : State) (e : Nat) (x : Ioe) : (s.setIoe e x).hold2 = s.hold2 := rfl
@[simp] theorem State.setIoe_cmps (s : State) (e : Nat) (x : Ioe) : (s.setIoe e x).cmps = s.cmps := rfl
@[simp] theorem State.setIoe_trips (s : State) (e : Nat) (x : Ioe) : (s.setIoe e x).trips = s.trips := rfl
@[simp] theorem State.setIoe_pwms (s : State) (e : Nat) (x : Ioe) : (s.setIoe e x).pwms = s.pwms := rfl
@[simp] theorem State.setIoe_auxOff (s : State) (e : Nat) (x : Ioe) : (s.setIoe e x).auxOff = s.auxOff := rfl
@[simp] theorem State.setIoe_clkStopAt (s : State) (e : Nat) (x : Ioe) : (s.setIoe e x).clkStopAt = s.clkStopAt := rfl
@[simp] theorem State.setIoe_gio (s : State) (e : Nat) (x : Ioe) : (s.setIoe e x).gio = s.gio := rfl
@[simp] theorem State.setIoe_dmas (s : State) (e : Nat) (x : Ioe) : (s.setIoe e x).dmas = s.dmas := rfl
@[simp] theorem State.setIoe_pcie (s : State) (e : Nat) (x : Ioe) : (s.setIoe e x).pcie = s.pcie := rfl
@[simp] theorem State.setIoe_mspi (s : State) (e : Nat) (x : Ioe) : (s.setIoe e x).mspi = s.mspi := rfl
@[simp] theorem State.setIoe_power (s : State) (e : Nat) (x : Ioe) : (s.setIoe e x).power = s.power := rfl
@[simp] theorem State.setIoe_den (s : State) (e : Nat) (x : Ioe) : (s.setIoe e x).den = s.den := rfl
@[simp] theorem State.setIoe_pair (s : State) (e : Nat) (x : Ioe) : (s.setIoe e x).pair = s.pair := rfl
@[simp] theorem State.setIoe_read_fld (s : State) (e : Nat) (x : Ioe) (fl : Fld) (j : Nat) : (s.setIoe e x).fld fl j = s.fld fl j := rfl
@[simp] theorem State.setIoe_read_flag (s : State) (e : Nat) (x : Ioe) (fl : Fld) (j : Nat) : (s.setIoe e x).flag fl j = s.flag fl j := rfl
@[simp] theorem State.setIoe_read_byte (s : State) (e : Nat) (x : Ioe) (p : Nat) : (s.setIoe e x).byte p = s.byte p := rfl
@[simp] theorem State.setIoe_read_dom (s : State) (e : Nat) (x : Ioe) (m : Nat) : (s.setIoe e x).dom m = s.dom m := rfl
@[simp] theorem State.setIoe_read_seq (s : State) (e : Nat) (x : Ioe) (m : Nat) : (s.setIoe e x).seq m = s.seq m := rfl
@[simp] theorem State.setIoe_read_chan (s : State) (e : Nat) (x : Ioe) (m : Nat) : (s.setIoe e x).chan m = s.chan m := rfl
@[simp] theorem State.setIoe_read_svc (s : State) (e : Nat) (x : Ioe) (m : Nat) : (s.setIoe e x).svc m = s.svc m := rfl
@[simp] theorem State.setIoe_read_live (s : State) (e : Nat) (x : Ioe)  : (s.setIoe e x).live = s.live := rfl
@[simp] theorem State.setIoe_read_up (s : State) (e : Nat) (x : Ioe)  : (s.setIoe e x).up = s.up := rfl
@[simp] theorem State.setIoe_read_evStopped (s : State) (e : Nat) (x : Ioe)  : (s.setIoe e x).evStopped = s.evStopped := rfl
@[simp] theorem State.setIoe_read_perStopped (s : State) (e : Nat) (x : Ioe)  : (s.setIoe e x).perStopped = s.perStopped := rfl

/-! ### gioDrive -/

@[simp] theorem State.gioDrive_pending (s : State) (k : Nat) (x : Drive) : (s.gioDrive k x).pending = s.pending := rfl
@[simp] theorem State.gioDrive_tnow (s : State) (k : Nat) (x : Drive) : (s.gioDrive k x).tnow = s.tnow := rfl
@[simp] theorem State.gioDrive_wsNs (s : State) (k : Nat) (x : Drive) : (s.gioDrive k x).wsNs = s.wsNs := rfl
@[simp] theorem State.gioDrive_regs (s : State) (k : Nat) (x : Drive) : (s.gioDrive k x).regs = s.regs := rfl
@[simp] theorem State.gioDrive_mem (s : State) (k : Nat) (x : Drive) : (s.gioDrive k x).mem = s.mem := rfl
@[simp] theorem State.gioDrive_progErr (s : State) (k : Nat) (x : Drive) : (s.gioDrive k x).progErr = s.progErr := rfl
@[simp] theorem State.gioDrive_resp (s : State) (k : Nat) (x : Drive) : (s.gioDrive k x).resp = s.resp := rfl
@[simp] theorem State.gioDrive_latched (s : State) (k : Nat) (x : Drive) : (s.gioDrive k x).latched = s.latched := rfl
@[simp] theorem State.gioDrive_heldLow (s : State) (k : Nat) (x : Drive) : (s.gioDrive k x).heldLow = s.heldLow := rfl
@[simp] theorem State.gioDrive_logNew (s : State) (k : Nat) (x : Drive) : (s.gioDrive k x).logNew = s.logNew := rfl
@[simp] theorem State.gioDrive_lostOwed (s : State) (k : Nat) (x : Drive) : (s.gioDrive k x).lostOwed = s.lostOwed := rfl
@[simp] theorem State.gioDrive_armAt (s : State) (k : Nat) (x : Drive) : (s.gioDrive k x).armAt = s.armAt := rfl
@[simp] theorem State.gioDrive_doms (s : State) (k : Nat) (x : Drive) : (s.gioDrive k x).doms = s.doms := rfl
@[simp] theorem State.gioDrive_seqs (s : State) (k : Nat) (x : Drive) : (s.gioDrive k x).seqs = s.seqs := rfl
@[simp] theorem State.gioDrive_mapm (s : State) (k : Nat) (x : Drive) : (s.gioDrive k x).mapm = s.mapm := rfl
@[simp] theorem State.gioDrive_dataIn (s : State) (k : Nat) (x : Drive) : (s.gioDrive k x).dataIn = s.dataIn := rfl
@[simp] theorem State.gioDrive_chans (s : State) (k : Nat) (x : Drive) : (s.gioDrive k x).chans = s.chans := rfl
@[simp] theorem State.gioDrive_svcs (s : State) (k : Nat) (x : Drive) : (s.gioDrive k x).svcs = s.svcs := rfl
@[simp] theorem State.gioDrive_change (s : State) (k : Nat) (x : Drive) : (s.gioDrive k x).change = s.change := rfl
@[simp] theorem State.gioDrive_adcs (s : State) (k : Nat) (x : Drive) : (s.gioDrive k x).adcs = s.adcs := rfl
@[simp] theorem State.gioDrive_settle (s : State) (k : Nat) (x : Drive) : (s.gioDrive k x).settle = s.settle := rfl
@[simp] theorem State.gioDrive_basins (s : State) (k : Nat) (x : Drive) : (s.gioDrive k x).basins = s.basins := rfl
@[simp] theorem State.gioDrive_trkLatch (s : State) (k : Nat) (x : Drive) : (s.gioDrive k x).trkLatch = s.trkLatch := rfl
@[simp] theorem State.gioDrive_feeds (s : State) (k : Nat) (x : Drive) : (s.gioDrive k x).feeds = s.feeds := rfl
@[simp] theorem State.gioDrive_weightSwap (s : State) (k : Nat) (x : Drive) : (s.gioDrive k x).weightSwap = s.weightSwap := rfl
@[simp] theorem State.gioDrive_hold3 (s : State) (k : Nat) (x : Drive) : (s.gioDrive k x).hold3 = s.hold3 := rfl
@[simp] theorem State.gioDrive_hold2 (s : State) (k : Nat) (x : Drive) : (s.gioDrive k x).hold2 = s.hold2 := rfl
@[simp] theorem State.gioDrive_cmps (s : State) (k : Nat) (x : Drive) : (s.gioDrive k x).cmps = s.cmps := rfl
@[simp] theorem State.gioDrive_trips (s : State) (k : Nat) (x : Drive) : (s.gioDrive k x).trips = s.trips := rfl
@[simp] theorem State.gioDrive_pwms (s : State) (k : Nat) (x : Drive) : (s.gioDrive k x).pwms = s.pwms := rfl
@[simp] theorem State.gioDrive_auxOff (s : State) (k : Nat) (x : Drive) : (s.gioDrive k x).auxOff = s.auxOff := rfl
@[simp] theorem State.gioDrive_clkStopAt (s : State) (k : Nat) (x : Drive) : (s.gioDrive k x).clkStopAt = s.clkStopAt := rfl
@[simp] theorem State.gioDrive_ioes (s : State) (k : Nat) (x : Drive) : (s.gioDrive k x).ioes = s.ioes := rfl
@[simp] theorem State.gioDrive_dmas (s : State) (k : Nat) (x : Drive) : (s.gioDrive k x).dmas = s.dmas := rfl
@[simp] theorem State.gioDrive_pcie (s : State) (k : Nat) (x : Drive) : (s.gioDrive k x).pcie = s.pcie := rfl
@[simp] theorem State.gioDrive_mspi (s : State) (k : Nat) (x : Drive) : (s.gioDrive k x).mspi = s.mspi := rfl
@[simp] theorem State.gioDrive_power (s : State) (k : Nat) (x : Drive) : (s.gioDrive k x).power = s.power := rfl
@[simp] theorem State.gioDrive_den (s : State) (k : Nat) (x : Drive) : (s.gioDrive k x).den = s.den := rfl
@[simp] theorem State.gioDrive_pair (s : State) (k : Nat) (x : Drive) : (s.gioDrive k x).pair = s.pair := rfl
@[simp] theorem State.gioDrive_read_fld (s : State) (k : Nat) (x : Drive) (fl : Fld) (j : Nat) : (s.gioDrive k x).fld fl j = s.fld fl j := rfl
@[simp] theorem State.gioDrive_read_flag (s : State) (k : Nat) (x : Drive) (fl : Fld) (j : Nat) : (s.gioDrive k x).flag fl j = s.flag fl j := rfl
@[simp] theorem State.gioDrive_read_byte (s : State) (k : Nat) (x : Drive) (p : Nat) : (s.gioDrive k x).byte p = s.byte p := rfl
@[simp] theorem State.gioDrive_read_dom (s : State) (k : Nat) (x : Drive) (m : Nat) : (s.gioDrive k x).dom m = s.dom m := rfl
@[simp] theorem State.gioDrive_read_seq (s : State) (k : Nat) (x : Drive) (m : Nat) : (s.gioDrive k x).seq m = s.seq m := rfl
@[simp] theorem State.gioDrive_read_chan (s : State) (k : Nat) (x : Drive) (m : Nat) : (s.gioDrive k x).chan m = s.chan m := rfl
@[simp] theorem State.gioDrive_read_svc (s : State) (k : Nat) (x : Drive) (m : Nat) : (s.gioDrive k x).svc m = s.svc m := rfl
@[simp] theorem State.gioDrive_read_live (s : State) (k : Nat) (x : Drive)  : (s.gioDrive k x).live = s.live := rfl
@[simp] theorem State.gioDrive_read_up (s : State) (k : Nat) (x : Drive)  : (s.gioDrive k x).up = s.up := rfl
@[simp] theorem State.gioDrive_read_evStopped (s : State) (k : Nat) (x : Drive)  : (s.gioDrive k x).evStopped = s.evStopped := rfl
@[simp] theorem State.gioDrive_read_perStopped (s : State) (k : Nat) (x : Drive)  : (s.gioDrive k x).perStopped = s.perStopped := rfl

/-! ### setDma -/

@[simp] theorem State.setDma_pending (s : State) (c : Nat) (x : Dma) : (s.setDma c x).pending = s.pending := rfl
@[simp] theorem State.setDma_tnow (s : State) (c : Nat) (x : Dma) : (s.setDma c x).tnow = s.tnow := rfl
@[simp] theorem State.setDma_wsNs (s : State) (c : Nat) (x : Dma) : (s.setDma c x).wsNs = s.wsNs := rfl
@[simp] theorem State.setDma_regs (s : State) (c : Nat) (x : Dma) : (s.setDma c x).regs = s.regs := rfl
@[simp] theorem State.setDma_mem (s : State) (c : Nat) (x : Dma) : (s.setDma c x).mem = s.mem := rfl
@[simp] theorem State.setDma_progErr (s : State) (c : Nat) (x : Dma) : (s.setDma c x).progErr = s.progErr := rfl
@[simp] theorem State.setDma_resp (s : State) (c : Nat) (x : Dma) : (s.setDma c x).resp = s.resp := rfl
@[simp] theorem State.setDma_latched (s : State) (c : Nat) (x : Dma) : (s.setDma c x).latched = s.latched := rfl
@[simp] theorem State.setDma_heldLow (s : State) (c : Nat) (x : Dma) : (s.setDma c x).heldLow = s.heldLow := rfl
@[simp] theorem State.setDma_logNew (s : State) (c : Nat) (x : Dma) : (s.setDma c x).logNew = s.logNew := rfl
@[simp] theorem State.setDma_lostOwed (s : State) (c : Nat) (x : Dma) : (s.setDma c x).lostOwed = s.lostOwed := rfl
@[simp] theorem State.setDma_armAt (s : State) (c : Nat) (x : Dma) : (s.setDma c x).armAt = s.armAt := rfl
@[simp] theorem State.setDma_doms (s : State) (c : Nat) (x : Dma) : (s.setDma c x).doms = s.doms := rfl
@[simp] theorem State.setDma_seqs (s : State) (c : Nat) (x : Dma) : (s.setDma c x).seqs = s.seqs := rfl
@[simp] theorem State.setDma_mapm (s : State) (c : Nat) (x : Dma) : (s.setDma c x).mapm = s.mapm := rfl
@[simp] theorem State.setDma_dataIn (s : State) (c : Nat) (x : Dma) : (s.setDma c x).dataIn = s.dataIn := rfl
@[simp] theorem State.setDma_chans (s : State) (c : Nat) (x : Dma) : (s.setDma c x).chans = s.chans := rfl
@[simp] theorem State.setDma_svcs (s : State) (c : Nat) (x : Dma) : (s.setDma c x).svcs = s.svcs := rfl
@[simp] theorem State.setDma_change (s : State) (c : Nat) (x : Dma) : (s.setDma c x).change = s.change := rfl
@[simp] theorem State.setDma_adcs (s : State) (c : Nat) (x : Dma) : (s.setDma c x).adcs = s.adcs := rfl
@[simp] theorem State.setDma_settle (s : State) (c : Nat) (x : Dma) : (s.setDma c x).settle = s.settle := rfl
@[simp] theorem State.setDma_basins (s : State) (c : Nat) (x : Dma) : (s.setDma c x).basins = s.basins := rfl
@[simp] theorem State.setDma_trkLatch (s : State) (c : Nat) (x : Dma) : (s.setDma c x).trkLatch = s.trkLatch := rfl
@[simp] theorem State.setDma_feeds (s : State) (c : Nat) (x : Dma) : (s.setDma c x).feeds = s.feeds := rfl
@[simp] theorem State.setDma_weightSwap (s : State) (c : Nat) (x : Dma) : (s.setDma c x).weightSwap = s.weightSwap := rfl
@[simp] theorem State.setDma_hold3 (s : State) (c : Nat) (x : Dma) : (s.setDma c x).hold3 = s.hold3 := rfl
@[simp] theorem State.setDma_hold2 (s : State) (c : Nat) (x : Dma) : (s.setDma c x).hold2 = s.hold2 := rfl
@[simp] theorem State.setDma_cmps (s : State) (c : Nat) (x : Dma) : (s.setDma c x).cmps = s.cmps := rfl
@[simp] theorem State.setDma_trips (s : State) (c : Nat) (x : Dma) : (s.setDma c x).trips = s.trips := rfl
@[simp] theorem State.setDma_pwms (s : State) (c : Nat) (x : Dma) : (s.setDma c x).pwms = s.pwms := rfl
@[simp] theorem State.setDma_auxOff (s : State) (c : Nat) (x : Dma) : (s.setDma c x).auxOff = s.auxOff := rfl
@[simp] theorem State.setDma_clkStopAt (s : State) (c : Nat) (x : Dma) : (s.setDma c x).clkStopAt = s.clkStopAt := rfl
@[simp] theorem State.setDma_ioes (s : State) (c : Nat) (x : Dma) : (s.setDma c x).ioes = s.ioes := rfl
@[simp] theorem State.setDma_gio (s : State) (c : Nat) (x : Dma) : (s.setDma c x).gio = s.gio := rfl
@[simp] theorem State.setDma_pcie (s : State) (c : Nat) (x : Dma) : (s.setDma c x).pcie = s.pcie := rfl
@[simp] theorem State.setDma_mspi (s : State) (c : Nat) (x : Dma) : (s.setDma c x).mspi = s.mspi := rfl
@[simp] theorem State.setDma_power (s : State) (c : Nat) (x : Dma) : (s.setDma c x).power = s.power := rfl
@[simp] theorem State.setDma_den (s : State) (c : Nat) (x : Dma) : (s.setDma c x).den = s.den := rfl
@[simp] theorem State.setDma_pair (s : State) (c : Nat) (x : Dma) : (s.setDma c x).pair = s.pair := rfl
@[simp] theorem State.setDma_read_fld (s : State) (c : Nat) (x : Dma) (fl : Fld) (j : Nat) : (s.setDma c x).fld fl j = s.fld fl j := rfl
@[simp] theorem State.setDma_read_flag (s : State) (c : Nat) (x : Dma) (fl : Fld) (j : Nat) : (s.setDma c x).flag fl j = s.flag fl j := rfl
@[simp] theorem State.setDma_read_byte (s : State) (c : Nat) (x : Dma) (p : Nat) : (s.setDma c x).byte p = s.byte p := rfl
@[simp] theorem State.setDma_read_dom (s : State) (c : Nat) (x : Dma) (m : Nat) : (s.setDma c x).dom m = s.dom m := rfl
@[simp] theorem State.setDma_read_seq (s : State) (c : Nat) (x : Dma) (m : Nat) : (s.setDma c x).seq m = s.seq m := rfl
@[simp] theorem State.setDma_read_chan (s : State) (c : Nat) (x : Dma) (m : Nat) : (s.setDma c x).chan m = s.chan m := rfl
@[simp] theorem State.setDma_read_svc (s : State) (c : Nat) (x : Dma) (m : Nat) : (s.setDma c x).svc m = s.svc m := rfl
@[simp] theorem State.setDma_read_live (s : State) (c : Nat) (x : Dma)  : (s.setDma c x).live = s.live := rfl
@[simp] theorem State.setDma_read_up (s : State) (c : Nat) (x : Dma)  : (s.setDma c x).up = s.up := rfl
@[simp] theorem State.setDma_read_evStopped (s : State) (c : Nat) (x : Dma)  : (s.setDma c x).evStopped = s.evStopped := rfl
@[simp] theorem State.setDma_read_perStopped (s : State) (c : Nat) (x : Dma)  : (s.setDma c x).perStopped = s.perStopped := rfl

/-! ### setFn -/

@[simp] theorem State.setFn_pending (s : State) (k : Nat) (x : PcieFn) : (s.setFn k x).pending = s.pending := rfl
@[simp] theorem State.setFn_tnow (s : State) (k : Nat) (x : PcieFn) : (s.setFn k x).tnow = s.tnow := rfl
@[simp] theorem State.setFn_wsNs (s : State) (k : Nat) (x : PcieFn) : (s.setFn k x).wsNs = s.wsNs := rfl
@[simp] theorem State.setFn_regs (s : State) (k : Nat) (x : PcieFn) : (s.setFn k x).regs = s.regs := rfl
@[simp] theorem State.setFn_mem (s : State) (k : Nat) (x : PcieFn) : (s.setFn k x).mem = s.mem := rfl
@[simp] theorem State.setFn_progErr (s : State) (k : Nat) (x : PcieFn) : (s.setFn k x).progErr = s.progErr := rfl
@[simp] theorem State.setFn_resp (s : State) (k : Nat) (x : PcieFn) : (s.setFn k x).resp = s.resp := rfl
@[simp] theorem State.setFn_latched (s : State) (k : Nat) (x : PcieFn) : (s.setFn k x).latched = s.latched := rfl
@[simp] theorem State.setFn_heldLow (s : State) (k : Nat) (x : PcieFn) : (s.setFn k x).heldLow = s.heldLow := rfl
@[simp] theorem State.setFn_logNew (s : State) (k : Nat) (x : PcieFn) : (s.setFn k x).logNew = s.logNew := rfl
@[simp] theorem State.setFn_lostOwed (s : State) (k : Nat) (x : PcieFn) : (s.setFn k x).lostOwed = s.lostOwed := rfl
@[simp] theorem State.setFn_armAt (s : State) (k : Nat) (x : PcieFn) : (s.setFn k x).armAt = s.armAt := rfl
@[simp] theorem State.setFn_doms (s : State) (k : Nat) (x : PcieFn) : (s.setFn k x).doms = s.doms := rfl
@[simp] theorem State.setFn_seqs (s : State) (k : Nat) (x : PcieFn) : (s.setFn k x).seqs = s.seqs := rfl
@[simp] theorem State.setFn_mapm (s : State) (k : Nat) (x : PcieFn) : (s.setFn k x).mapm = s.mapm := rfl
@[simp] theorem State.setFn_dataIn (s : State) (k : Nat) (x : PcieFn) : (s.setFn k x).dataIn = s.dataIn := rfl
@[simp] theorem State.setFn_chans (s : State) (k : Nat) (x : PcieFn) : (s.setFn k x).chans = s.chans := rfl
@[simp] theorem State.setFn_svcs (s : State) (k : Nat) (x : PcieFn) : (s.setFn k x).svcs = s.svcs := rfl
@[simp] theorem State.setFn_change (s : State) (k : Nat) (x : PcieFn) : (s.setFn k x).change = s.change := rfl
@[simp] theorem State.setFn_adcs (s : State) (k : Nat) (x : PcieFn) : (s.setFn k x).adcs = s.adcs := rfl
@[simp] theorem State.setFn_settle (s : State) (k : Nat) (x : PcieFn) : (s.setFn k x).settle = s.settle := rfl
@[simp] theorem State.setFn_basins (s : State) (k : Nat) (x : PcieFn) : (s.setFn k x).basins = s.basins := rfl
@[simp] theorem State.setFn_trkLatch (s : State) (k : Nat) (x : PcieFn) : (s.setFn k x).trkLatch = s.trkLatch := rfl
@[simp] theorem State.setFn_feeds (s : State) (k : Nat) (x : PcieFn) : (s.setFn k x).feeds = s.feeds := rfl
@[simp] theorem State.setFn_weightSwap (s : State) (k : Nat) (x : PcieFn) : (s.setFn k x).weightSwap = s.weightSwap := rfl
@[simp] theorem State.setFn_hold3 (s : State) (k : Nat) (x : PcieFn) : (s.setFn k x).hold3 = s.hold3 := rfl
@[simp] theorem State.setFn_hold2 (s : State) (k : Nat) (x : PcieFn) : (s.setFn k x).hold2 = s.hold2 := rfl
@[simp] theorem State.setFn_cmps (s : State) (k : Nat) (x : PcieFn) : (s.setFn k x).cmps = s.cmps := rfl
@[simp] theorem State.setFn_trips (s : State) (k : Nat) (x : PcieFn) : (s.setFn k x).trips = s.trips := rfl
@[simp] theorem State.setFn_pwms (s : State) (k : Nat) (x : PcieFn) : (s.setFn k x).pwms = s.pwms := rfl
@[simp] theorem State.setFn_auxOff (s : State) (k : Nat) (x : PcieFn) : (s.setFn k x).auxOff = s.auxOff := rfl
@[simp] theorem State.setFn_clkStopAt (s : State) (k : Nat) (x : PcieFn) : (s.setFn k x).clkStopAt = s.clkStopAt := rfl
@[simp] theorem State.setFn_ioes (s : State) (k : Nat) (x : PcieFn) : (s.setFn k x).ioes = s.ioes := rfl
@[simp] theorem State.setFn_gio (s : State) (k : Nat) (x : PcieFn) : (s.setFn k x).gio = s.gio := rfl
@[simp] theorem State.setFn_dmas (s : State) (k : Nat) (x : PcieFn) : (s.setFn k x).dmas = s.dmas := rfl
@[simp] theorem State.setFn_mspi (s : State) (k : Nat) (x : PcieFn) : (s.setFn k x).mspi = s.mspi := rfl
@[simp] theorem State.setFn_power (s : State) (k : Nat) (x : PcieFn) : (s.setFn k x).power = s.power := rfl
@[simp] theorem State.setFn_den (s : State) (k : Nat) (x : PcieFn) : (s.setFn k x).den = s.den := rfl
@[simp] theorem State.setFn_pair (s : State) (k : Nat) (x : PcieFn) : (s.setFn k x).pair = s.pair := rfl
@[simp] theorem State.setFn_read_fld (s : State) (k : Nat) (x : PcieFn) (fl : Fld) (j : Nat) : (s.setFn k x).fld fl j = s.fld fl j := rfl
@[simp] theorem State.setFn_read_flag (s : State) (k : Nat) (x : PcieFn) (fl : Fld) (j : Nat) : (s.setFn k x).flag fl j = s.flag fl j := rfl
@[simp] theorem State.setFn_read_byte (s : State) (k : Nat) (x : PcieFn) (p : Nat) : (s.setFn k x).byte p = s.byte p := rfl
@[simp] theorem State.setFn_read_dom (s : State) (k : Nat) (x : PcieFn) (m : Nat) : (s.setFn k x).dom m = s.dom m := rfl
@[simp] theorem State.setFn_read_seq (s : State) (k : Nat) (x : PcieFn) (m : Nat) : (s.setFn k x).seq m = s.seq m := rfl
@[simp] theorem State.setFn_read_chan (s : State) (k : Nat) (x : PcieFn) (m : Nat) : (s.setFn k x).chan m = s.chan m := rfl
@[simp] theorem State.setFn_read_svc (s : State) (k : Nat) (x : PcieFn) (m : Nat) : (s.setFn k x).svc m = s.svc m := rfl
@[simp] theorem State.setFn_read_live (s : State) (k : Nat) (x : PcieFn)  : (s.setFn k x).live = s.live := rfl
@[simp] theorem State.setFn_read_up (s : State) (k : Nat) (x : PcieFn)  : (s.setFn k x).up = s.up := rfl
@[simp] theorem State.setFn_read_evStopped (s : State) (k : Nat) (x : PcieFn)  : (s.setFn k x).evStopped = s.evStopped := rfl
@[simp] theorem State.setFn_read_perStopped (s : State) (k : Nat) (x : PcieFn)  : (s.setFn k x).perStopped = s.perStopped := rfl

/-! ### emit -/

@[simp] theorem State.emit_pending (s : State) (o : PcieOut) : (s.emit o).pending = s.pending := rfl
@[simp] theorem State.emit_tnow (s : State) (o : PcieOut) : (s.emit o).tnow = s.tnow := rfl
@[simp] theorem State.emit_wsNs (s : State) (o : PcieOut) : (s.emit o).wsNs = s.wsNs := rfl
@[simp] theorem State.emit_regs (s : State) (o : PcieOut) : (s.emit o).regs = s.regs := rfl
@[simp] theorem State.emit_mem (s : State) (o : PcieOut) : (s.emit o).mem = s.mem := rfl
@[simp] theorem State.emit_progErr (s : State) (o : PcieOut) : (s.emit o).progErr = s.progErr := rfl
@[simp] theorem State.emit_resp (s : State) (o : PcieOut) : (s.emit o).resp = s.resp := rfl
@[simp] theorem State.emit_latched (s : State) (o : PcieOut) : (s.emit o).latched = s.latched := rfl
@[simp] theorem State.emit_heldLow (s : State) (o : PcieOut) : (s.emit o).heldLow = s.heldLow := rfl
@[simp] theorem State.emit_logNew (s : State) (o : PcieOut) : (s.emit o).logNew = s.logNew := rfl
@[simp] theorem State.emit_lostOwed (s : State) (o : PcieOut) : (s.emit o).lostOwed = s.lostOwed := rfl
@[simp] theorem State.emit_armAt (s : State) (o : PcieOut) : (s.emit o).armAt = s.armAt := rfl
@[simp] theorem State.emit_doms (s : State) (o : PcieOut) : (s.emit o).doms = s.doms := rfl
@[simp] theorem State.emit_seqs (s : State) (o : PcieOut) : (s.emit o).seqs = s.seqs := rfl
@[simp] theorem State.emit_mapm (s : State) (o : PcieOut) : (s.emit o).mapm = s.mapm := rfl
@[simp] theorem State.emit_dataIn (s : State) (o : PcieOut) : (s.emit o).dataIn = s.dataIn := rfl
@[simp] theorem State.emit_chans (s : State) (o : PcieOut) : (s.emit o).chans = s.chans := rfl
@[simp] theorem State.emit_svcs (s : State) (o : PcieOut) : (s.emit o).svcs = s.svcs := rfl
@[simp] theorem State.emit_change (s : State) (o : PcieOut) : (s.emit o).change = s.change := rfl
@[simp] theorem State.emit_adcs (s : State) (o : PcieOut) : (s.emit o).adcs = s.adcs := rfl
@[simp] theorem State.emit_settle (s : State) (o : PcieOut) : (s.emit o).settle = s.settle := rfl
@[simp] theorem State.emit_basins (s : State) (o : PcieOut) : (s.emit o).basins = s.basins := rfl
@[simp] theorem State.emit_trkLatch (s : State) (o : PcieOut) : (s.emit o).trkLatch = s.trkLatch := rfl
@[simp] theorem State.emit_feeds (s : State) (o : PcieOut) : (s.emit o).feeds = s.feeds := rfl
@[simp] theorem State.emit_weightSwap (s : State) (o : PcieOut) : (s.emit o).weightSwap = s.weightSwap := rfl
@[simp] theorem State.emit_hold3 (s : State) (o : PcieOut) : (s.emit o).hold3 = s.hold3 := rfl
@[simp] theorem State.emit_hold2 (s : State) (o : PcieOut) : (s.emit o).hold2 = s.hold2 := rfl
@[simp] theorem State.emit_cmps (s : State) (o : PcieOut) : (s.emit o).cmps = s.cmps := rfl
@[simp] theorem State.emit_trips (s : State) (o : PcieOut) : (s.emit o).trips = s.trips := rfl
@[simp] theorem State.emit_pwms (s : State) (o : PcieOut) : (s.emit o).pwms = s.pwms := rfl
@[simp] theorem State.emit_auxOff (s : State) (o : PcieOut) : (s.emit o).auxOff = s.auxOff := rfl
@[simp] theorem State.emit_clkStopAt (s : State) (o : PcieOut) : (s.emit o).clkStopAt = s.clkStopAt := rfl
@[simp] theorem State.emit_ioes (s : State) (o : PcieOut) : (s.emit o).ioes = s.ioes := rfl
@[simp] theorem State.emit_gio (s : State) (o : PcieOut) : (s.emit o).gio = s.gio := rfl
@[simp] theorem State.emit_dmas (s : State) (o : PcieOut) : (s.emit o).dmas = s.dmas := rfl
@[simp] theorem State.emit_mspi (s : State) (o : PcieOut) : (s.emit o).mspi = s.mspi := rfl
@[simp] theorem State.emit_power (s : State) (o : PcieOut) : (s.emit o).power = s.power := rfl
@[simp] theorem State.emit_den (s : State) (o : PcieOut) : (s.emit o).den = s.den := rfl
@[simp] theorem State.emit_pair (s : State) (o : PcieOut) : (s.emit o).pair = s.pair := rfl
@[simp] theorem State.emit_read_fld (s : State) (o : PcieOut) (fl : Fld) (j : Nat) : (s.emit o).fld fl j = s.fld fl j := rfl
@[simp] theorem State.emit_read_flag (s : State) (o : PcieOut) (fl : Fld) (j : Nat) : (s.emit o).flag fl j = s.flag fl j := rfl
@[simp] theorem State.emit_read_byte (s : State) (o : PcieOut) (p : Nat) : (s.emit o).byte p = s.byte p := rfl
@[simp] theorem State.emit_read_dom (s : State) (o : PcieOut) (m : Nat) : (s.emit o).dom m = s.dom m := rfl
@[simp] theorem State.emit_read_seq (s : State) (o : PcieOut) (m : Nat) : (s.emit o).seq m = s.seq m := rfl
@[simp] theorem State.emit_read_chan (s : State) (o : PcieOut) (m : Nat) : (s.emit o).chan m = s.chan m := rfl
@[simp] theorem State.emit_read_svc (s : State) (o : PcieOut) (m : Nat) : (s.emit o).svc m = s.svc m := rfl
@[simp] theorem State.emit_read_live (s : State) (o : PcieOut)  : (s.emit o).live = s.live := rfl
@[simp] theorem State.emit_read_up (s : State) (o : PcieOut)  : (s.emit o).up = s.up := rfl
@[simp] theorem State.emit_read_evStopped (s : State) (o : PcieOut)  : (s.emit o).evStopped = s.evStopped := rfl
@[simp] theorem State.emit_read_perStopped (s : State) (o : PcieOut)  : (s.emit o).perStopped = s.perStopped := rfl

/-! ### modPcie -/

@[simp] theorem State.modPcie_pending (s : State) (g : Pcie → Pcie) : (s.modPcie g).pending = s.pending := rfl
@[simp] theorem State.modPcie_tnow (s : State) (g : Pcie → Pcie) : (s.modPcie g).tnow = s.tnow := rfl
@[simp] theorem State.modPcie_wsNs (s : State) (g : Pcie → Pcie) : (s.modPcie g).wsNs = s.wsNs := rfl
@[simp] theorem State.modPcie_regs (s : State) (g : Pcie → Pcie) : (s.modPcie g).regs = s.regs := rfl
@[simp] theorem State.modPcie_mem (s : State) (g : Pcie → Pcie) : (s.modPcie g).mem = s.mem := rfl
@[simp] theorem State.modPcie_progErr (s : State) (g : Pcie → Pcie) : (s.modPcie g).progErr = s.progErr := rfl
@[simp] theorem State.modPcie_resp (s : State) (g : Pcie → Pcie) : (s.modPcie g).resp = s.resp := rfl
@[simp] theorem State.modPcie_latched (s : State) (g : Pcie → Pcie) : (s.modPcie g).latched = s.latched := rfl
@[simp] theorem State.modPcie_heldLow (s : State) (g : Pcie → Pcie) : (s.modPcie g).heldLow = s.heldLow := rfl
@[simp] theorem State.modPcie_logNew (s : State) (g : Pcie → Pcie) : (s.modPcie g).logNew = s.logNew := rfl
@[simp] theorem State.modPcie_lostOwed (s : State) (g : Pcie → Pcie) : (s.modPcie g).lostOwed = s.lostOwed := rfl
@[simp] theorem State.modPcie_armAt (s : State) (g : Pcie → Pcie) : (s.modPcie g).armAt = s.armAt := rfl
@[simp] theorem State.modPcie_doms (s : State) (g : Pcie → Pcie) : (s.modPcie g).doms = s.doms := rfl
@[simp] theorem State.modPcie_seqs (s : State) (g : Pcie → Pcie) : (s.modPcie g).seqs = s.seqs := rfl
@[simp] theorem State.modPcie_mapm (s : State) (g : Pcie → Pcie) : (s.modPcie g).mapm = s.mapm := rfl
@[simp] theorem State.modPcie_dataIn (s : State) (g : Pcie → Pcie) : (s.modPcie g).dataIn = s.dataIn := rfl
@[simp] theorem State.modPcie_chans (s : State) (g : Pcie → Pcie) : (s.modPcie g).chans = s.chans := rfl
@[simp] theorem State.modPcie_svcs (s : State) (g : Pcie → Pcie) : (s.modPcie g).svcs = s.svcs := rfl
@[simp] theorem State.modPcie_change (s : State) (g : Pcie → Pcie) : (s.modPcie g).change = s.change := rfl
@[simp] theorem State.modPcie_adcs (s : State) (g : Pcie → Pcie) : (s.modPcie g).adcs = s.adcs := rfl
@[simp] theorem State.modPcie_settle (s : State) (g : Pcie → Pcie) : (s.modPcie g).settle = s.settle := rfl
@[simp] theorem State.modPcie_basins (s : State) (g : Pcie → Pcie) : (s.modPcie g).basins = s.basins := rfl
@[simp] theorem State.modPcie_trkLatch (s : State) (g : Pcie → Pcie) : (s.modPcie g).trkLatch = s.trkLatch := rfl
@[simp] theorem State.modPcie_feeds (s : State) (g : Pcie → Pcie) : (s.modPcie g).feeds = s.feeds := rfl
@[simp] theorem State.modPcie_weightSwap (s : State) (g : Pcie → Pcie) : (s.modPcie g).weightSwap = s.weightSwap := rfl
@[simp] theorem State.modPcie_hold3 (s : State) (g : Pcie → Pcie) : (s.modPcie g).hold3 = s.hold3 := rfl
@[simp] theorem State.modPcie_hold2 (s : State) (g : Pcie → Pcie) : (s.modPcie g).hold2 = s.hold2 := rfl
@[simp] theorem State.modPcie_cmps (s : State) (g : Pcie → Pcie) : (s.modPcie g).cmps = s.cmps := rfl
@[simp] theorem State.modPcie_trips (s : State) (g : Pcie → Pcie) : (s.modPcie g).trips = s.trips := rfl
@[simp] theorem State.modPcie_pwms (s : State) (g : Pcie → Pcie) : (s.modPcie g).pwms = s.pwms := rfl
@[simp] theorem State.modPcie_auxOff (s : State) (g : Pcie → Pcie) : (s.modPcie g).auxOff = s.auxOff := rfl
@[simp] theorem State.modPcie_clkStopAt (s : State) (g : Pcie → Pcie) : (s.modPcie g).clkStopAt = s.clkStopAt := rfl
@[simp] theorem State.modPcie_ioes (s : State) (g : Pcie → Pcie) : (s.modPcie g).ioes = s.ioes := rfl
@[simp] theorem State.modPcie_gio (s : State) (g : Pcie → Pcie) : (s.modPcie g).gio = s.gio := rfl
@[simp] theorem State.modPcie_dmas (s : State) (g : Pcie → Pcie) : (s.modPcie g).dmas = s.dmas := rfl
@[simp] theorem State.modPcie_mspi (s : State) (g : Pcie → Pcie) : (s.modPcie g).mspi = s.mspi := rfl
@[simp] theorem State.modPcie_power (s : State) (g : Pcie → Pcie) : (s.modPcie g).power = s.power := rfl
@[simp] theorem State.modPcie_den (s : State) (g : Pcie → Pcie) : (s.modPcie g).den = s.den := rfl
@[simp] theorem State.modPcie_pair (s : State) (g : Pcie → Pcie) : (s.modPcie g).pair = s.pair := rfl
@[simp] theorem State.modPcie_read_fld (s : State) (g : Pcie → Pcie) (fl : Fld) (j : Nat) : (s.modPcie g).fld fl j = s.fld fl j := rfl
@[simp] theorem State.modPcie_read_flag (s : State) (g : Pcie → Pcie) (fl : Fld) (j : Nat) : (s.modPcie g).flag fl j = s.flag fl j := rfl
@[simp] theorem State.modPcie_read_byte (s : State) (g : Pcie → Pcie) (p : Nat) : (s.modPcie g).byte p = s.byte p := rfl
@[simp] theorem State.modPcie_read_dom (s : State) (g : Pcie → Pcie) (m : Nat) : (s.modPcie g).dom m = s.dom m := rfl
@[simp] theorem State.modPcie_read_seq (s : State) (g : Pcie → Pcie) (m : Nat) : (s.modPcie g).seq m = s.seq m := rfl
@[simp] theorem State.modPcie_read_chan (s : State) (g : Pcie → Pcie) (m : Nat) : (s.modPcie g).chan m = s.chan m := rfl
@[simp] theorem State.modPcie_read_svc (s : State) (g : Pcie → Pcie) (m : Nat) : (s.modPcie g).svc m = s.svc m := rfl
@[simp] theorem State.modPcie_read_live (s : State) (g : Pcie → Pcie)  : (s.modPcie g).live = s.live := rfl
@[simp] theorem State.modPcie_read_up (s : State) (g : Pcie → Pcie)  : (s.modPcie g).up = s.up := rfl
@[simp] theorem State.modPcie_read_evStopped (s : State) (g : Pcie → Pcie)  : (s.modPcie g).evStopped = s.evStopped := rfl
@[simp] theorem State.modPcie_read_perStopped (s : State) (g : Pcie → Pcie)  : (s.modPcie g).perStopped = s.perStopped := rfl

/-! ### modMspi -/

@[simp] theorem State.modMspi_pending (s : State) (g : Mspi → Mspi) : (s.modMspi g).pending = s.pending := rfl
@[simp] theorem State.modMspi_tnow (s : State) (g : Mspi → Mspi) : (s.modMspi g).tnow = s.tnow := rfl
@[simp] theorem State.modMspi_wsNs (s : State) (g : Mspi → Mspi) : (s.modMspi g).wsNs = s.wsNs := rfl
@[simp] theorem State.modMspi_regs (s : State) (g : Mspi → Mspi) : (s.modMspi g).regs = s.regs := rfl
@[simp] theorem State.modMspi_mem (s : State) (g : Mspi → Mspi) : (s.modMspi g).mem = s.mem := rfl
@[simp] theorem State.modMspi_progErr (s : State) (g : Mspi → Mspi) : (s.modMspi g).progErr = s.progErr := rfl
@[simp] theorem State.modMspi_resp (s : State) (g : Mspi → Mspi) : (s.modMspi g).resp = s.resp := rfl
@[simp] theorem State.modMspi_latched (s : State) (g : Mspi → Mspi) : (s.modMspi g).latched = s.latched := rfl
@[simp] theorem State.modMspi_heldLow (s : State) (g : Mspi → Mspi) : (s.modMspi g).heldLow = s.heldLow := rfl
@[simp] theorem State.modMspi_logNew (s : State) (g : Mspi → Mspi) : (s.modMspi g).logNew = s.logNew := rfl
@[simp] theorem State.modMspi_lostOwed (s : State) (g : Mspi → Mspi) : (s.modMspi g).lostOwed = s.lostOwed := rfl
@[simp] theorem State.modMspi_armAt (s : State) (g : Mspi → Mspi) : (s.modMspi g).armAt = s.armAt := rfl
@[simp] theorem State.modMspi_doms (s : State) (g : Mspi → Mspi) : (s.modMspi g).doms = s.doms := rfl
@[simp] theorem State.modMspi_seqs (s : State) (g : Mspi → Mspi) : (s.modMspi g).seqs = s.seqs := rfl
@[simp] theorem State.modMspi_mapm (s : State) (g : Mspi → Mspi) : (s.modMspi g).mapm = s.mapm := rfl
@[simp] theorem State.modMspi_dataIn (s : State) (g : Mspi → Mspi) : (s.modMspi g).dataIn = s.dataIn := rfl
@[simp] theorem State.modMspi_chans (s : State) (g : Mspi → Mspi) : (s.modMspi g).chans = s.chans := rfl
@[simp] theorem State.modMspi_svcs (s : State) (g : Mspi → Mspi) : (s.modMspi g).svcs = s.svcs := rfl
@[simp] theorem State.modMspi_change (s : State) (g : Mspi → Mspi) : (s.modMspi g).change = s.change := rfl
@[simp] theorem State.modMspi_adcs (s : State) (g : Mspi → Mspi) : (s.modMspi g).adcs = s.adcs := rfl
@[simp] theorem State.modMspi_settle (s : State) (g : Mspi → Mspi) : (s.modMspi g).settle = s.settle := rfl
@[simp] theorem State.modMspi_basins (s : State) (g : Mspi → Mspi) : (s.modMspi g).basins = s.basins := rfl
@[simp] theorem State.modMspi_trkLatch (s : State) (g : Mspi → Mspi) : (s.modMspi g).trkLatch = s.trkLatch := rfl
@[simp] theorem State.modMspi_feeds (s : State) (g : Mspi → Mspi) : (s.modMspi g).feeds = s.feeds := rfl
@[simp] theorem State.modMspi_weightSwap (s : State) (g : Mspi → Mspi) : (s.modMspi g).weightSwap = s.weightSwap := rfl
@[simp] theorem State.modMspi_hold3 (s : State) (g : Mspi → Mspi) : (s.modMspi g).hold3 = s.hold3 := rfl
@[simp] theorem State.modMspi_hold2 (s : State) (g : Mspi → Mspi) : (s.modMspi g).hold2 = s.hold2 := rfl
@[simp] theorem State.modMspi_cmps (s : State) (g : Mspi → Mspi) : (s.modMspi g).cmps = s.cmps := rfl
@[simp] theorem State.modMspi_trips (s : State) (g : Mspi → Mspi) : (s.modMspi g).trips = s.trips := rfl
@[simp] theorem State.modMspi_pwms (s : State) (g : Mspi → Mspi) : (s.modMspi g).pwms = s.pwms := rfl
@[simp] theorem State.modMspi_auxOff (s : State) (g : Mspi → Mspi) : (s.modMspi g).auxOff = s.auxOff := rfl
@[simp] theorem State.modMspi_clkStopAt (s : State) (g : Mspi → Mspi) : (s.modMspi g).clkStopAt = s.clkStopAt := rfl
@[simp] theorem State.modMspi_ioes (s : State) (g : Mspi → Mspi) : (s.modMspi g).ioes = s.ioes := rfl
@[simp] theorem State.modMspi_gio (s : State) (g : Mspi → Mspi) : (s.modMspi g).gio = s.gio := rfl
@[simp] theorem State.modMspi_dmas (s : State) (g : Mspi → Mspi) : (s.modMspi g).dmas = s.dmas := rfl
@[simp] theorem State.modMspi_pcie (s : State) (g : Mspi → Mspi) : (s.modMspi g).pcie = s.pcie := rfl
@[simp] theorem State.modMspi_power (s : State) (g : Mspi → Mspi) : (s.modMspi g).power = s.power := rfl
@[simp] theorem State.modMspi_den (s : State) (g : Mspi → Mspi) : (s.modMspi g).den = s.den := rfl
@[simp] theorem State.modMspi_pair (s : State) (g : Mspi → Mspi) : (s.modMspi g).pair = s.pair := rfl
@[simp] theorem State.modMspi_read_fld (s : State) (g : Mspi → Mspi) (fl : Fld) (j : Nat) : (s.modMspi g).fld fl j = s.fld fl j := rfl
@[simp] theorem State.modMspi_read_flag (s : State) (g : Mspi → Mspi) (fl : Fld) (j : Nat) : (s.modMspi g).flag fl j = s.flag fl j := rfl
@[simp] theorem State.modMspi_read_byte (s : State) (g : Mspi → Mspi) (p : Nat) : (s.modMspi g).byte p = s.byte p := rfl
@[simp] theorem State.modMspi_read_dom (s : State) (g : Mspi → Mspi) (m : Nat) : (s.modMspi g).dom m = s.dom m := rfl
@[simp] theorem State.modMspi_read_seq (s : State) (g : Mspi → Mspi) (m : Nat) : (s.modMspi g).seq m = s.seq m := rfl
@[simp] theorem State.modMspi_read_chan (s : State) (g : Mspi → Mspi) (m : Nat) : (s.modMspi g).chan m = s.chan m := rfl
@[simp] theorem State.modMspi_read_svc (s : State) (g : Mspi → Mspi) (m : Nat) : (s.modMspi g).svc m = s.svc m := rfl
@[simp] theorem State.modMspi_read_live (s : State) (g : Mspi → Mspi)  : (s.modMspi g).live = s.live := rfl
@[simp] theorem State.modMspi_read_up (s : State) (g : Mspi → Mspi)  : (s.modMspi g).up = s.up := rfl
@[simp] theorem State.modMspi_read_evStopped (s : State) (g : Mspi → Mspi)  : (s.modMspi g).evStopped = s.evStopped := rfl
@[simp] theorem State.modMspi_read_perStopped (s : State) (g : Mspi → Mspi)  : (s.modMspi g).perStopped = s.perStopped := rfl

/-! ### keepAerr -/

@[simp] theorem State.keepAerr_pending (s : State) (b : Bool) : (s.keepAerr b).pending = s.pending := rfl
@[simp] theorem State.keepAerr_tnow (s : State) (b : Bool) : (s.keepAerr b).tnow = s.tnow := rfl
@[simp] theorem State.keepAerr_wsNs (s : State) (b : Bool) : (s.keepAerr b).wsNs = s.wsNs := rfl
@[simp] theorem State.keepAerr_regs (s : State) (b : Bool) : (s.keepAerr b).regs = s.regs := rfl
@[simp] theorem State.keepAerr_mem (s : State) (b : Bool) : (s.keepAerr b).mem = s.mem := rfl
@[simp] theorem State.keepAerr_progErr (s : State) (b : Bool) : (s.keepAerr b).progErr = s.progErr := rfl
@[simp] theorem State.keepAerr_resp (s : State) (b : Bool) : (s.keepAerr b).resp = s.resp := rfl
@[simp] theorem State.keepAerr_latched (s : State) (b : Bool) : (s.keepAerr b).latched = s.latched := rfl
@[simp] theorem State.keepAerr_heldLow (s : State) (b : Bool) : (s.keepAerr b).heldLow = s.heldLow := rfl
@[simp] theorem State.keepAerr_logNew (s : State) (b : Bool) : (s.keepAerr b).logNew = s.logNew := rfl
@[simp] theorem State.keepAerr_lostOwed (s : State) (b : Bool) : (s.keepAerr b).lostOwed = s.lostOwed := rfl
@[simp] theorem State.keepAerr_armAt (s : State) (b : Bool) : (s.keepAerr b).armAt = s.armAt := rfl
@[simp] theorem State.keepAerr_doms (s : State) (b : Bool) : (s.keepAerr b).doms = s.doms := rfl
@[simp] theorem State.keepAerr_seqs (s : State) (b : Bool) : (s.keepAerr b).seqs = s.seqs := rfl
@[simp] theorem State.keepAerr_mapm (s : State) (b : Bool) : (s.keepAerr b).mapm = s.mapm := rfl
@[simp] theorem State.keepAerr_dataIn (s : State) (b : Bool) : (s.keepAerr b).dataIn = s.dataIn := rfl
@[simp] theorem State.keepAerr_chans (s : State) (b : Bool) : (s.keepAerr b).chans = s.chans := rfl
@[simp] theorem State.keepAerr_svcs (s : State) (b : Bool) : (s.keepAerr b).svcs = s.svcs := rfl
@[simp] theorem State.keepAerr_change (s : State) (b : Bool) : (s.keepAerr b).change = s.change := rfl
@[simp] theorem State.keepAerr_adcs (s : State) (b : Bool) : (s.keepAerr b).adcs = s.adcs := rfl
@[simp] theorem State.keepAerr_settle (s : State) (b : Bool) : (s.keepAerr b).settle = s.settle := rfl
@[simp] theorem State.keepAerr_basins (s : State) (b : Bool) : (s.keepAerr b).basins = s.basins := rfl
@[simp] theorem State.keepAerr_trkLatch (s : State) (b : Bool) : (s.keepAerr b).trkLatch = s.trkLatch := rfl
@[simp] theorem State.keepAerr_feeds (s : State) (b : Bool) : (s.keepAerr b).feeds = s.feeds := rfl
@[simp] theorem State.keepAerr_weightSwap (s : State) (b : Bool) : (s.keepAerr b).weightSwap = s.weightSwap := rfl
@[simp] theorem State.keepAerr_hold3 (s : State) (b : Bool) : (s.keepAerr b).hold3 = s.hold3 := rfl
@[simp] theorem State.keepAerr_hold2 (s : State) (b : Bool) : (s.keepAerr b).hold2 = s.hold2 := rfl
@[simp] theorem State.keepAerr_cmps (s : State) (b : Bool) : (s.keepAerr b).cmps = s.cmps := rfl
@[simp] theorem State.keepAerr_trips (s : State) (b : Bool) : (s.keepAerr b).trips = s.trips := rfl
@[simp] theorem State.keepAerr_pwms (s : State) (b : Bool) : (s.keepAerr b).pwms = s.pwms := rfl
@[simp] theorem State.keepAerr_auxOff (s : State) (b : Bool) : (s.keepAerr b).auxOff = s.auxOff := rfl
@[simp] theorem State.keepAerr_clkStopAt (s : State) (b : Bool) : (s.keepAerr b).clkStopAt = s.clkStopAt := rfl
@[simp] theorem State.keepAerr_ioes (s : State) (b : Bool) : (s.keepAerr b).ioes = s.ioes := rfl
@[simp] theorem State.keepAerr_gio (s : State) (b : Bool) : (s.keepAerr b).gio = s.gio := rfl
@[simp] theorem State.keepAerr_dmas (s : State) (b : Bool) : (s.keepAerr b).dmas = s.dmas := rfl
@[simp] theorem State.keepAerr_pcie (s : State) (b : Bool) : (s.keepAerr b).pcie = s.pcie := rfl
@[simp] theorem State.keepAerr_power (s : State) (b : Bool) : (s.keepAerr b).power = s.power := rfl
@[simp] theorem State.keepAerr_den (s : State) (b : Bool) : (s.keepAerr b).den = s.den := rfl
@[simp] theorem State.keepAerr_pair (s : State) (b : Bool) : (s.keepAerr b).pair = s.pair := rfl
@[simp] theorem State.keepAerr_read_fld (s : State) (b : Bool) (fl : Fld) (j : Nat) : (s.keepAerr b).fld fl j = s.fld fl j := rfl
@[simp] theorem State.keepAerr_read_flag (s : State) (b : Bool) (fl : Fld) (j : Nat) : (s.keepAerr b).flag fl j = s.flag fl j := rfl
@[simp] theorem State.keepAerr_read_byte (s : State) (b : Bool) (p : Nat) : (s.keepAerr b).byte p = s.byte p := rfl
@[simp] theorem State.keepAerr_read_dom (s : State) (b : Bool) (m : Nat) : (s.keepAerr b).dom m = s.dom m := rfl
@[simp] theorem State.keepAerr_read_seq (s : State) (b : Bool) (m : Nat) : (s.keepAerr b).seq m = s.seq m := rfl
@[simp] theorem State.keepAerr_read_chan (s : State) (b : Bool) (m : Nat) : (s.keepAerr b).chan m = s.chan m := rfl
@[simp] theorem State.keepAerr_read_svc (s : State) (b : Bool) (m : Nat) : (s.keepAerr b).svc m = s.svc m := rfl
@[simp] theorem State.keepAerr_read_live (s : State) (b : Bool)  : (s.keepAerr b).live = s.live := rfl
@[simp] theorem State.keepAerr_read_up (s : State) (b : Bool)  : (s.keepAerr b).up = s.up := rfl
@[simp] theorem State.keepAerr_read_evStopped (s : State) (b : Bool)  : (s.keepAerr b).evStopped = s.evStopped := rfl
@[simp] theorem State.keepAerr_read_perStopped (s : State) (b : Bool)  : (s.keepAerr b).perStopped = s.perStopped := rfl

/-! ### modPower -/

@[simp] theorem State.modPower_pending (s : State) (g : Power → Power) : (s.modPower g).pending = s.pending := rfl
@[simp] theorem State.modPower_tnow (s : State) (g : Power → Power) : (s.modPower g).tnow = s.tnow := rfl
@[simp] theorem State.modPower_wsNs (s : State) (g : Power → Power) : (s.modPower g).wsNs = s.wsNs := rfl
@[simp] theorem State.modPower_regs (s : State) (g : Power → Power) : (s.modPower g).regs = s.regs := rfl
@[simp] theorem State.modPower_mem (s : State) (g : Power → Power) : (s.modPower g).mem = s.mem := rfl
@[simp] theorem State.modPower_progErr (s : State) (g : Power → Power) : (s.modPower g).progErr = s.progErr := rfl
@[simp] theorem State.modPower_resp (s : State) (g : Power → Power) : (s.modPower g).resp = s.resp := rfl
@[simp] theorem State.modPower_latched (s : State) (g : Power → Power) : (s.modPower g).latched = s.latched := rfl
@[simp] theorem State.modPower_heldLow (s : State) (g : Power → Power) : (s.modPower g).heldLow = s.heldLow := rfl
@[simp] theorem State.modPower_logNew (s : State) (g : Power → Power) : (s.modPower g).logNew = s.logNew := rfl
@[simp] theorem State.modPower_lostOwed (s : State) (g : Power → Power) : (s.modPower g).lostOwed = s.lostOwed := rfl
@[simp] theorem State.modPower_armAt (s : State) (g : Power → Power) : (s.modPower g).armAt = s.armAt := rfl
@[simp] theorem State.modPower_doms (s : State) (g : Power → Power) : (s.modPower g).doms = s.doms := rfl
@[simp] theorem State.modPower_seqs (s : State) (g : Power → Power) : (s.modPower g).seqs = s.seqs := rfl
@[simp] theorem State.modPower_mapm (s : State) (g : Power → Power) : (s.modPower g).mapm = s.mapm := rfl
@[simp] theorem State.modPower_dataIn (s : State) (g : Power → Power) : (s.modPower g).dataIn = s.dataIn := rfl
@[simp] theorem State.modPower_chans (s : State) (g : Power → Power) : (s.modPower g).chans = s.chans := rfl
@[simp] theorem State.modPower_svcs (s : State) (g : Power → Power) : (s.modPower g).svcs = s.svcs := rfl
@[simp] theorem State.modPower_change (s : State) (g : Power → Power) : (s.modPower g).change = s.change := rfl
@[simp] theorem State.modPower_adcs (s : State) (g : Power → Power) : (s.modPower g).adcs = s.adcs := rfl
@[simp] theorem State.modPower_settle (s : State) (g : Power → Power) : (s.modPower g).settle = s.settle := rfl
@[simp] theorem State.modPower_basins (s : State) (g : Power → Power) : (s.modPower g).basins = s.basins := rfl
@[simp] theorem State.modPower_trkLatch (s : State) (g : Power → Power) : (s.modPower g).trkLatch = s.trkLatch := rfl
@[simp] theorem State.modPower_feeds (s : State) (g : Power → Power) : (s.modPower g).feeds = s.feeds := rfl
@[simp] theorem State.modPower_weightSwap (s : State) (g : Power → Power) : (s.modPower g).weightSwap = s.weightSwap := rfl
@[simp] theorem State.modPower_hold3 (s : State) (g : Power → Power) : (s.modPower g).hold3 = s.hold3 := rfl
@[simp] theorem State.modPower_hold2 (s : State) (g : Power → Power) : (s.modPower g).hold2 = s.hold2 := rfl
@[simp] theorem State.modPower_cmps (s : State) (g : Power → Power) : (s.modPower g).cmps = s.cmps := rfl
@[simp] theorem State.modPower_trips (s : State) (g : Power → Power) : (s.modPower g).trips = s.trips := rfl
@[simp] theorem State.modPower_pwms (s : State) (g : Power → Power) : (s.modPower g).pwms = s.pwms := rfl
@[simp] theorem State.modPower_auxOff (s : State) (g : Power → Power) : (s.modPower g).auxOff = s.auxOff := rfl
@[simp] theorem State.modPower_clkStopAt (s : State) (g : Power → Power) : (s.modPower g).clkStopAt = s.clkStopAt := rfl
@[simp] theorem State.modPower_ioes (s : State) (g : Power → Power) : (s.modPower g).ioes = s.ioes := rfl
@[simp] theorem State.modPower_gio (s : State) (g : Power → Power) : (s.modPower g).gio = s.gio := rfl
@[simp] theorem State.modPower_dmas (s : State) (g : Power → Power) : (s.modPower g).dmas = s.dmas := rfl
@[simp] theorem State.modPower_pcie (s : State) (g : Power → Power) : (s.modPower g).pcie = s.pcie := rfl
@[simp] theorem State.modPower_mspi (s : State) (g : Power → Power) : (s.modPower g).mspi = s.mspi := rfl
@[simp] theorem State.modPower_den (s : State) (g : Power → Power) : (s.modPower g).den = s.den := rfl
@[simp] theorem State.modPower_pair (s : State) (g : Power → Power) : (s.modPower g).pair = s.pair := rfl
@[simp] theorem State.modPower_read_fld (s : State) (g : Power → Power) (fl : Fld) (j : Nat) : (s.modPower g).fld fl j = s.fld fl j := rfl
@[simp] theorem State.modPower_read_flag (s : State) (g : Power → Power) (fl : Fld) (j : Nat) : (s.modPower g).flag fl j = s.flag fl j := rfl
@[simp] theorem State.modPower_read_byte (s : State) (g : Power → Power) (p : Nat) : (s.modPower g).byte p = s.byte p := rfl
@[simp] theorem State.modPower_read_dom (s : State) (g : Power → Power) (m : Nat) : (s.modPower g).dom m = s.dom m := rfl
@[simp] theorem State.modPower_read_seq (s : State) (g : Power → Power) (m : Nat) : (s.modPower g).seq m = s.seq m := rfl
@[simp] theorem State.modPower_read_chan (s : State) (g : Power → Power) (m : Nat) : (s.modPower g).chan m = s.chan m := rfl
@[simp] theorem State.modPower_read_svc (s : State) (g : Power → Power) (m : Nat) : (s.modPower g).svc m = s.svc m := rfl

/-! ### modPair -/

@[simp] theorem State.modPair_pending (s : State) (g : Pair → Pair) : (s.modPair g).pending = s.pending := rfl
@[simp] theorem State.modPair_tnow (s : State) (g : Pair → Pair) : (s.modPair g).tnow = s.tnow := rfl
@[simp] theorem State.modPair_wsNs (s : State) (g : Pair → Pair) : (s.modPair g).wsNs = s.wsNs := rfl
@[simp] theorem State.modPair_regs (s : State) (g : Pair → Pair) : (s.modPair g).regs = s.regs := rfl
@[simp] theorem State.modPair_mem (s : State) (g : Pair → Pair) : (s.modPair g).mem = s.mem := rfl
@[simp] theorem State.modPair_progErr (s : State) (g : Pair → Pair) : (s.modPair g).progErr = s.progErr := rfl
@[simp] theorem State.modPair_resp (s : State) (g : Pair → Pair) : (s.modPair g).resp = s.resp := rfl
@[simp] theorem State.modPair_latched (s : State) (g : Pair → Pair) : (s.modPair g).latched = s.latched := rfl
@[simp] theorem State.modPair_heldLow (s : State) (g : Pair → Pair) : (s.modPair g).heldLow = s.heldLow := rfl
@[simp] theorem State.modPair_logNew (s : State) (g : Pair → Pair) : (s.modPair g).logNew = s.logNew := rfl
@[simp] theorem State.modPair_lostOwed (s : State) (g : Pair → Pair) : (s.modPair g).lostOwed = s.lostOwed := rfl
@[simp] theorem State.modPair_armAt (s : State) (g : Pair → Pair) : (s.modPair g).armAt = s.armAt := rfl
@[simp] theorem State.modPair_doms (s : State) (g : Pair → Pair) : (s.modPair g).doms = s.doms := rfl
@[simp] theorem State.modPair_seqs (s : State) (g : Pair → Pair) : (s.modPair g).seqs = s.seqs := rfl
@[simp] theorem State.modPair_mapm (s : State) (g : Pair → Pair) : (s.modPair g).mapm = s.mapm := rfl
@[simp] theorem State.modPair_dataIn (s : State) (g : Pair → Pair) : (s.modPair g).dataIn = s.dataIn := rfl
@[simp] theorem State.modPair_chans (s : State) (g : Pair → Pair) : (s.modPair g).chans = s.chans := rfl
@[simp] theorem State.modPair_svcs (s : State) (g : Pair → Pair) : (s.modPair g).svcs = s.svcs := rfl
@[simp] theorem State.modPair_change (s : State) (g : Pair → Pair) : (s.modPair g).change = s.change := rfl
@[simp] theorem State.modPair_adcs (s : State) (g : Pair → Pair) : (s.modPair g).adcs = s.adcs := rfl
@[simp] theorem State.modPair_settle (s : State) (g : Pair → Pair) : (s.modPair g).settle = s.settle := rfl
@[simp] theorem State.modPair_basins (s : State) (g : Pair → Pair) : (s.modPair g).basins = s.basins := rfl
@[simp] theorem State.modPair_trkLatch (s : State) (g : Pair → Pair) : (s.modPair g).trkLatch = s.trkLatch := rfl
@[simp] theorem State.modPair_feeds (s : State) (g : Pair → Pair) : (s.modPair g).feeds = s.feeds := rfl
@[simp] theorem State.modPair_weightSwap (s : State) (g : Pair → Pair) : (s.modPair g).weightSwap = s.weightSwap := rfl
@[simp] theorem State.modPair_hold3 (s : State) (g : Pair → Pair) : (s.modPair g).hold3 = s.hold3 := rfl
@[simp] theorem State.modPair_hold2 (s : State) (g : Pair → Pair) : (s.modPair g).hold2 = s.hold2 := rfl
@[simp] theorem State.modPair_cmps (s : State) (g : Pair → Pair) : (s.modPair g).cmps = s.cmps := rfl
@[simp] theorem State.modPair_trips (s : State) (g : Pair → Pair) : (s.modPair g).trips = s.trips := rfl
@[simp] theorem State.modPair_pwms (s : State) (g : Pair → Pair) : (s.modPair g).pwms = s.pwms := rfl
@[simp] theorem State.modPair_auxOff (s : State) (g : Pair → Pair) : (s.modPair g).auxOff = s.auxOff := rfl
@[simp] theorem State.modPair_clkStopAt (s : State) (g : Pair → Pair) : (s.modPair g).clkStopAt = s.clkStopAt := rfl
@[simp] theorem State.modPair_ioes (s : State) (g : Pair → Pair) : (s.modPair g).ioes = s.ioes := rfl
@[simp] theorem State.modPair_gio (s : State) (g : Pair → Pair) : (s.modPair g).gio = s.gio := rfl
@[simp] theorem State.modPair_dmas (s : State) (g : Pair → Pair) : (s.modPair g).dmas = s.dmas := rfl
@[simp] theorem State.modPair_pcie (s : State) (g : Pair → Pair) : (s.modPair g).pcie = s.pcie := rfl
@[simp] theorem State.modPair_mspi (s : State) (g : Pair → Pair) : (s.modPair g).mspi = s.mspi := rfl
@[simp] theorem State.modPair_power (s : State) (g : Pair → Pair) : (s.modPair g).power = s.power := rfl
@[simp] theorem State.modPair_den (s : State) (g : Pair → Pair) : (s.modPair g).den = s.den := rfl
@[simp] theorem State.modPair_read_fld (s : State) (g : Pair → Pair) (fl : Fld) (j : Nat) : (s.modPair g).fld fl j = s.fld fl j := rfl
@[simp] theorem State.modPair_read_flag (s : State) (g : Pair → Pair) (fl : Fld) (j : Nat) : (s.modPair g).flag fl j = s.flag fl j := rfl
@[simp] theorem State.modPair_read_byte (s : State) (g : Pair → Pair) (p : Nat) : (s.modPair g).byte p = s.byte p := rfl
@[simp] theorem State.modPair_read_dom (s : State) (g : Pair → Pair) (m : Nat) : (s.modPair g).dom m = s.dom m := rfl
@[simp] theorem State.modPair_read_seq (s : State) (g : Pair → Pair) (m : Nat) : (s.modPair g).seq m = s.seq m := rfl
@[simp] theorem State.modPair_read_chan (s : State) (g : Pair → Pair) (m : Nat) : (s.modPair g).chan m = s.chan m := rfl
@[simp] theorem State.modPair_read_svc (s : State) (g : Pair → Pair) (m : Nat) : (s.modPair g).svc m = s.svc m := rfl
@[simp] theorem State.modPair_read_live (s : State) (g : Pair → Pair)  : (s.modPair g).live = s.live := rfl
@[simp] theorem State.modPair_read_up (s : State) (g : Pair → Pair)  : (s.modPair g).up = s.up := rfl
@[simp] theorem State.modPair_read_evStopped (s : State) (g : Pair → Pair)  : (s.modPair g).evStopped = s.evStopped := rfl
@[simp] theorem State.modPair_read_perStopped (s : State) (g : Pair → Pair)  : (s.modPair g).perStopped = s.perStopped := rfl

/-! ### respond -/

@[simp] theorem State.respond_pending (s : State) (r : Resp) : (s.respond r).pending = s.pending := rfl
@[simp] theorem State.respond_tnow (s : State) (r : Resp) : (s.respond r).tnow = s.tnow := rfl
@[simp] theorem State.respond_wsNs (s : State) (r : Resp) : (s.respond r).wsNs = s.wsNs := rfl
@[simp] theorem State.respond_regs (s : State) (r : Resp) : (s.respond r).regs = s.regs := rfl
@[simp] theorem State.respond_mem (s : State) (r : Resp) : (s.respond r).mem = s.mem := rfl
@[simp] theorem State.respond_progErr (s : State) (r : Resp) : (s.respond r).progErr = s.progErr := rfl
@[simp] theorem State.respond_latched (s : State) (r : Resp) : (s.respond r).latched = s.latched := rfl
@[simp] theorem State.respond_heldLow (s : State) (r : Resp) : (s.respond r).heldLow = s.heldLow := rfl
@[simp] theorem State.respond_logNew (s : State) (r : Resp) : (s.respond r).logNew = s.logNew := rfl
@[simp] theorem State.respond_lostOwed (s : State) (r : Resp) : (s.respond r).lostOwed = s.lostOwed := rfl
@[simp] theorem State.respond_armAt (s : State) (r : Resp) : (s.respond r).armAt = s.armAt := rfl
@[simp] theorem State.respond_doms (s : State) (r : Resp) : (s.respond r).doms = s.doms := rfl
@[simp] theorem State.respond_seqs (s : State) (r : Resp) : (s.respond r).seqs = s.seqs := rfl
@[simp] theorem State.respond_mapm (s : State) (r : Resp) : (s.respond r).mapm = s.mapm := rfl
@[simp] theorem State.respond_dataIn (s : State) (r : Resp) : (s.respond r).dataIn = s.dataIn := rfl
@[simp] theorem State.respond_chans (s : State) (r : Resp) : (s.respond r).chans = s.chans := rfl
@[simp] theorem State.respond_svcs (s : State) (r : Resp) : (s.respond r).svcs = s.svcs := rfl
@[simp] theorem State.respond_change (s : State) (r : Resp) : (s.respond r).change = s.change := rfl
@[simp] theorem State.respond_adcs (s : State) (r : Resp) : (s.respond r).adcs = s.adcs := rfl
@[simp] theorem State.respond_settle (s : State) (r : Resp) : (s.respond r).settle = s.settle := rfl
@[simp] theorem State.respond_basins (s : State) (r : Resp) : (s.respond r).basins = s.basins := rfl
@[simp] theorem State.respond_trkLatch (s : State) (r : Resp) : (s.respond r).trkLatch = s.trkLatch := rfl
@[simp] theorem State.respond_feeds (s : State) (r : Resp) : (s.respond r).feeds = s.feeds := rfl
@[simp] theorem State.respond_weightSwap (s : State) (r : Resp) : (s.respond r).weightSwap = s.weightSwap := rfl
@[simp] theorem State.respond_hold3 (s : State) (r : Resp) : (s.respond r).hold3 = s.hold3 := rfl
@[simp] theorem State.respond_hold2 (s : State) (r : Resp) : (s.respond r).hold2 = s.hold2 := rfl
@[simp] theorem State.respond_cmps (s : State) (r : Resp) : (s.respond r).cmps = s.cmps := rfl
@[simp] theorem State.respond_trips (s : State) (r : Resp) : (s.respond r).trips = s.trips := rfl
@[simp] theorem State.respond_pwms (s : State) (r : Resp) : (s.respond r).pwms = s.pwms := rfl
@[simp] theorem State.respond_auxOff (s : State) (r : Resp) : (s.respond r).auxOff = s.auxOff := rfl
@[simp] theorem State.respond_clkStopAt (s : State) (r : Resp) : (s.respond r).clkStopAt = s.clkStopAt := rfl
@[simp] theorem State.respond_ioes (s : State) (r : Resp) : (s.respond r).ioes = s.ioes := rfl
@[simp] theorem State.respond_gio (s : State) (r : Resp) : (s.respond r).gio = s.gio := rfl
@[simp] theorem State.respond_dmas (s : State) (r : Resp) : (s.respond r).dmas = s.dmas := rfl
@[simp] theorem State.respond_pcie (s : State) (r : Resp) : (s.respond r).pcie = s.pcie := rfl
@[simp] theorem State.respond_mspi (s : State) (r : Resp) : (s.respond r).mspi = s.mspi := rfl
@[simp] theorem State.respond_power (s : State) (r : Resp) : (s.respond r).power = s.power := rfl
@[simp] theorem State.respond_den (s : State) (r : Resp) : (s.respond r).den = s.den := rfl
@[simp] theorem State.respond_pair (s : State) (r : Resp) : (s.respond r).pair = s.pair := rfl
@[simp] theorem State.respond_read_fld (s : State) (r : Resp) (fl : Fld) (j : Nat) : (s.respond r).fld fl j = s.fld fl j := rfl
@[simp] theorem State.respond_read_flag (s : State) (r : Resp) (fl : Fld) (j : Nat) : (s.respond r).flag fl j = s.flag fl j := rfl
@[simp] theorem State.respond_read_byte (s : State) (r : Resp) (p : Nat) : (s.respond r).byte p = s.byte p := rfl
@[simp] theorem State.respond_read_dom (s : State) (r : Resp) (m : Nat) : (s.respond r).dom m = s.dom m := rfl
@[simp] theorem State.respond_read_seq (s : State) (r : Resp) (m : Nat) : (s.respond r).seq m = s.seq m := rfl
@[simp] theorem State.respond_read_chan (s : State) (r : Resp) (m : Nat) : (s.respond r).chan m = s.chan m := rfl
@[simp] theorem State.respond_read_svc (s : State) (r : Resp) (m : Nat) : (s.respond r).svc m = s.svc m := rfl
@[simp] theorem State.respond_read_live (s : State) (r : Resp)  : (s.respond r).live = s.live := rfl
@[simp] theorem State.respond_read_up (s : State) (r : Resp)  : (s.respond r).up = s.up := rfl
@[simp] theorem State.respond_read_evStopped (s : State) (r : Resp)  : (s.respond r).evStopped = s.evStopped := rfl
@[simp] theorem State.respond_read_perStopped (s : State) (r : Resp)  : (s.respond r).perStopped = s.perStopped := rfl

end Sys2Proof.Machine
end

