-- ==== Sys2Proof/Laws/Store.lean ====
section
/-! SUPPORT. The laws of finite tables: a read after a write, and the canonical form that every write keeps. -/

namespace Sys2Proof.Machine

variable {α : Type}

/-- Every listed key lies above `k`. -/
def Tab.above (k : Nat) (t : Tab α) : Prop := ∀ e ∈ t, k < e.1

/-- The canonical order, by its tail. -/
theorem Tab.rising_cons (e : Nat × α) (t : Tab α) :
    Tab.rising (e :: t) = true ↔ Tab.above e.1 t ∧ Tab.rising t = true := by
  induction t generalizing e with
  | nil => simp [Tab.rising, Tab.above]
  | cons f r ih =>
    obtain ⟨j, v⟩ := e
    obtain ⟨k, w⟩ := f
    have key : Tab.rising ((j, v) :: (k, w) :: r) = true ↔ j < k ∧ Tab.rising ((k, w) :: r) = true := by
      simp [Tab.rising]
    rw [key]
    constructor
    · rintro ⟨h, hr⟩
      refine ⟨?_, hr⟩
      intro x hx
      rcases List.mem_cons.1 hx with rfl | hx
      · exact h
      · exact Nat.lt_trans h (((ih (k, w)).1 hr).1 x hx)
    · rintro ⟨ha, hr⟩
      exact ⟨ha (k, w) (by simp), hr⟩

theorem Tab.find_above {t : Tab α} {k : Nat} (h : Tab.above k t) : Tab.find t k = none := by
  cases t with
  | nil => rfl
  | cons e r =>
    have hk := h e (by simp)
    simp [Tab.find, Nat.ne_of_lt hk, hk]

theorem Tab.above_put {t : Tab α} {j k : Nat} {o : Option α} (h : Tab.above j t) (hj : j < k) :
    Tab.above j (Tab.put t k o) := by
  induction t with
  | nil => cases o <;> simp [Tab.put, Tab.above, hj]
  | cons e r ih =>
    have hr : Tab.above j r := fun x hx => h x (by simp [hx])
    have he := h e (by simp)
    intro x hx
    unfold Tab.put at hx
    split at hx
    · cases o with
      | none => exact hr x hx
      | some v => rcases List.mem_cons.1 hx with rfl | hx
                  · exact hj
                  · exact hr x hx
    · split at hx
      · cases o with
        | none => exact h x hx
        | some v => rcases List.mem_cons.1 hx with rfl | hx
                    · exact hj
                    · exact h x hx
      · rcases List.mem_cons.1 hx with rfl | hx
        · exact he
        · exact ih hr x hx

/-- A write keeps the canonical order. -/
theorem Tab.rising_put {t : Tab α} (k : Nat) (o : Option α) (h : Tab.rising t = true) :
    Tab.rising (Tab.put t k o) = true := by
  induction t with
  | nil => cases o <;> simp [Tab.put, Tab.rising]
  | cons e r ih =>
    obtain ⟨ha, hr⟩ := (Tab.rising_cons e r).1 h
    unfold Tab.put
    split
    · rename_i hk
      cases o with
      | none => exact hr
      | some v => exact (Tab.rising_cons _ _).2 ⟨by simpa [hk] using ha, hr⟩
    · split
      · rename_i hk
        cases o with
        | none => exact h
        | some v =>
          refine (Tab.rising_cons _ _).2 ⟨?_, h⟩
          intro x hx
          rcases List.mem_cons.1 hx with rfl | hx
          · exact hk
          · exact Nat.lt_trans hk (ha x hx)
      · refine (Tab.rising_cons _ _).2 ⟨Tab.above_put ha (by omega), ih hr⟩

/-- A read after a write of the same key. -/
theorem Tab.find_put_self {t : Tab α} (k : Nat) (o : Option α) (h : Tab.rising t = true) :
    Tab.find (Tab.put t k o) k = o := by
  induction t with
  | nil => cases o <;> simp [Tab.put, Tab.find]
  | cons e r ih =>
    obtain ⟨ha, hr⟩ := (Tab.rising_cons e r).1 h
    unfold Tab.put
    split
    · rename_i hk
      cases o with
      | none => exact Tab.find_above (by simpa [hk] using ha)
      | some v => simp [Tab.find]
    · split
      · rename_i hn hk
        cases o with
        | none => simp [Tab.find, hn, hk]
        | some v => simp [Tab.find]
      · rename_i hn hk
        simp [Tab.find, hn, hk, ih hr]

/-- A write leaves every other key alone. -/
theorem Tab.find_put_other {t : Tab α} {k j : Nat} (o : Option α) (h : Tab.rising t = true) (hj : j ≠ k) :
    Tab.find (Tab.put t k o) j = Tab.find t j := by
  induction t with
  | nil =>
    cases o with
    | none => rfl
    | some v => by_cases hl : j < k <;> simp [Tab.put, Tab.find, hj, hl]
  | cons e r ih =>
    obtain ⟨ha, hr⟩ := (Tab.rising_cons e r).1 h
    unfold Tab.put
    split
    · rename_i hk
      subst hk
      cases o with
      | none =>
        by_cases hl : j < e.1
        · rw [Tab.find_above (fun x hx => Nat.lt_trans hl (ha x hx))]
          simp [Tab.find, hj, hl]
        · simp [Tab.find, hj, hl]
      | some v => simp [Tab.find, hj]
    · split
      · rename_i hn hk
        cases o with
        | none => rfl
        | some v =>
          by_cases hl : j < k
          · have : Tab.find (e :: r) j = none := by
              apply Tab.find_above
              intro x hx
              rcases List.mem_cons.1 hx with rfl | hx
              · omega
              · exact Nat.lt_trans (by omega) (ha x hx)
            rw [this]
            simp [Tab.find, hj, hl]
          · simp [Tab.find, hj, hl]
      · simp [Tab.find, ih hr]

/-- What a write does to a read, in one equation. -/
theorem Tab.find_put {t : Tab α} (k j : Nat) (o : Option α) (h : Tab.rising t = true) :
    Tab.find (Tab.put t k o) j = if j = k then o else Tab.find t j := by
  by_cases hj : j = k
  · subst hj
    simp [Tab.find_put_self _ _ h]
  · simp [Tab.find_put_other _ h hj, hj]

theorem Tab.rising_set [DecidableEq α] (d : α) {t : Tab α} (k : Nat) (v : α) (h : Tab.rising t = true) :
    Tab.rising (Tab.set d t k v) = true := Tab.rising_put _ _ h

/-- What a store does to a read of a table with a default. -/
theorem Tab.get_set [DecidableEq α] (d : α) {t : Tab α} (k j : Nat) (v : α) (h : Tab.rising t = true) :
    Tab.get d (Tab.set d t k v) j = if j = k then v else Tab.get d t j := by
  unfold Tab.get Tab.set
  rw [Tab.find_put _ _ _ h]
  by_cases hj : j = k <;> by_cases hv : v = d <;> simp [hj, hv]

/-- The entries of a written table are the written one and old ones. -/
theorem Tab.mem_put {t : Tab α} {k : Nat} {o : Option α} {e : Nat × α} (h : e ∈ Tab.put t k o) :
    e ∈ t ∨ o = some e.2 ∧ e.1 = k := by
  induction t with
  | nil => cases o <;> simp_all [Tab.put]
  | cons f r ih =>
    unfold Tab.put at h
    split at h
    · cases o <;> simp_all
      rcases h with rfl | h <;> simp_all
    · split at h
      · cases o <;> simp_all
        rcases h with rfl | h | h <;> simp_all
      · rcases List.mem_cons.1 h with rfl | h
        · simp
        · rcases ih h with h | h <;> simp [h]

/-- A test that every entry passes still holds after a write of an entry that passes it. -/
theorem Tab.every_put {p : Nat → α → Bool} {t : Tab α} {k : Nat} {o : Option α} (h : Tab.every p t = true)
    (ho : ∀ v, o = some v → p k v = true) : Tab.every p (Tab.put t k o) = true := by
  unfold Tab.every at *
  rw [List.all_eq_true] at *
  intro e he
  rcases Tab.mem_put he with he | ⟨h1, h2⟩
  · exact h e he
  · subst h2
    exact ho _ h1

theorem Tab.every_set [DecidableEq α] {p : Nat → α → Bool} {d : α} {t : Tab α} {k : Nat} {v : α}
    (h : Tab.every p t = true) (hv : v ≠ d → p k v = true) : Tab.every p (Tab.set d t k v) = true := by
  apply Tab.every_put h
  intro w hw
  by_cases hd : v = d
  · simp [hd] at hw
  · simp [hd] at hw
    exact hw ▸ hv hd

/-- A value found is listed. -/
theorem Tab.mem_of_find {t : Tab α} {k : Nat} {v : α} (h : Tab.find t k = some v) : (k, v) ∈ t := by
  induction t with
  | nil => simp [Tab.find] at h
  | cons e r ih =>
    unfold Tab.find at h
    split at h
    · rename_i hk
      have hv : e.2 = v := by simpa using h
      exact hv ▸ hk ▸ List.mem_cons_self
    · split at h
      · simp at h
      · exact List.mem_cons_of_mem _ (ih h)

/-- A part of a rising table is rising. -/
theorem Tab.rising_filter {t : Tab α} (p : Nat × α → Bool) (h : Tab.rising t = true) :
    Tab.rising (t.filter p) = true := by
  induction t with
  | nil => rfl
  | cons e r ih =>
    obtain ⟨ha, hr⟩ := (Tab.rising_cons e r).1 h
    by_cases hp : p e = true
    · rw [List.filter_cons_of_pos hp]
      exact (Tab.rising_cons _ _).2 ⟨fun x hx => ha x ((List.mem_filter.1 hx).1), ih hr⟩
    · rw [List.filter_cons_of_neg hp]
      exact ih hr

/-- A table whose values are mapped, or dropped, keeps its keys in order. -/
theorem Tab.rising_filterMap {β : Type} {t : Tab α} (f : α → Option β) (h : Tab.rising t = true) :
    Tab.rising (t.filterMap fun e => (f e.2).map fun x => (e.1, x)) = true := by
  induction t with
  | nil => rfl
  | cons e r ih =>
    obtain ⟨ha, hr⟩ := (Tab.rising_cons e r).1 h
    rw [List.filterMap_cons]
    cases hf : f e.2 with
    | none => exact ih hr
    | some v =>
      refine (Tab.rising_cons _ _).2 ⟨fun x hx => ?_, ih hr⟩
      obtain ⟨y, hy, hxy⟩ := List.mem_filterMap.1 hx
      obtain ⟨z, -, rfl⟩ := Option.map_eq_some_iff.1 hxy
      exact ha y hy

/-- A table whose values are mapped keeps its keys in order. -/
theorem Tab.rising_map {β : Type} {t : Tab α} (f : α → β) (h : Tab.rising t = true) :
    Tab.rising (t.map fun e => (e.1, f e.2)) = true := by
  have := Tab.rising_filterMap (fun v => some (f v)) h
  simpa using this

end Sys2Proof.Machine
end

