-- ==== Sys2Proof/Laws/Fields.lean ====
section
/-! SUPPORT. The laws of register fields: a read after a store, the widths, and the test of a one-bit field. -/

namespace Sys2Proof.Machine

/-- A field is named by its number. -/
theorem Fld.ctorIdx_inj {f g : Fld} (h : f.ctorIdx = g.ctorIdx) : f = g := by
  have := congrArg Fld.ofNat h
  rwa [Fld.ofNat_ctorIdx, Fld.ofNat_ctorIdx] at this

/-- Two instances share a key only where they are one. -/
theorem Fld.key_eq {f g : Fld} {i j : Nat} : f.key i = g.key j ↔ f = g ∧ i % 1024 = j % 1024 := by
  unfold Fld.key
  constructor
  · intro h
    refine ⟨Fld.ctorIdx_inj (by omega), by omega⟩
  · rintro ⟨rfl, h⟩
    omega

theorem Fld.resetAt_mod (f : Fld) (i : Nat) : f.resetAt (i % 1024) = f.resetAt i := by
  cases f <;> first | rfl | simp [Fld.resetAt]

theorem maskN_lt (w v : Nat) : maskN w v < 2 ^ w := Nat.mod_lt _ (Nat.two_pow_pos w)

@[simp] theorem b2n_true : b2n true = 1 := rfl
@[simp] theorem b2n_false : b2n false = 0 := rfl
@[simp] theorem b2n_ne_zero (b : Bool) : (b2n b != 0) = b := by cases b <;> rfl
@[simp] theorem b2n_le_one (b : Bool) : b2n b ≤ 1 := by cases b <;> decide

/-- The field store is in its canonical order. -/
abbrev State.regsOk (s : State) : Prop := Tab.rising s.regs = true

@[simp] theorem State.setFld_regsOk {s : State} (f : Fld) (i v : Nat) (h : s.regsOk) : (s.setFld f i v).regsOk :=
  Tab.rising_set _ _ _ h

/-- A read of a field after a store of a field. -/
theorem State.fld_setFld {s : State} (h : s.regsOk) (f g : Fld) (i j v : Nat) :
    (s.setFld f i v).fld g j = if g = f ∧ j % 1024 = i % 1024 then maskN f.width v else s.fld g j := by
  unfold State.fld State.setFld
  by_cases hk : g = f ∧ j % 1024 = i % 1024
  · obtain ⟨rfl, hij⟩ := hk
    have hr : g.resetAt j = g.resetAt i := by rw [← Fld.resetAt_mod g j, hij, Fld.resetAt_mod]
    rw [hr, Tab.get_set _ _ _ _ h]
    simp [Fld.key_eq, hij]
  · have hne : ¬ (g.key j = f.key i) := fun hc => hk (Fld.key_eq.1 hc)
    rw [if_neg hk]
    unfold Tab.get Tab.set
    rw [Tab.find_put_other _ h hne]

/-- The stored field itself. -/
theorem State.fld_setFld_self {s : State} (h : s.regsOk) (f : Fld) (i v : Nat) :
    (s.setFld f i v).fld f i = maskN f.width v := by
  simp [State.fld_setFld h]

/-- Another field. -/
theorem State.fld_setFld_ne {s : State} (h : s.regsOk) {f g : Fld} (i j v : Nat) (hf : g ≠ f) :
    (s.setFld f i v).fld g j = s.fld g j := by
  simp [State.fld_setFld h, hf]

/-- A flag after a store of a field. -/
theorem State.flag_setFld {s : State} (h : s.regsOk) (f g : Fld) (i j v : Nat) :
    (s.setFld f i v).flag g j = if g = f ∧ j % 1024 = i % 1024 then maskN f.width v != 0 else s.flag g j := by
  unfold State.flag
  rw [State.fld_setFld h]
  split <;> rfl

end Sys2Proof.Machine
end

