-- ==== Sys2Proof/Laws/Reach.lean ====
section
/-! SUPPORT. What an operation can write, said once: `Reach W s t` holds where `t` comes from `s` by writes of the parts
in `W` alone, each write keeping the canonical form of its part. The frame of every part outside `W` and the invariant of
the machine both follow from it. -/

namespace Sys2Proof.Machine

/-- One write of one part. -/
inductive Part.Write (t : State) : Part → State → Prop
  | tnow (x : _) (h : t.tnow < 2 ^ 64 → x < 2 ^ 64) : Part.Write t .tnow { t with tnow := x }
  | wsNs (x : _) : Part.Write t .wsNs { t with wsNs := x }
  | regs (x : _) (h : fieldsOk t.regs = true → fieldsOk x = true) : Part.Write t .regs { t with regs := x }
  | mem (x : _) (h : Memory.wf t.mem = true → Memory.wf x = true) : Part.Write t .mem { t with mem := x }
  | progErr (x : _) (h : Tab.rising t.progErr = true → Tab.rising x = true) : Part.Write t .progErr { t with progErr := x }
  | resp (x : _) : Part.Write t .resp { t with resp := x }
  | latched (x : _) (h : Tab.rising t.latched = true → Tab.rising x = true) : Part.Write t .latched { t with latched := x }
  | heldLow (x : _) (h : Tab.rising t.heldLow = true → Tab.rising x = true) : Part.Write t .heldLow { t with heldLow := x }
  | logNew (x : _) : Part.Write t .logNew { t with logNew := x }
  | lostOwed (x : _) : Part.Write t .lostOwed { t with lostOwed := x }
  | armAt (x : _) (h : Tab.rising t.armAt = true → Tab.rising x = true) : Part.Write t .armAt { t with armAt := x }
  | doms (x : _) (h : Tab.canonical {} t.doms = true → Tab.canonical {} x = true) : Part.Write t .doms { t with doms := x }
  | seqs (x : _) (h : seqsOk t.seqs = true → seqsOk x = true) : Part.Write t .seqs { t with seqs := x }
  | mapm (x : _) : Part.Write t .mapm { t with mapm := x }
  | dataIn (x : _) : Part.Write t .dataIn { t with dataIn := x }
  | chans (x : _) (h : Tab.canonical {} t.chans = true → Tab.canonical {} x = true) : Part.Write t .chans { t with chans := x }
  | svcs (x : _) (h : Tab.canonical {} t.svcs = true → Tab.canonical {} x = true) : Part.Write t .svcs { t with svcs := x }
  | change (x : _) : Part.Write t .change { t with change := x }
  | adcs (x : _) (h : Tab.canonical {} t.adcs = true → Tab.canonical {} x = true) : Part.Write t .adcs { t with adcs := x }
  | settle (x : _) (h : Tab.rising t.settle = true → Tab.rising x = true) : Part.Write t .settle { t with settle := x }
  | basins (x : _) (h : Tab.canonical {} t.basins = true → Tab.canonical {} x = true) : Part.Write t .basins { t with basins := x }
  | trkLatch (x : _) (h : Tab.rising t.trkLatch = true → Tab.rising x = true) : Part.Write t .trkLatch { t with trkLatch := x }
  | feeds (x : _) (h : Tab.canonical {} t.feeds = true → Tab.canonical {} x = true) : Part.Write t .feeds { t with feeds := x }
  | weightSwap (x : _) (h : Tab.rising t.weightSwap = true → Tab.rising x = true) : Part.Write t .weightSwap { t with weightSwap := x }
  | hold3 (x : _) : Part.Write t .hold3 { t with hold3 := x }
  | hold2 (x : _) : Part.Write t .hold2 { t with hold2 := x }
  | cmps (x : _) (h : Tab.canonical {} t.cmps = true → Tab.canonical {} x = true) : Part.Write t .cmps { t with cmps := x }
  | trips (x : _) (h : Tab.canonical {} t.trips = true → Tab.canonical {} x = true) : Part.Write t .trips { t with trips := x }
  | pwms (x : _) (h : Tab.canonical {} t.pwms = true → Tab.canonical {} x = true) : Part.Write t .pwms { t with pwms := x }
  | auxOff (x : _) : Part.Write t .auxOff { t with auxOff := x }
  | clkStopAt (x : _) : Part.Write t .clkStopAt { t with clkStopAt := x }
  | ioes (x : _) (h : Tab.canonical {} t.ioes = true → Tab.canonical {} x = true) : Part.Write t .ioes { t with ioes := x }
  | gio (x : _) (h : Tab.canonical .z t.gio = true → Tab.canonical .z x = true) : Part.Write t .gio { t with gio := x }
  | dmas (x : _) (h : Tab.canonical {} t.dmas = true → Tab.canonical {} x = true) : Part.Write t .dmas { t with dmas := x }
  | pcie (x : _) (h : Tab.canonical {} t.pcie.fns = true → Tab.canonical {} x.fns = true) : Part.Write t .pcie { t with pcie := x }
  | mspi (x : _) : Part.Write t .mspi { t with mspi := x }
  | power (x : _) : Part.Write t .power { t with power := x }
  | den (x : _) : Part.Write t .den { t with den := x }
  | pair (x : _) : Part.Write t .pair { t with pair := x }

/-- `t` comes from `s` by writes of parts in `W`. -/
inductive Reach (W : List Part) (s : State) : State → Prop
  | refl : Reach W s s
  | write {t u : State} {p : Part} (h : Reach W s t) (hw : p ∈ W) (hu : p.Write t u) : Reach W s u
  /-- A reset of everything but the queue. -/
  | fresh {t : State} (h : Reach W s t) (hw : ∀ p ∈ Part.all, p ∈ W) : Reach W s { State.reset with pending := t.pending }

namespace Reach
variable {W V : List Part} {s t u : State}

theorem mono (h : Reach W s t) (hw : ∀ p ∈ W, p ∈ V) : Reach V s t := by
  induction h with
  | refl => exact .refl
  | write _ hp hu ih => exact .write ih (hw _ hp) hu
  | fresh _ ha ih => exact .fresh ih fun p hp => hw p (ha p hp)

theorem trans (h : Reach W s t) (g : Reach W t u) : Reach W s u := by
  induction g with
  | refl => exact h
  | write _ hp hu ih => exact .write ih hp hu
  | fresh _ ha ih => exact .fresh ih ha

/-- An operation with a smaller set of parts carries on. -/
theorem step (g : Reach V t u) (hv : V.all W.contains = true) (h : Reach W s t) : Reach W s u := by
  refine h.trans (g.mono fun p hp => ?_)
  have := List.all_eq_true.1 hv p hp
  simpa using this

theorem fstMk {β : Type} {b : β} (h : Reach W s t) : Reach W s (t, b).1 := h

theorem ite {c : Prop} [Decidable c] (h : Reach W s t) (g : Reach W s u) : Reach W s (if c then t else u) := by
  split <;> assumption

theorem foldl {α : Type} (f : State → α → State) (l : List α) (hf : ∀ t x, Reach W s t → Reach W s (f t x))
    (h : Reach W s t) : Reach W s (l.foldl f t) := by
  induction l generalizing t with
  | nil => exact h
  | cons x r ih => exact ih (hf _ _ h)

theorem foldlFst {α β : Type} (f : State × β → α → State × β) (l : List α) {p : State × β}
    (hf : ∀ p x, Reach W s p.1 → Reach W s (f p x).1) (h : Reach W s p.1) : Reach W s (l.foldl f p).1 := by
  induction l generalizing p with
  | nil => exact h
  | cons x r ih => exact ih (hf _ _ h)

theorem pending (h : Reach W s t) : t.pending = s.pending := by
  induction h with
  | refl => rfl
  | write _ _ hu ih => cases hu <;> exact ih
  | fresh _ _ ih => exact ih

theorem tnow (h : Reach W s t) (hw : Part.tnow ∉ W) : t.tnow = s.tnow := by
  induction h with
  | refl => rfl
  | write _ hp hu ih => cases hu <;> first | exact ih | exact absurd hp hw
  | fresh _ ha _ => exact absurd (ha .tnow (by decide)) hw

theorem wsNs (h : Reach W s t) (hw : Part.wsNs ∉ W) : t.wsNs = s.wsNs := by
  induction h with
  | refl => rfl
  | write _ hp hu ih => cases hu <;> first | exact ih | exact absurd hp hw
  | fresh _ ha _ => exact absurd (ha .wsNs (by decide)) hw

theorem regs (h : Reach W s t) (hw : Part.regs ∉ W) : t.regs = s.regs := by
  induction h with
  | refl => rfl
  | write _ hp hu ih => cases hu <;> first | exact ih | exact absurd hp hw
  | fresh _ ha _ => exact absurd (ha .regs (by decide)) hw

theorem mem (h : Reach W s t) (hw : Part.mem ∉ W) : t.mem = s.mem := by
  induction h with
  | refl => rfl
  | write _ hp hu ih => cases hu <;> first | exact ih | exact absurd hp hw
  | fresh _ ha _ => exact absurd (ha .mem (by decide)) hw

theorem progErr (h : Reach W s t) (hw : Part.progErr ∉ W) : t.progErr = s.progErr := by
  induction h with
  | refl => rfl
  | write _ hp hu ih => cases hu <;> first | exact ih | exact absurd hp hw
  | fresh _ ha _ => exact absurd (ha .progErr (by decide)) hw

theorem resp (h : Reach W s t) (hw : Part.resp ∉ W) : t.resp = s.resp := by
  induction h with
  | refl => rfl
  | write _ hp hu ih => cases hu <;> first | exact ih | exact absurd hp hw
  | fresh _ ha _ => exact absurd (ha .resp (by decide)) hw

theorem latched (h : Reach W s t) (hw : Part.latched ∉ W) : t.latched = s.latched := by
  induction h with
  | refl => rfl
  | write _ hp hu ih => cases hu <;> first | exact ih | exact absurd hp hw
  | fresh _ ha _ => exact absurd (ha .latched (by decide)) hw

theorem heldLow (h : Reach W s t) (hw : Part.heldLow ∉ W) : t.heldLow = s.heldLow := by
  induction h with
  | refl => rfl
  | write _ hp hu ih => cases hu <;> first | exact ih | exact absurd hp hw
  | fresh _ ha _ => exact absurd (ha .heldLow (by decide)) hw

theorem logNew (h : Reach W s t) (hw : Part.logNew ∉ W) : t.logNew = s.logNew := by
  induction h with
  | refl => rfl
  | write _ hp hu ih => cases hu <;> first | exact ih | exact absurd hp hw
  | fresh _ ha _ => exact absurd (ha .logNew (by decide)) hw

theorem lostOwed (h : Reach W s t) (hw : Part.lostOwed ∉ W) : t.lostOwed = s.lostOwed := by
  induction h with
  | refl => rfl
  | write _ hp hu ih => cases hu <;> first | exact ih | exact absurd hp hw
  | fresh _ ha _ => exact absurd (ha .lostOwed (by decide)) hw

theorem armAt (h : Reach W s t) (hw : Part.armAt ∉ W) : t.armAt = s.armAt := by
  induction h with
  | refl => rfl
  | write _ hp hu ih => cases hu <;> first | exact ih | exact absurd hp hw
  | fresh _ ha _ => exact absurd (ha .armAt (by decide)) hw

theorem doms (h : Reach W s t) (hw : Part.doms ∉ W) : t.doms = s.doms := by
  induction h with
  | refl => rfl
  | write _ hp hu ih => cases hu <;> first | exact ih | exact absurd hp hw
  | fresh _ ha _ => exact absurd (ha .doms (by decide)) hw

theorem seqs (h : Reach W s t) (hw : Part.seqs ∉ W) : t.seqs = s.seqs := by
  induction h with
  | refl => rfl
  | write _ hp hu ih => cases hu <;> first | exact ih | exact absurd hp hw
  | fresh _ ha _ => exact absurd (ha .seqs (by decide)) hw

theorem mapm (h : Reach W s t) (hw : Part.mapm ∉ W) : t.mapm = s.mapm := by
  induction h with
  | refl => rfl
  | write _ hp hu ih => cases hu <;> first | exact ih | exact absurd hp hw
  | fresh _ ha _ => exact absurd (ha .mapm (by decide)) hw

theorem dataIn (h : Reach W s t) (hw : Part.dataIn ∉ W) : t.dataIn = s.dataIn := by
  induction h with
  | refl => rfl
  | write _ hp hu ih => cases hu <;> first | exact ih | exact absurd hp hw
  | fresh _ ha _ => exact absurd (ha .dataIn (by decide)) hw

theorem chans (h : Reach W s t) (hw : Part.chans ∉ W) : t.chans = s.chans := by
  induction h with
  | refl => rfl
  | write _ hp hu ih => cases hu <;> first | exact ih | exact absurd hp hw
  | fresh _ ha _ => exact absurd (ha .chans (by decide)) hw

theorem svcs (h : Reach W s t) (hw : Part.svcs ∉ W) : t.svcs = s.svcs := by
  induction h with
  | refl => rfl
  | write _ hp hu ih => cases hu <;> first | exact ih | exact absurd hp hw
  | fresh _ ha _ => exact absurd (ha .svcs (by decide)) hw

theorem change (h : Reach W s t) (hw : Part.change ∉ W) : t.change = s.change := by
  induction h with
  | refl => rfl
  | write _ hp hu ih => cases hu <;> first | exact ih | exact absurd hp hw
  | fresh _ ha _ => exact absurd (ha .change (by decide)) hw

theorem adcs (h : Reach W s t) (hw : Part.adcs ∉ W) : t.adcs = s.adcs := by
  induction h with
  | refl => rfl
  | write _ hp hu ih => cases hu <;> first | exact ih | exact absurd hp hw
  | fresh _ ha _ => exact absurd (ha .adcs (by decide)) hw

theorem settle (h : Reach W s t) (hw : Part.settle ∉ W) : t.settle = s.settle := by
  induction h with
  | refl => rfl
  | write _ hp hu ih => cases hu <;> first | exact ih | exact absurd hp hw
  | fresh _ ha _ => exact absurd (ha .settle (by decide)) hw

theorem basins (h : Reach W s t) (hw : Part.basins ∉ W) : t.basins = s.basins := by
  induction h with
  | refl => rfl
  | write _ hp hu ih => cases hu <;> first | exact ih | exact absurd hp hw
  | fresh _ ha _ => exact absurd (ha .basins (by decide)) hw

theorem trkLatch (h : Reach W s t) (hw : Part.trkLatch ∉ W) : t.trkLatch = s.trkLatch := by
  induction h with
  | refl => rfl
  | write _ hp hu ih => cases hu <;> first | exact ih | exact absurd hp hw
  | fresh _ ha _ => exact absurd (ha .trkLatch (by decide)) hw

theorem feeds (h : Reach W s t) (hw : Part.feeds ∉ W) : t.feeds = s.feeds := by
  induction h with
  | refl => rfl
  | write _ hp hu ih => cases hu <;> first | exact ih | exact absurd hp hw
  | fresh _ ha _ => exact absurd (ha .feeds (by decide)) hw

theorem weightSwap (h : Reach W s t) (hw : Part.weightSwap ∉ W) : t.weightSwap = s.weightSwap := by
  induction h with
  | refl => rfl
  | write _ hp hu ih => cases hu <;> first | exact ih | exact absurd hp hw
  | fresh _ ha _ => exact absurd (ha .weightSwap (by decide)) hw

theorem hold3 (h : Reach W s t) (hw : Part.hold3 ∉ W) : t.hold3 = s.hold3 := by
  induction h with
  | refl => rfl
  | write _ hp hu ih => cases hu <;> first | exact ih | exact absurd hp hw
  | fresh _ ha _ => exact absurd (ha .hold3 (by decide)) hw

theorem hold2 (h : Reach W s t) (hw : Part.hold2 ∉ W) : t.hold2 = s.hold2 := by
  induction h with
  | refl => rfl
  | write _ hp hu ih => cases hu <;> first | exact ih | exact absurd hp hw
  | fresh _ ha _ => exact absurd (ha .hold2 (by decide)) hw

theorem cmps (h : Reach W s t) (hw : Part.cmps ∉ W) : t.cmps = s.cmps := by
  induction h with
  | refl => rfl
  | write _ hp hu ih => cases hu <;> first | exact ih | exact absurd hp hw
  | fresh _ ha _ => exact absurd (ha .cmps (by decide)) hw

theorem trips (h : Reach W s t) (hw : Part.trips ∉ W) : t.trips = s.trips := by
  induction h with
  | refl => rfl
  | write _ hp hu ih => cases hu <;> first | exact ih | exact absurd hp hw
  | fresh _ ha _ => exact absurd (ha .trips (by decide)) hw

theorem pwms (h : Reach W s t) (hw : Part.pwms ∉ W) : t.pwms = s.pwms := by
  induction h with
  | refl => rfl
  | write _ hp hu ih => cases hu <;> first | exact ih | exact absurd hp hw
  | fresh _ ha _ => exact absurd (ha .pwms (by decide)) hw

theorem auxOff (h : Reach W s t) (hw : Part.auxOff ∉ W) : t.auxOff = s.auxOff := by
  induction h with
  | refl => rfl
  | write _ hp hu ih => cases hu <;> first | exact ih | exact absurd hp hw
  | fresh _ ha _ => exact absurd (ha .auxOff (by decide)) hw

theorem clkStopAt (h : Reach W s t) (hw : Part.clkStopAt ∉ W) : t.clkStopAt = s.clkStopAt := by
  induction h with
  | refl => rfl
  | write _ hp hu ih => cases hu <;> first | exact ih | exact absurd hp hw
  | fresh _ ha _ => exact absurd (ha .clkStopAt (by decide)) hw

theorem ioes (h : Reach W s t) (hw : Part.ioes ∉ W) : t.ioes = s.ioes := by
  induction h with
  | refl => rfl
  | write _ hp hu ih => cases hu <;> first | exact ih | exact absurd hp hw
  | fresh _ ha _ => exact absurd (ha .ioes (by decide)) hw

theorem gio (h : Reach W s t) (hw : Part.gio ∉ W) : t.gio = s.gio := by
  induction h with
  | refl => rfl
  | write _ hp hu ih => cases hu <;> first | exact ih | exact absurd hp hw
  | fresh _ ha _ => exact absurd (ha .gio (by decide)) hw

theorem dmas (h : Reach W s t) (hw : Part.dmas ∉ W) : t.dmas = s.dmas := by
  induction h with
  | refl => rfl
  | write _ hp hu ih => cases hu <;> first | exact ih | exact absurd hp hw
  | fresh _ ha _ => exact absurd (ha .dmas (by decide)) hw

theorem pcie (h : Reach W s t) (hw : Part.pcie ∉ W) : t.pcie = s.pcie := by
  induction h with
  | refl => rfl
  | write _ hp hu ih => cases hu <;> first | exact ih | exact absurd hp hw
  | fresh _ ha _ => exact absurd (ha .pcie (by decide)) hw

theorem mspi (h : Reach W s t) (hw : Part.mspi ∉ W) : t.mspi = s.mspi := by
  induction h with
  | refl => rfl
  | write _ hp hu ih => cases hu <;> first | exact ih | exact absurd hp hw
  | fresh _ ha _ => exact absurd (ha .mspi (by decide)) hw

theorem power (h : Reach W s t) (hw : Part.power ∉ W) : t.power = s.power := by
  induction h with
  | refl => rfl
  | write _ hp hu ih => cases hu <;> first | exact ih | exact absurd hp hw
  | fresh _ ha _ => exact absurd (ha .power (by decide)) hw

theorem den (h : Reach W s t) (hw : Part.den ∉ W) : t.den = s.den := by
  induction h with
  | refl => rfl
  | write _ hp hu ih => cases hu <;> first | exact ih | exact absurd hp hw
  | fresh _ ha _ => exact absurd (ha .den (by decide)) hw

theorem pair (h : Reach W s t) (hw : Part.pair ∉ W) : t.pair = s.pair := by
  induction h with
  | refl => rfl
  | write _ hp hu ih => cases hu <;> first | exact ih | exact absurd hp hw
  | fresh _ ha _ => exact absurd (ha .pair (by decide)) hw

/-- The invariant of the machine is kept. -/
theorem inv (h : Reach W s t) (hs : s.Inv) : t.Inv := by
  induction h with
  | refl => exact hs
  | fresh _ _ _ => constructor <;> first | rfl | exact Nat.two_pow_pos 64
  | write _ hp hu ih =>
    clear hp
    obtain ⟨h1, h2, h3, h4, h5, h6, h7, h8, h9, h10, h11, h12, h13, h14, h15, h16, h17, h18, h19, h20, h21, h22, h23, h24⟩ := ih
    cases hu <;> constructor <;> first | assumption | (rename_i h; exact h ‹_›)

end Reach
end Sys2Proof.Machine
end

