-- ==== Sys2Proof/Laws/ReachPrim.lean ====
section
/-! SUPPORT. What the elementary updates write: each keeps the canonical form of its part. -/

namespace Sys2Proof.Machine

theorem Fld.lt_count (f : Fld) : f.ctorIdx < 1024 := by cases f <;> decide

theorem fieldFits_key {f : Fld} {i v : Nat} (h : v < 2 ^ f.width) (hr : v ≠ f.resetAt i) : fieldFits (f.key i) v = true := by
  have h1 : f.key i / 1024 = f.ctorIdx := by unfold Fld.key; omega
  have h2 : f.key i % 1024 = i % 1024 := by unfold Fld.key; omega
  simp [fieldFits, h1, h2, Fld.ofNat_ctorIdx, Fld.resetAt_mod, h, hr]

theorem State.setFld_reach (s : State) (f : Fld) (i v : Nat) : Reach [.regs] s (s.setFld f i v) := by
  refine .write .refl (by decide) (.regs _ fun h => ?_)
  obtain ⟨h1, h2⟩ := Bool.and_eq_true_iff.1 h
  exact Bool.and_eq_true_iff.2 ⟨Tab.rising_set _ _ _ h1, Tab.every_set h2 fun hv => fieldFits_key (maskN_lt _ _) hv⟩

theorem State.resetKeys_reach (s : State) (ks : List Nat) : Reach [.regs] s (s.resetKeys ks) := by
  refine .write .refl (by decide) (.regs _ fun h => ?_)
  obtain ⟨h1, h2⟩ := Bool.and_eq_true_iff.1 h
  refine Bool.and_eq_true_iff.2 ⟨Tab.rising_filter _ h1, ?_⟩
  exact List.all_eq_true.2 fun e he => List.all_eq_true.1 h2 e ((List.mem_filter.1 he).1)

theorem State.setByte_reach (s : State) (a : Nat) (b : Byte) : Reach [.mem] s (s.setByte a b) := by
  refine .write .refl (by decide) (.mem _ fun h => ?_)
  obtain ⟨h1, h2⟩ := Bool.and_eq_true_iff.1 h
  refine Bool.and_eq_true_iff.2 ⟨Tab.rising_put _ _ h1, Tab.every_put h2 fun v hv => ?_⟩
  by_cases hb : b = memDefault a <;> simp_all

theorem State.clearMem_reach (s : State) (lo hi : Nat) : Reach [.mem] s (s.clearMem lo hi) := by
  refine .write .refl (by decide) (.mem _ fun h => ?_)
  obtain ⟨h1, h2⟩ := Bool.and_eq_true_iff.1 h
  refine Bool.and_eq_true_iff.2 ⟨Tab.rising_filter _ h1, ?_⟩
  exact List.all_eq_true.2 fun e he => List.all_eq_true.1 h2 e ((List.mem_filter.1 he).1)

/-- A store keeps a table canonical. -/
theorem Tab.canonical_set {α : Type} [DecidableEq α] {d : α} {t : Tab α} (k : Nat) (v : α) (h : Tab.canonical d t = true) :
    Tab.canonical d (Tab.set d t k v) = true := by
  obtain ⟨h1, h2⟩ := Bool.and_eq_true_iff.1 h
  exact Bool.and_eq_true_iff.2 ⟨Tab.rising_set _ _ _ h1, Tab.every_set h2 fun hv => by simpa using hv⟩

theorem State.setDom_reach (s : State) (d : Nat) (x : Domain) : Reach [.doms] s (s.setDom d x) :=
  .write .refl (by decide) (.doms _ (Tab.canonical_set d x))
theorem State.setChan_reach (s : State) (c : Nat) (x : Chan) : Reach [.chans] s (s.setChan c x) :=
  .write .refl (by decide) (.chans _ (Tab.canonical_set c x))
theorem State.setSvc_reach (s : State) (k : Nat) (x : Svc) : Reach [.svcs] s (s.setSvc k x) :=
  .write .refl (by decide) (.svcs _ (Tab.canonical_set k x))
theorem State.setAdc_reach (s : State) (k : Nat) (x : Adc) : Reach [.adcs] s (s.setAdc k x) :=
  .write .refl (by decide) (.adcs _ (Tab.canonical_set k x))
theorem State.setBasin_reach (s : State) (k : Nat) (x : Basin) : Reach [.basins] s (s.setBasin k x) :=
  .write .refl (by decide) (.basins _ (Tab.canonical_set k x))
theorem State.setFeed_reach (s : State) (f : Nat) (x : Feed) : Reach [.feeds] s (s.setFeed f x) :=
  .write .refl (by decide) (.feeds _ (Tab.canonical_set f x))
theorem State.setCmp_reach (s : State) (k : Nat) (x : Cmp) : Reach [.cmps] s (s.setCmp k x) :=
  .write .refl (by decide) (.cmps _ (Tab.canonical_set k x))
theorem State.setPwm_reach (s : State) (g : Nat) (x : Pwm) : Reach [.pwms] s (s.setPwm g x) :=
  .write .refl (by decide) (.pwms _ (Tab.canonical_set g x))
theorem State.setTrip_reach (s : State) (t : Nat) (x : Trip) : Reach [.trips] s (s.setTrip t x) :=
  .write .refl (by decide) (.trips _ (Tab.canonical_set t x))
theorem State.setIoe_reach (s : State) (e : Nat) (x : Ioe) : Reach [.ioes] s (s.setIoe e x) :=
  .write .refl (by decide) (.ioes _ (Tab.canonical_set e x))
theorem State.gioDrive_reach (s : State) (p : Nat) (x : Drive) : Reach [.gio] s (s.gioDrive p x) :=
  .write .refl (by decide) (.gio _ fun h => by split <;> first | exact h | exact Tab.canonical_set p x h)
theorem State.setDma_reach (s : State) (c : Nat) (x : Dma) : Reach [.dmas] s (s.setDma c x) :=
  .write .refl (by decide) (.dmas _ (Tab.canonical_set c x))

/-! ### Sequencers: the registers, slots and latencies keep their form -/

theorem Seq.ok_iff (q : Seq) : q.ok = true ↔ Tab.rising q.xs = true ∧
    Tab.every (fun k v => k != 0 && v != 0 && decide (v < 2 ^ 32)) q.xs = true ∧ Tab.rising q.slots = true ∧
    Tab.rising q.ready = true := by
  simp [Seq.ok, and_assoc]

/-- A register stored, x0 excepted (R79). -/
theorem Seq.ok_setX {q : Seq} {k v : Nat} (h : q.ok = true) (hk : k ≠ 0) (hv : v < 2 ^ 32) :
    ({ q with xs := Tab.set 0 q.xs k v } : Seq).ok = true := by
  rw [Seq.ok_iff] at *
  exact ⟨Tab.rising_set _ _ _ h.1, Tab.every_set h.2.1 fun h0 => by simpa [hk, h0] using hv, h.2.2⟩

theorem Seq.ok_setSlot {q : Seq} {k : Nat} {x : Slot} (h : q.ok = true) :
    ({ q with slots := Tab.set {} q.slots k x } : Seq).ok = true := by
  rw [Seq.ok_iff] at *
  exact ⟨h.1, h.2.1, Tab.rising_set _ _ _ h.2.2.1, h.2.2.2⟩

theorem Seq.ok_find {t : Tab Seq} (h : seqsOk t = true) (n : Nat) : (Tab.get {} t n).ok = true := by
  obtain ⟨-, h2⟩ := Bool.and_eq_true_iff.1 h
  unfold Tab.get
  cases hf : Tab.find t n with
  | none => rfl
  | some q => exact List.all_eq_true.1 h2 (n, q) (Tab.mem_of_find hf)

theorem State.setSeq_reach (s : State) (n : Nat) (q : Seq) (hq : (s.seq n).ok = true → q.ok = true) :
    Reach [.seqs] s (s.setSeq n q) := by
  refine .write .refl (by decide) (.seqs _ fun h => ?_)
  obtain ⟨h1, h2⟩ := Bool.and_eq_true_iff.1 h
  exact Bool.and_eq_true_iff.2 ⟨Tab.canonical_set n q h1, Tab.every_set h2 fun _ => hq (Seq.ok_find h n)⟩

theorem State.modSeq_reach (s : State) (n : Nat) (f : Seq → Seq) (hf : ∀ q : Seq, q.ok = true → (f q).ok = true) :
    Reach [.seqs] s (s.modSeq n f) := State.setSeq_reach _ _ _ fun h => hf _ h

end Sys2Proof.Machine
end

