-- ==== Sys2Proof/Laws/ReachFabric.lean ====
section
/-! SUPPORT. One lemma per operation: what the shared operations, interrupts, pins, angles, basins, generators, comparators and the event fabric write. -/

namespace Sys2Proof.Machine

/-! ### Ops.lean -/

theorem State.raise_reach (s : State) (f : Fld) (i : Nat) : Reach [.regs] s (State.raise s f i) := by
  unfold State.raise
  refine Reach.step (State.setFld_reach ..) rfl ?_
  first | assumption | exact .refl

theorem State.putFlag_reach (s : State) (f : Fld) (i : Nat) (b : Bool) : Reach [.regs] s (State.putFlag s f i b) := by
  unfold State.putFlag
  refine Reach.step (State.setFld_reach ..) rfl ?_
  first | assumption | exact .refl

theorem State.bumpBy_reach (s : State) (f : Fld) (i : Nat) (n : Nat) : Reach [.regs] s (State.bumpBy s f i n) := by
  unfold State.bumpBy
  refine Reach.step (State.setFld_reach ..) rfl ?_
  first | assumption | exact .refl

theorem State.bump_reach (s : State) (f : Fld) (i : Nat) : Reach [.regs] s (State.bump s f i) := by
  unfold State.bump
  refine Reach.step (State.bumpBy_reach ..) rfl ?_
  first | assumption | exact .refl

theorem State.orFld_reach (s : State) (f : Fld) (i : Nat) (m : Nat) : Reach [.regs] s (State.orFld s f i m) := by
  unfold State.orFld
  refine Reach.step (State.setFld_reach ..) rfl ?_
  first | assumption | exact .refl

theorem State.clearBits_reach (s : State) (f : Fld) (i : Nat) (m : Nat) : Reach [.regs] s (State.clearBits s f i m) := by
  unfold State.clearBits
  refine Reach.step (State.setFld_reach ..) rfl ?_
  first | assumption | exact .refl

theorem State.setBytes_reach (s : State) (a : Nat) (be : Nat) (v : Nat) : Reach [.mem] s (State.setBytes s a be v) := by
  unfold State.setBytes
  refine Reach.foldl _ _ (fun u1 y1 hu1 => ?_) ?_
  · refine Reach.ite ?_ ?_
    · refine Reach.step (State.setByte_reach ..) rfl ?_
      first | assumption | exact .refl
    · first | assumption | exact .refl
  · first | assumption | exact .refl

theorem State.setWord_reach (s : State) (a : Nat) (v : Nat) : Reach [.mem] s (State.setWord s a v) := by
  unfold State.setWord
  refine Reach.step (State.setBytes_reach ..) rfl ?_
  first | assumption | exact .refl

theorem State.noteData_reach (s : State) (a : Nat) (be : Nat) (rank : Nat) : Reach [.dataIn] s (State.noteData s a be rank) := by
  unfold State.noteData
  extract_lets -underBinder -merge +onlyGivenNames x1 x2
  refine Reach.write ?_ (by decide) (.dataIn _)
  first | assumption | exact .refl

theorem State.modDom_reach (s : State) (d : Nat) (f : Domain → Domain) : Reach [.doms] s (State.modDom s d f) := by
  unfold State.modDom
  refine Reach.step (State.setDom_reach ..) rfl ?_
  first | assumption | exact .refl

theorem State.modChan_reach (s : State) (c : Nat) (f : Chan → Chan) : Reach [.chans] s (State.modChan s c f) := by
  unfold State.modChan
  refine Reach.step (State.setChan_reach ..) rfl ?_
  first | assumption | exact .refl

theorem State.setSlot_reach (s : State) (n k : Nat) (x : Slot) : Reach [.seqs] s (s.setSlot n k x) :=
  State.modSeq_reach _ _ _ fun _ h => Seq.ok_setSlot h

theorem State.log_reach (s : State) (code : Nat) (index : Nat) (sub : Nat) (detail : Nat) : Reach [.logNew] s (State.log s code index sub detail) := by
  unfold State.log
  refine Reach.write ?_ (by decide) (.logNew _)
  first | assumption | exact .refl

theorem State.logStore_reach (s : State) (time mode : Nat) (e : LogNew) : Reach [.regs] s (s.logStore time mode e) := by
  unfold State.logStore
  repeat (refine Reach.step (State.setFld_reach ..) rfl ?_)
  exact .refl

abbrev State.logWrite_parts : List Part :=
  [.regs, .lostOwed]
theorem State.logWrite_reach (s : State) (mode : Nat) (e : LogNew) : Reach State.logWrite_parts s (State.logWrite s mode e) :=
  Reach.ite (Reach.step (State.logStore_reach ..) rfl .refl)
    (Reach.write (Reach.step (State.bump_reach ..) rfl .refl) (by decide) (.lostOwed _))

abbrev State.logLost_parts : List Part :=
  [.regs, .lostOwed]
theorem State.logLost_reach (s : State) (mode : Nat) : Reach State.logLost_parts s (State.logLost s mode) :=
  Reach.ite (Reach.write (Reach.step (State.logStore_reach ..) rfl .refl) (by decide) (.lostOwed _)) .refl

abbrev State.logFlush_parts : List Part :=
  [.logNew, .regs, .lostOwed]
theorem State.logFlush_reach (s : State) (mode : Nat) : Reach State.logFlush_parts s (State.logFlush s mode) := by
  unfold State.logFlush
  refine Reach.ite ?_ ?_
  · refine Reach.write ?_ (by decide) (.logNew _)
    first | assumption | exact .refl
  · extract_lets -underBinder -merge +onlyGivenNames x1 s2 s3
    have hs2 : Reach State.logFlush_parts s s2 := by
      unfold s2
      refine Reach.ite ?_ ?_
      · first | assumption | exact .refl
      · refine Reach.step (State.logLost_reach ..) rfl ?_
        first | assumption | exact .refl
    have hs3 : Reach State.logFlush_parts s s3 := by
      unfold s3
      refine Reach.foldl _ _ (fun u4 y4 hu4 => ?_) ?_
      · refine Reach.step (State.logWrite_reach ..) rfl ?_
        first | assumption | exact .refl
      · first | assumption | exact .refl
    refine Reach.write ?_ (by decide) (.logNew _)
    first | assumption | exact .refl

abbrev State.accessErr_parts : List Part :=
  [.mspi, .regs]
theorem State.accessErr_reach (s : State) (src : Nat) (off : Nat) (be : Nat) (write : Bool) (k : ErrKind) : Reach State.accessErr_parts s (State.accessErr s src off be write k) := by
  unfold State.accessErr
  extract_lets -underBinder -merge +onlyGivenNames x1 s2 s3
  have hs2 : Reach State.accessErr_parts s s2 := by
    unfold s2
    refine Reach.ite ?_ ?_
    · refine Reach.write ?_ (by decide) (.mspi _)
      first | assumption | exact .refl
    · first | assumption | exact .refl
  have hs3 : Reach State.accessErr_parts s s3 := by
    unfold s3
    refine Reach.step (State.bump_reach ..) rfl ?_
    first | assumption | exact .refl
  refine Reach.ite ?_ ?_
  · refine Reach.step (State.raise_reach ..) rfl ?_
    first | assumption | exact .refl
  · extract_lets -underBinder -merge +onlyGivenNames s4 s5 s6 s7 s8
    have hs4 : Reach State.accessErr_parts s s4 := by
      unfold s4
      refine Reach.step (State.raise_reach ..) rfl ?_
      first | assumption | exact .refl
    have hs5 : Reach State.accessErr_parts s s5 := by
      unfold s5
      refine Reach.step (State.setFld_reach ..) rfl ?_
      first | assumption | exact .refl
    have hs6 : Reach State.accessErr_parts s s6 := by
      unfold s6
      refine Reach.step (State.setFld_reach ..) rfl ?_
      first | assumption | exact .refl
    have hs7 : Reach State.accessErr_parts s s7 := by
      unfold s7
      refine Reach.step (State.setFld_reach ..) rfl ?_
      first | assumption | exact .refl
    have hs8 : Reach State.accessErr_parts s s8 := by
      unfold s8
      refine Reach.step (State.putFlag_reach ..) rfl ?_
      first | assumption | exact .refl
    refine Reach.step (State.setFld_reach ..) rfl ?_
    first | assumption | exact .refl


/-! ### Icu.lean -/

theorem State.setFn_reach (s : State) (f : Nat) (x : PcieFn) : Reach [.pcie] s (s.setFn f x) :=
  .write .refl (by decide) (.pcie _ (Tab.canonical_set f x))

theorem State.modFn_reach (s : State) (f : Nat) (g : PcieFn → PcieFn) : Reach [.pcie] s (State.modFn s f g) := by
  unfold State.modFn
  refine Reach.step (State.setFn_reach ..) rfl ?_
  first | assumption | exact .refl

theorem State.modPcie_reach (s : State) (g : Pcie → Pcie)
    (hg : Tab.canonical {} s.pcie.fns = true → Tab.canonical {} (g s.pcie).fns = true) : Reach [.pcie] s (s.modPcie g) :=
  .write .refl (by decide) (.pcie _ hg)

theorem State.emit_reach (s : State) (o : PcieOut) : Reach [.pcie] s (State.emit s o) := by
  unfold State.emit
  refine Reach.write ?_ (by decide) (.pcie _ (by first | exact fun h => Tab.rising_put _ _ h | exact fun h => h))
  first | assumption | exact .refl

theorem State.sendMsi_reach (s : State) (f : Nat) (v : Nat) (pri : Nat) : Reach [.pcie] s (State.sendMsi s f v pri) := by
  unfold State.sendMsi
  extract_lets -underBinder -merge +onlyGivenNames x1
  refine Reach.step (State.modPcie_reach _ _ (fun h => ?_)) rfl ?_
  · first | (dsimp only; with_reducible exact h) | rfl
  · first | assumption | exact .refl

theorem State.sendIdle_reach (s : State) (e : Nat × Nat × Nat) : Reach [.pcie] s (State.sendIdle s e) := by
  unfold State.sendIdle
  refine Reach.ite ?_ ?_
  · refine Reach.step (State.sendMsi_reach ..) rfl ?_
    refine Reach.step (State.modFn_reach ..) rfl ?_
    first | assumption | exact .refl
  · first | assumption | exact .refl

theorem State.icuDeliver_reach (s : State) : Reach [.pcie] s (State.icuDeliver s) := by
  unfold State.icuDeliver
  refine Reach.foldl _ _ (fun u1 y1 hu1 => ?_) ?_
  · refine Reach.step (State.sendIdle_reach ..) rfl ?_
    first | assumption | exact .refl
  · first | assumption | exact .refl

theorem State.sendDue_reach (s : State) : Reach [.regs, .pcie] s (State.sendDue s) := by
  unfold State.sendDue
  refine Reach.ite ?_ ?_
  · refine Reach.foldl _ _ (fun u1 y1 hu1 => ?_) ?_
    · refine Reach.step (State.bump_reach ..) rfl ?_
      refine Reach.step (State.emit_reach ..) rfl ?_
      first | assumption | exact .refl
    · refine Reach.step (State.modPcie_reach _ _ (fun h => ?_)) rfl ?_
      · first | (dsimp only; with_reducible exact h) | rfl
      · first | assumption | exact .refl
  · first | assumption | exact .refl

theorem State.eoi_reach (s : State) (f : Nat) (v : Nat) : Reach [.pcie, .regs] s (State.eoi s f v) := by
  unfold State.eoi
  refine Reach.ite ?_ ?_
  · refine Reach.ite ?_ ?_
    · refine Reach.step (State.sendMsi_reach ..) rfl ?_
      first | assumption | exact .refl
    · refine Reach.step (State.modFn_reach ..) rfl ?_
      first | assumption | exact .refl
  · refine Reach.step (State.orFld_reach ..) rfl ?_
    first | assumption | exact .refl

theorem State.resetFnConfig_reach (s : State) (f : Nat) : Reach [.pcie] s (State.resetFnConfig s f) := by
  unfold State.resetFnConfig
  refine Reach.step (State.modPcie_reach _ _ (fun h => ?_)) rfl ?_
  · first | (dsimp only; with_reducible exact h) | rfl
  · refine Reach.step (State.setFn_reach ..) rfl ?_
    first | assumption | exact .refl

abbrev State.tgtWrite_parts : List Part :=
  [.mspi, .regs]
theorem State.tgtWrite_reach (s : State) (src : Nat) (off : Nat) (be : Nat) (k : Nat) (v : Nat) : Reach State.tgtWrite_parts s (State.tgtWrite s src off be k v) := by
  unfold State.tgtWrite
  refine Reach.ite ?_ ?_
  · first | assumption | exact .refl
  · refine Reach.ite ?_ ?_
    · refine Reach.step (State.accessErr_reach ..) rfl ?_
      refine Reach.step (State.raise_reach ..) rfl ?_
      first | assumption | exact .refl
    · extract_lets -underBinder -merge +onlyGivenNames s1 s2
      have hs1 : Reach State.tgtWrite_parts s s1 := by
        unfold s1
        refine Reach.step (State.setFld_reach ..) rfl ?_
        first | assumption | exact .refl
      have hs2 : Reach State.tgtWrite_parts s s2 := by
        unfold s2
        refine Reach.step (State.setFld_reach ..) rfl ?_
        first | assumption | exact .refl
      refine Reach.step (State.setFld_reach ..) rfl ?_
      first | assumption | exact .refl

abbrev State.debugSettle_parts : List Part :=
  [.regs, .clkStopAt]
theorem State.debugSettle_reach (s : State) : Reach State.debugSettle_parts s (State.debugSettle s) := by
  unfold State.debugSettle
  refine Reach.ite ?_ ?_
  · extract_lets -underBinder -merge +onlyGivenNames s1
    have hs1 : Reach State.debugSettle_parts s s1 := by
      unfold s1
      refine Reach.step (State.raise_reach ..) rfl ?_
      first | assumption | exact .refl
    refine Reach.write ?_ (by decide) (.clkStopAt _)
    first | assumption | exact .refl
  · first | assumption | exact .refl

abbrev State.concluded_parts : List Part :=
  [.logNew, .regs, .lostOwed, .clkStopAt, .pcie]
theorem State.concluded_reach (m : Nat) (s : State) : Reach State.concluded_parts s (State.concluded m s) := by
  unfold State.concluded
  extract_lets -underBinder -merge +onlyGivenNames s1
  have hs1 : Reach State.concluded_parts s s1 := by
    unfold s1
    refine Reach.step (State.logFlush_reach ..) rfl ?_
    first | assumption | exact .refl
  refine Reach.ite ?_ ?_
  · first | assumption | exact .refl
  · refine Reach.ite ?_ ?_
    · refine Reach.step (State.debugSettle_reach ..) rfl ?_
      first | assumption | exact .refl
    · refine Reach.step (State.icuDeliver_reach ..) rfl ?_
      refine Reach.step (State.debugSettle_reach ..) rfl ?_
      first | assumption | exact .refl


/-! ### Pins.lean -/

theorem State.modIoe_reach (s : State) (e : Nat) (f : Ioe → Ioe) : Reach [.ioes] s (State.modIoe s e f) := by
  unfold State.modIoe
  refine Reach.step (State.setIoe_reach ..) rfl ?_
  first | assumption | exact .refl

abbrev State.latchEdge_parts : List Part :=
  [.regs, .ioes]
theorem State.latchEdge_reach (s : State) (e : Nat) (rising : Bool) (stamp : Nat) : Reach State.latchEdge_parts s (State.latchEdge s e rising stamp) := by
  unfold State.latchEdge
  extract_lets -underBinder -merge +onlyGivenNames x1
  refine Reach.ite ?_ ?_
  · extract_lets -underBinder -merge +onlyGivenNames s2
    have hs2 : Reach State.latchEdge_parts s s2 := by
      unfold s2
      refine Reach.ite ?_ ?_
      · refine Reach.step (State.raise_reach ..) rfl ?_
        first | assumption | exact .refl
      · first | assumption | exact .refl
    refine Reach.step (State.setIoe_reach ..) rfl ?_
    first | assumption | exact .refl
  · extract_lets -underBinder -merge +onlyGivenNames s3
    have hs3 : Reach State.latchEdge_parts s s3 := by
      unfold s3
      refine Reach.ite ?_ ?_
      · refine Reach.step (State.raise_reach ..) rfl ?_
        first | assumption | exact .refl
      · first | assumption | exact .refl
    refine Reach.step (State.setIoe_reach ..) rfl ?_
    first | assumption | exact .refl

abbrev State.engineEdge_parts : List Part :=
  [.regs, .ioes]
theorem State.engineEdge_reach (s : State) (e : Nat) (p : Nat) (rising : Bool) (stamp : Nat) : Reach State.engineEdge_parts s (State.engineEdge s e p rising stamp) := by
  unfold State.engineEdge
  extract_lets -underBinder -merge +onlyGivenNames x1 s2
  have hs2 : Reach State.engineEdge_parts s s2 := by
    unfold s2
    refine Reach.ite ?_ ?_
    · refine Reach.step (State.latchEdge_reach ..) rfl ?_
      first | assumption | exact .refl
    · first | assumption | exact .refl
  split
  · first | assumption | exact .refl
  · split
    · first | assumption | exact .refl
    · extract_lets -underBinder -merge +onlyGivenNames s3
      have hs3 : Reach State.engineEdge_parts s s3 := by
        unfold s3
        refine Reach.ite ?_ ?_
        · first | assumption | exact .refl
        · first | assumption | exact .refl
      refine Reach.ite ?_ ?_
      · first | assumption | exact .refl
      · refine Reach.ite ?_ ?_
        · first | assumption | exact .refl
        · refine Reach.ite ?_ ?_
          · refine Reach.step (State.modIoe_reach ..) rfl ?_
            first | assumption | exact .refl
          · refine Reach.ite ?_ ?_
            · refine Reach.step (State.setIoe_reach ..) rfl ?_
              first | assumption | exact .refl
            · first | assumption | exact .refl

theorem State.pinEdge_reach (s : State) (p : Nat) (rising : Bool) (stamp : Nat) : Reach [.regs, .ioes] s (State.pinEdge s p rising stamp) := by
  unfold State.pinEdge
  refine Reach.foldl _ _ (fun u1 y1 hu1 => ?_) ?_
  · refine Reach.step (State.engineEdge_reach ..) rfl ?_
    first | assumption | exact .refl
  · first | assumption | exact .refl


/-! ### Angle.lean -/

theorem State.limited_reach (s : State) (d : Nat) (b : Bool) : Reach [.regs] s (State.limited s d b) := by
  unfold State.limited
  refine Reach.ite ?_ ?_
  · refine Reach.step (State.raise_reach ..) rfl ?_
    first | assumption | exact .refl
  · first | assumption | exact .refl

theorem State.newSeg_reach (s : State) (d : Nat) (g : Seg) (step : Bool) : Reach [.doms] s (State.newSeg s d g step) := by
  unfold State.newSeg
  refine Reach.step (State.modDom_reach ..) rfl ?_
  first | assumption | exact .refl

theorem State.loadFirst_reach (s : State) (d : Nat) (au : Nat) (r : Nat) (stamp : Nat) (next : Nat) : Reach [.doms] s (State.loadFirst s d au r stamp next) := by
  unfold State.loadFirst
  extract_lets -underBinder -merge +onlyGivenNames x1 x2
  refine Reach.step (State.modDom_reach ..) rfl ?_
  refine Reach.step (State.newSeg_reach ..) rfl ?_
  first | assumption | exact .refl

theorem State.loadHold_reach (s : State) (d : Nat) (au : Nat) (r : Nat) (stamp : Nat) (next : Nat) : Reach [.doms] s (State.loadHold s d au r stamp next) := by
  unfold State.loadHold
  extract_lets -underBinder -merge +onlyGivenNames x1 x2 x3
  refine Reach.step (State.newSeg_reach ..) rfl ?_
  first | assumption | exact .refl

theorem State.loadEdge_reach (s : State) (d : Nat) (au : Nat) (r : Nat) (stamp : Nat) (next : Nat) : Reach [.doms] s (State.loadEdge s d au r stamp next) := by
  unfold State.loadEdge
  extract_lets -underBinder -merge +onlyGivenNames x1 x2 x3
  refine Reach.ite ?_ ?_
  · refine Reach.step (State.newSeg_reach ..) rfl ?_
    first | assumption | exact .refl
  · refine Reach.step (State.loadHold_reach ..) rfl ?_
    first | assumption | exact .refl

theorem State.dropAngle_reach (s : State) (d : Nat) : Reach [.regs, .doms] s (State.dropAngle s d) := by
  unfold State.dropAngle
  refine Reach.step (State.putFlag_reach ..) rfl ?_
  refine Reach.step (State.modDom_reach ..) rfl ?_
  first | assumption | exact .refl


/-! ### Basins.lean -/

theorem State.modAdc_reach (s : State) (k : Nat) (f : Adc → Adc) : Reach [.adcs] s (State.modAdc s k f) := by
  unfold State.modAdc
  refine Reach.step (State.setAdc_reach ..) rfl ?_
  first | assumption | exact .refl

theorem State.modBasin_reach (s : State) (k : Nat) (f : Basin → Basin) : Reach [.basins] s (State.modBasin s k f) := by
  unfold State.modBasin
  refine Reach.step (State.setBasin_reach ..) rfl ?_
  first | assumption | exact .refl

abbrev State.putWins_parts : List Part :=
  [.basins, .regs]
theorem State.putWins_reach (s : State) (k : Nat) (ws : List Window) : Reach State.putWins_parts s (State.putWins s k ws) := by
  unfold State.putWins
  extract_lets -underBinder -merge +onlyGivenNames s1
  have hs1 : Reach State.putWins_parts s s1 := by
    unfold s1
    refine Reach.step (State.modBasin_reach ..) rfl ?_
    first | assumption | exact .refl
  refine Reach.step (State.putFlag_reach ..) rfl ?_
  first | assumption | exact .refl

theorem State.basOpen_reach (s : State) (k : Nat) (e : Nat) : Reach [.regs, .basins] s (State.basOpen s k e) := by
  unfold State.basOpen
  refine Reach.ite ?_ ?_
  · first | assumption | exact .refl
  · refine Reach.ite ?_ ?_
    · refine Reach.step (State.raise_reach ..) rfl ?_
      refine Reach.step (State.modBasin_reach ..) rfl ?_
      first | assumption | exact .refl
    · extract_lets -underBinder -merge +onlyGivenNames x1
      refine Reach.ite ?_ ?_
      · refine Reach.step (State.bump_reach ..) rfl ?_
        first | assumption | exact .refl
      · refine Reach.step (State.putWins_reach ..) rfl ?_
        first | assumption | exact .refl

abbrev State.basClose_parts : List Part :=
  [.regs, .basins]
theorem State.basClose_reach (s : State) (k : Nat) (e : Nat) : Reach State.basClose_parts s (State.basClose s k e) := by
  unfold State.basClose
  refine Reach.ite ?_ ?_
  · first | assumption | exact .refl
  · split
    · refine Reach.step (State.raise_reach ..) rfl ?_
      first | assumption | exact .refl
    · refine Reach.ite ?_ ?_
      · refine Reach.step (State.raise_reach ..) rfl ?_
        first | assumption | exact .refl
      · extract_lets -underBinder -merge +onlyGivenNames x1 x2 s3
        have hs3 : Reach State.basClose_parts s s3 := by
          unfold s3
          refine Reach.step (State.putWins_reach ..) rfl ?_
          first | assumption | exact .refl
        clear_value x1
        split
        · refine Reach.ite ?_ ?_
          · refine Reach.step (State.basOpen_reach ..) rfl ?_
            refine Reach.step (State.putFlag_reach ..) rfl ?_
            first | assumption | exact .refl
          · first | assumption | exact .refl
        · first | assumption | exact .refl

abbrev State.basAction_parts : List Part :=
  [.regs, .basins]
theorem State.basAction_reach (s : State) (k : Nat) (e : Nat) (close : Bool) (opn : Bool) : Reach State.basAction_parts s (State.basAction s k e close opn) := by
  unfold State.basAction
  refine Reach.ite ?_ ?_
  · first | assumption | exact .refl
  · extract_lets -underBinder -merge +onlyGivenNames s1
    have hs1 : Reach State.basAction_parts s s1 := by
      unfold s1
      refine Reach.ite ?_ ?_
      · refine Reach.step (State.basClose_reach ..) rfl ?_
        first | assumption | exact .refl
      · first | assumption | exact .refl
    refine Reach.ite ?_ ?_
    · refine Reach.step (State.basOpen_reach ..) rfl ?_
      first | assumption | exact .refl
    · first | assumption | exact .refl

theorem State.basAbort_reach (s : State) (k : Nat) : Reach [.regs, .basins] s (State.basAbort s k) := by
  unfold State.basAbort
  refine Reach.ite ?_ ?_
  · refine Reach.step (State.bump_reach ..) rfl ?_
    refine Reach.step (State.raise_reach ..) rfl ?_
    refine Reach.step (State.putWins_reach ..) rfl ?_
    first | assumption | exact .refl
  · first | assumption | exact .refl

theorem State.basLoss_reach (s : State) (d : Nat) : Reach [.regs, .basins] s (State.basLoss s d) := by
  unfold State.basLoss
  refine Reach.foldl _ _ (fun u1 y1 hu1 => ?_) ?_
  · refine Reach.ite ?_ ?_
    · refine Reach.step (State.basAbort_reach ..) rfl ?_
      first | assumption | exact .refl
    · first | assumption | exact .refl
  · first | assumption | exact .refl

abbrev State.filter_parts : List Part :=
  [.adcs, .regs]
theorem State.filter_reach (s : State) (k : Nat) (x : Int) : Reach State.filter_parts s (State.filter s k x).1 := by
  unfold State.filter
  extract_lets -underBinder -merge +onlyGivenNames x1 x2 x3 s4
  have hs4 : Reach State.filter_parts s s4 := by
    unfold s4
    refine Reach.step (State.setAdc_reach ..) rfl ?_
    first | assumption | exact .refl
  refine Reach.fstMk ?_
  refine Reach.ite ?_ ?_
  · refine Reach.step (State.raise_reach ..) rfl ?_
    first | assumption | exact .refl
  · first | assumption | exact .refl

abbrev State.deliverSample_parts : List Part :=
  [.basins, .regs]
theorem State.deliverSample_reach (s : State) (m : Sample) : Reach State.deliverSample_parts s (State.deliverSample s m) := by
  unfold State.deliverSample
  refine Reach.foldl _ _ (fun u1 y1 hu1 => ?_) ?_
  · extract_lets -underBinder -merge +onlyGivenNames x2 s3
    have hs3 : Reach State.deliverSample_parts s s3 := by
      unfold s3
      refine Reach.step (State.putWins_reach ..) rfl ?_
      first | assumption | exact .refl
    refine Reach.ite ?_ ?_
    · refine Reach.step (State.raise_reach ..) rfl ?_
      first | assumption | exact .refl
    · first | assumption | exact .refl
  · first | assumption | exact .refl

theorem State.feedAppend_reach (s : State) (f : Nat) (r : List Nat) : Reach [.feeds, .regs] s (State.feedAppend s f r) := by
  unfold State.feedAppend
  refine Reach.ite ?_ ?_
  · refine Reach.step (State.setFeed_reach ..) rfl ?_
    first | assumption | exact .refl
  · refine Reach.step (State.bump_reach ..) rfl ?_
    refine Reach.step (State.raise_reach ..) rfl ?_
    first | assumption | exact .refl

abbrev State.trkLatchResult_parts : List Part :=
  [.regs]
theorem State.trkLatchResult_reach (s : State) (t : Nat) (seq : Nat) (e : Ext) : Reach State.trkLatchResult_parts s (State.trkLatchResult s t seq e) := by
  unfold State.trkLatchResult
  extract_lets -underBinder -merge +onlyGivenNames x1 x2 x3 s4 s5 s6 s7 s8 s9 s10
  have hs4 : Reach State.trkLatchResult_parts s s4 := by
    unfold s4
    refine Reach.step (State.setFld_reach ..) rfl ?_
    first | assumption | exact .refl
  have hs5 : Reach State.trkLatchResult_parts s s5 := by
    unfold s5
    refine Reach.step (State.setFld_reach ..) rfl ?_
    first | assumption | exact .refl
  have hs6 : Reach State.trkLatchResult_parts s s6 := by
    unfold s6
    refine Reach.step (State.setFld_reach ..) rfl ?_
    first | assumption | exact .refl
  have hs7 : Reach State.trkLatchResult_parts s s7 := by
    unfold s7
    refine Reach.step (State.setFld_reach ..) rfl ?_
    first | assumption | exact .refl
  have hs8 : Reach State.trkLatchResult_parts s s8 := by
    unfold s8
    refine Reach.step (State.setFld_reach ..) rfl ?_
    first | assumption | exact .refl
  have hs9 : Reach State.trkLatchResult_parts s s9 := by
    unfold s9
    refine Reach.step (State.setFld_reach ..) rfl ?_
    first | assumption | exact .refl
  have hs10 : Reach State.trkLatchResult_parts s s10 := by
    unfold s10
    refine Reach.step (State.putFlag_reach ..) rfl ?_
    first | assumption | exact .refl
  refine Reach.step (State.putFlag_reach ..) rfl ?_
  first | assumption | exact .refl

abbrev State.portTake_parts : List Part :=
  [.regs]
theorem State.portTake_reach (s : State) (k : Nat) (value : Nat) (samples : Nat) (cyc : Nat) (seq : Nat) (late : Bool) (ovf : Bool) : Reach State.portTake_parts s (State.portTake s k value samples cyc seq late ovf) := by
  unfold State.portTake
  extract_lets -underBinder -merge +onlyGivenNames s1 s2 s3 s4 s5
  have hs1 : Reach State.portTake_parts s s1 := by
    unfold s1
    refine Reach.step (State.setFld_reach ..) rfl ?_
    first | assumption | exact .refl
  have hs2 : Reach State.portTake_parts s s2 := by
    unfold s2
    refine Reach.step (State.setFld_reach ..) rfl ?_
    first | assumption | exact .refl
  have hs3 : Reach State.portTake_parts s s3 := by
    unfold s3
    refine Reach.step (State.setFld_reach ..) rfl ?_
    first | assumption | exact .refl
  have hs4 : Reach State.portTake_parts s s4 := by
    unfold s4
    refine Reach.step (State.setFld_reach ..) rfl ?_
    first | assumption | exact .refl
  have hs5 : Reach State.portTake_parts s s5 := by
    unfold s5
    refine Reach.step (State.putFlag_reach ..) rfl ?_
    first | assumption | exact .refl
  refine Reach.step (State.putFlag_reach ..) rfl ?_
  first | assumption | exact .refl

abbrev State.basLatch_parts : List Part :=
  [.regs, .basins, .feeds]
theorem State.basLatch_reach (s : State) (k : Nat) (w : Window) (cyc : Nat) : Reach State.basLatch_parts s (State.basLatch s k w cyc) := by
  unfold State.basLatch
  extract_lets -underBinder -merge +onlyGivenNames x1 s2 x3 x4 x5 s6 s7 s8
  have hs2 : Reach State.basLatch_parts s s2 := by
    unfold s2
    refine Reach.step (State.setFld_reach ..) rfl ?_
    first | assumption | exact .refl
  have hs6 : Reach State.basLatch_parts s s6 := by
    unfold s6
    refine Reach.ite ?_ ?_
    · refine Reach.step (State.modBasin_reach ..) rfl ?_
      refine Reach.step (State.bump_reach ..) rfl ?_
      refine Reach.step (State.raise_reach ..) rfl ?_
      first | assumption | exact .refl
    · refine Reach.step (State.modBasin_reach ..) rfl ?_
      refine Reach.step (State.portTake_reach ..) rfl ?_
      first | assumption | exact .refl
  have hs7 : Reach State.basLatch_parts s s7 := by
    unfold s7
    refine Reach.foldl _ _ (fun u9 y9 hu9 => ?_) ?_
    · refine Reach.ite ?_ ?_
      · refine Reach.step (State.trkLatchResult_reach ..) rfl ?_
        first | assumption | exact .refl
      · first | assumption | exact .refl
    · first | assumption | exact .refl
  have hs8 : Reach State.basLatch_parts s s8 := by
    unfold s8
    refine Reach.ite ?_ ?_
    · refine Reach.step (State.feedAppend_reach ..) rfl ?_
      first | assumption | exact .refl
    · first | assumption | exact .refl
  refine Reach.ite ?_ ?_
  · refine Reach.step (State.orFld_reach ..) rfl ?_
    first | assumption | exact .refl
  · first | assumption | exact .refl

theorem State.feedLow_reach (s : State) (src : Nat) (f : Nat) : Reach [.feeds] s (State.feedLow s src f) := by
  unfold State.feedLow
  extract_lets -underBinder -merge +onlyGivenNames x1 x2
  refine Reach.step (State.setFeed_reach ..) rfl ?_
  first | assumption | exact .refl

theorem State.feedHigh_reach (s : State) (src : Nat) (f : Nat) : Reach [.regs, .feeds] s (State.feedHigh s src f) := by
  unfold State.feedHigh
  extract_lets -underBinder -merge +onlyGivenNames x1 x2
  refine Reach.ite ?_ ?_
  · refine Reach.step (State.raise_reach ..) rfl ?_
    refine Reach.step (State.setFeed_reach ..) rfl ?_
    first | assumption | exact .refl
  · split
    · refine Reach.step (State.setFeed_reach ..) rfl ?_
      first | assumption | exact .refl
    · refine Reach.step (State.raise_reach ..) rfl ?_
      first | assumption | exact .refl


/-! ### Pwm.lean -/

theorem State.modPwm_reach (s : State) (g : Nat) (f : Pwm → Pwm) : Reach [.pwms] s (State.modPwm s g f) := by
  unfold State.modPwm
  refine Reach.step (State.setPwm_reach ..) rfl ?_
  first | assumption | exact .refl

abbrev State.pwmDrive_parts : List Part :=
  [.pwms, .regs]
theorem State.pwmDrive_reach (s : State) (g : Nat) : Reach State.pwmDrive_parts s (State.pwmDrive s g) := by
  unfold State.pwmDrive
  extract_lets -underBinder -merge +onlyGivenNames x1
  refine Reach.ite ?_ ?_
  · first | assumption | exact .refl
  · extract_lets -underBinder -merge +onlyGivenNames x2 x3 x4 x5 x6 x7 x8 x9 x10 x11 x12 x13 x14 s15
    have hs15 : Reach State.pwmDrive_parts s s15 := by
      unfold s15
      refine Reach.step (State.setPwm_reach ..) rfl ?_
      first | assumption | exact .refl
    refine Reach.ite ?_ ?_
    · refine Reach.step (State.raise_reach ..) rfl ?_
      first | assumption | exact .refl
    · first | assumption | exact .refl

theorem State.pwmSettle_reach (s : State) (g : Nat) : Reach [.pwms, .regs] s (State.pwmSettle s g) := by
  unfold State.pwmSettle
  extract_lets -underBinder -merge +onlyGivenNames x1
  refine Reach.ite ?_ ?_
  · refine Reach.step (State.pwmDrive_reach ..) rfl ?_
    refine Reach.step (State.setPwm_reach ..) rfl ?_
    first | assumption | exact .refl
  · first | assumption | exact .refl

theorem State.pwmTurn_reach (s : State) : Reach [.pwms, .regs] s (State.pwmTurn s) := by
  unfold State.pwmTurn
  refine Reach.foldl _ _ (fun u1 y1 hu1 => ?_) ?_
  · refine Reach.step (State.pwmSettle_reach ..) rfl ?_
    first | assumption | exact .refl
  · first | assumption | exact .refl

theorem State.pwmDue_reach (s : State) (g : Nat) : Reach [.pwms] s (State.pwmDue s g) := by
  unfold State.pwmDue
  refine Reach.step (State.modPwm_reach ..) rfl ?_
  first | assumption | exact .refl

theorem State.unclear_reach (s : State) (g : Nat) : Reach [.regs] s (State.unclear s g) := by
  unfold State.unclear
  split
  · refine Reach.ite ?_ ?_
    · refine Reach.step (State.raise_reach ..) rfl ?_
      refine Reach.step (State.orFld_reach ..) rfl ?_
      refine Reach.step (State.orFld_reach ..) rfl ?_
      refine Reach.step (State.orFld_reach ..) rfl ?_
      first | assumption | exact .refl
    · first | assumption | exact .refl
  · first | assumption | exact .refl

abbrev State.pwmTrip_parts : List Part :=
  [.regs, .pwms]
theorem State.pwmTrip_reach (s : State) (g : Nat) (chans : Nat) (sw : Bool) (clearing : Bool) : Reach State.pwmTrip_parts s (State.pwmTrip s g chans sw clearing) := by
  unfold State.pwmTrip
  extract_lets -underBinder -merge +onlyGivenNames s1 s2 s3 s4 s5 x6
  have hs1 : Reach State.pwmTrip_parts s s1 := by
    unfold s1
    refine Reach.step (State.raise_reach ..) rfl ?_
    refine Reach.step (State.unclear_reach ..) rfl ?_
    first | assumption | exact .refl
  have hs2 : Reach State.pwmTrip_parts s s2 := by
    unfold s2
    refine Reach.step (State.orFld_reach ..) rfl ?_
    first | assumption | exact .refl
  have hs3 : Reach State.pwmTrip_parts s s3 := by
    unfold s3
    refine Reach.ite ?_ ?_
    · refine Reach.step (State.raise_reach ..) rfl ?_
      first | assumption | exact .refl
    · first | assumption | exact .refl
  have hs4 : Reach State.pwmTrip_parts s s4 := by
    unfold s4
    refine Reach.ite ?_ ?_
    · refine Reach.step (State.raise_reach ..) rfl ?_
      first | assumption | exact .refl
    · first | assumption | exact .refl
  have hs5 : Reach State.pwmTrip_parts s s5 := by
    unfold s5
    refine Reach.step (State.bump_reach ..) rfl ?_
    first | assumption | exact .refl
  refine Reach.step (State.modPwm_reach ..) rfl ?_
  first | assumption | exact .refl

theorem State.pwmTripCheck_reach (s : State) (g : Nat) : Reach [.regs, .pwms] s (State.pwmTripCheck s g) := by
  unfold State.pwmTripCheck
  extract_lets -underBinder -merge +onlyGivenNames x1
  refine Reach.ite ?_ ?_
  · refine Reach.step (State.pwmTrip_reach ..) rfl ?_
    first | assumption | exact .refl
  · first | assumption | exact .refl

theorem State.pwmClearing_reach (s : State) : Reach [.regs, .pwms] s (State.pwmClearing s) := by
  unfold State.pwmClearing
  refine Reach.ite ?_ ?_
  · first | assumption | exact .refl
  · refine Reach.foldl _ _ (fun u1 y1 hu1 => ?_) ?_
    · refine Reach.ite ?_ ?_
      · refine Reach.step (State.pwmTrip_reach ..) rfl ?_
        first | assumption | exact .refl
      · first | assumption | exact .refl
    · first | assumption | exact .refl

abbrev State.tripClear_parts : List Part :=
  [.regs, .pwms]
theorem State.tripClear_reach (s : State) (g : Nat) : Reach State.tripClear_parts s (State.tripClear s g) := by
  unfold State.tripClear
  refine Reach.ite ?_ ?_
  · refine Reach.ite ?_ ?_
    · refine Reach.step (State.raise_reach ..) rfl ?_
      first | assumption | exact .refl
    · extract_lets -underBinder -merge +onlyGivenNames x1 s2 s3 s4 s5
      have hs2 : Reach State.tripClear_parts s s2 := by
        unfold s2
        refine Reach.step (State.setFld_reach ..) rfl ?_
        first | assumption | exact .refl
      have hs3 : Reach State.tripClear_parts s s3 := by
        unfold s3
        refine Reach.step (State.setFld_reach ..) rfl ?_
        first | assumption | exact .refl
      have hs4 : Reach State.tripClear_parts s s4 := by
        unfold s4
        refine Reach.step (State.setFld_reach ..) rfl ?_
        first | assumption | exact .refl
      have hs5 : Reach State.tripClear_parts s s5 := by
        unfold s5
        refine Reach.step (State.setFld_reach ..) rfl ?_
        first | assumption | exact .refl
      refine Reach.step (State.modPwm_reach ..) rfl ?_
      first | assumption | exact .refl
  · first | assumption | exact .refl

abbrev State.tripRefresh_parts : List Part :=
  [.regs, .trips]
theorem State.tripRefresh_reach (s : State) (t : Nat) : Reach State.tripRefresh_parts s (State.tripRefresh s t) := by
  unfold State.tripRefresh
  extract_lets -underBinder -merge +onlyGivenNames x1 x2 x3 x4 s5 s6
  have hs5 : Reach State.tripRefresh_parts s s5 := by
    unfold s5
    refine Reach.step (State.setFld_reach ..) rfl ?_
    first | assumption | exact .refl
  have hs6 : Reach State.tripRefresh_parts s s6 := by
    unfold s6
    refine Reach.step (State.setFld_reach ..) rfl ?_
    first | assumption | exact .refl
  refine Reach.ite ?_ ?_
  · first | assumption | exact .refl
  · refine Reach.step (State.setTrip_reach ..) rfl ?_
    first | assumption | exact .refl

theorem State.tripPin_reach (s : State) (t : Nat) (level : Bool) : Reach [.regs, .trips] s (State.tripPin s t level) := by
  unfold State.tripPin
  refine Reach.step (State.tripRefresh_reach ..) rfl ?_
  refine Reach.step (State.setTrip_reach ..) rfl ?_
  first | assumption | exact .refl

theorem State.tripRefreshAll_reach (s : State) : Reach [.regs, .trips] s (State.tripRefreshAll s) := by
  unfold State.tripRefreshAll
  refine Reach.foldl _ _ (fun u1 y1 hu1 => ?_) ?_
  · refine Reach.step (State.tripRefresh_reach ..) rfl ?_
    first | assumption | exact .refl
  · first | assumption | exact .refl

theorem State.shadowNote_reach (s : State) (g : Nat) : Reach [.pwms] s (State.shadowNote s g) := by
  unfold State.shadowNote
  refine Reach.step (State.modPwm_reach ..) rfl ?_
  first | assumption | exact .refl

theorem State.loadMid_reach (s : State) (g : Nat) (at' : Nat) : Reach [.pwms] s (State.loadMid s g at') := by
  unfold State.loadMid
  refine Reach.step (State.modPwm_reach ..) rfl ?_
  first | assumption | exact .refl

theorem State.loadAll_reach (s : State) (g : Nat) (at' : Nat) : Reach [.pwms] s (State.loadAll s g at') := by
  unfold State.loadAll
  refine Reach.step (State.modPwm_reach ..) rfl ?_
  refine Reach.step (State.loadMid_reach ..) rfl ?_
  first | assumption | exact .refl

abbrev State.pwmBoundary_parts : List Part :=
  [.pwms, .regs]
theorem State.pwmBoundary_reach (s : State) (g : Nat) : Reach State.pwmBoundary_parts s (State.pwmBoundary s g) := by
  unfold State.pwmBoundary
  extract_lets -underBinder -merge +onlyGivenNames x1
  refine Reach.ite ?_ ?_
  · extract_lets -underBinder -merge +onlyGivenNames s2 s3 s4
    have hs2 : Reach State.pwmBoundary_parts s s2 := by
      unfold s2
      refine Reach.ite ?_ ?_
      · first | assumption | exact .refl
      · refine Reach.step (State.loadAll_reach ..) rfl ?_
        first | assumption | exact .refl
    have hs3 : Reach State.pwmBoundary_parts s s3 := by
      unfold s3
      refine Reach.step (State.modPwm_reach ..) rfl ?_
      first | assumption | exact .refl
    have hs4 : Reach State.pwmBoundary_parts s s4 := by
      unfold s4
      refine Reach.step (State.modPwm_reach ..) rfl ?_
      first | assumption | exact .refl
    refine Reach.ite ?_ ?_
    · refine Reach.step (State.pwmDue_reach ..) rfl ?_
      first | assumption | exact .refl
    · refine Reach.step (State.pwmDrive_reach ..) rfl ?_
      first | assumption | exact .refl
  · first | assumption | exact .refl

theorem State.pwmMid_reach (s : State) (g : Nat) : Reach [.pwms, .regs] s (State.pwmMid s g) := by
  unfold State.pwmMid
  extract_lets -underBinder -merge +onlyGivenNames x1 x2 x3
  refine Reach.ite ?_ ?_
  · refine Reach.step (State.pwmDrive_reach ..) rfl ?_
    refine Reach.step (State.loadMid_reach ..) rfl ?_
    first | assumption | exact .refl
  · first | assumption | exact .refl

theorem State.pwmMarker_reach (s : State) (g : Nat) (second : Bool) : Reach [.regs, .basins] s (State.pwmMarker s g second) := by
  unfold State.pwmMarker
  extract_lets -underBinder -merge +onlyGivenNames x1 x2 x3
  refine Reach.ite ?_ ?_
  · extract_lets -underBinder -merge +onlyGivenNames x4
    refine Reach.foldl _ _ (fun u5 y5 hu5 => ?_) ?_
    · refine Reach.ite ?_ ?_
      · refine Reach.ite ?_ ?_
        · first | assumption | exact .refl
        · refine Reach.step (State.basOpen_reach ..) rfl ?_
          refine Reach.step (State.basClose_reach ..) rfl ?_
          first | assumption | exact .refl
      · refine Reach.ite ?_ ?_
        · refine Reach.step (State.basClose_reach ..) rfl ?_
          first | assumption | exact .refl
        · refine Reach.step (State.basOpen_reach ..) rfl ?_
          first | assumption | exact .refl
    · first | assumption | exact .refl
  · first | assumption | exact .refl

theorem State.pwmRestart_reach (s : State) (mask : Nat) : Reach [.pwms] s (State.pwmRestart s mask) := by
  unfold State.pwmRestart
  refine Reach.foldl _ _ (fun u1 y1 hu1 => ?_) ?_
  · refine Reach.ite ?_ ?_
    · refine Reach.step (State.modPwm_reach ..) rfl ?_
      first | assumption | exact .refl
    · first | assumption | exact .refl
  · first | assumption | exact .refl

theorem State.auxOver_reach (s : State) (a : Nat) : Reach [.pwms, .regs] s (State.auxOver s a) := by
  unfold State.auxOver
  extract_lets -underBinder -merge +onlyGivenNames x1
  refine Reach.ite ?_ ?_
  · refine Reach.step (State.modPwm_reach ..) rfl ?_
    refine Reach.step (State.raise_reach ..) rfl ?_
    first | assumption | exact .refl
  · refine Reach.step (State.modPwm_reach ..) rfl ?_
    refine Reach.step (State.raise_reach ..) rfl ?_
    first | assumption | exact .refl

abbrev State.pwmCtrl_parts : List Part :=
  [.mspi, .regs, .pwms]
theorem State.pwmCtrl_reach (s : State) (src : Nat) (off : Nat) (be : Nat) (g : Nat) (v : Nat) : Reach State.pwmCtrl_parts s (State.pwmCtrl s src off be g v) := by
  unfold State.pwmCtrl
  extract_lets -underBinder -merge +onlyGivenNames x1 x2 x3 s4 s5 s6 s7 s8 s9 s10 s11
  have hs4 : Reach State.pwmCtrl_parts s s4 := by
    unfold s4
    refine Reach.ite ?_ ?_
    · refine Reach.step (State.accessErr_reach ..) rfl ?_
      first | assumption | exact .refl
    · first | assumption | exact .refl
  have hs5 : Reach State.pwmCtrl_parts s s5 := by
    unfold s5
    refine Reach.ite ?_ ?_
    · first | assumption | exact .refl
    · refine Reach.step (State.setFld_reach ..) rfl ?_
      refine Reach.step (State.setFld_reach ..) rfl ?_
      first | assumption | exact .refl
  have hs6 : Reach State.pwmCtrl_parts s s6 := by
    unfold s6
    refine Reach.step (State.setFld_reach ..) rfl ?_
    first | assumption | exact .refl
  have hs7 : Reach State.pwmCtrl_parts s s7 := by
    unfold s7
    refine Reach.step (State.setFld_reach ..) rfl ?_
    first | assumption | exact .refl
  have hs8 : Reach State.pwmCtrl_parts s s8 := by
    unfold s8
    refine Reach.step (State.setFld_reach ..) rfl ?_
    first | assumption | exact .refl
  have hs9 : Reach State.pwmCtrl_parts s s9 := by
    unfold s9
    refine Reach.step (State.setFld_reach ..) rfl ?_
    first | assumption | exact .refl
  have hs10 : Reach State.pwmCtrl_parts s s10 := by
    unfold s10
    refine Reach.step (State.setFld_reach ..) rfl ?_
    first | assumption | exact .refl
  have hs11 : Reach State.pwmCtrl_parts s s11 := by
    unfold s11
    refine Reach.ite ?_ ?_
    · refine Reach.step (State.modPwm_reach ..) rfl ?_
      first | assumption | exact .refl
    · first | assumption | exact .refl
  refine Reach.step (State.pwmTripCheck_reach ..) rfl ?_
  refine Reach.ite ?_ ?_
  · first | assumption | exact .refl
  · refine Reach.step (State.pwmDue_reach ..) rfl ?_
    first | assumption | exact .refl

abbrev State.pwmOutcfg_parts : List Part :=
  [.mspi, .regs]
theorem State.pwmOutcfg_reach (s : State) (src : Nat) (off : Nat) (be : Nat) (g : Nat) (v : Nat) : Reach State.pwmOutcfg_parts s (State.pwmOutcfg s src off be g v) := by
  unfold State.pwmOutcfg
  extract_lets -underBinder -merge +onlyGivenNames x1 x2 s3 s4
  have hs3 : Reach State.pwmOutcfg_parts s s3 := by
    unfold s3
    refine Reach.ite ?_ ?_
    · refine Reach.step (State.accessErr_reach ..) rfl ?_
      first | assumption | exact .refl
    · first | assumption | exact .refl
  have hs4 : Reach State.pwmOutcfg_parts s s4 := by
    unfold s4
    refine Reach.ite ?_ ?_
    · first | assumption | exact .refl
    · refine Reach.foldl _ _ (fun u5 y5 hu5 => ?_) ?_
      · refine Reach.step (State.setFld_reach ..) rfl ?_
        first | assumption | exact .refl
      · first | assumption | exact .refl
  refine Reach.step (State.setFld_reach ..) rfl ?_
  refine Reach.step (State.setFld_reach ..) rfl ?_
  first | assumption | exact .refl

theorem State.pwmForce_reach (s : State) (g : Nat) (v : Nat) : Reach [.pwms, .regs] s (State.pwmForce s g v) := by
  unfold State.pwmForce
  refine Reach.step (State.pwmDue_reach ..) rfl ?_
  refine Reach.step (State.setFld_reach ..) rfl ?_
  refine Reach.step (State.setFld_reach ..) rfl ?_
  first | assumption | exact .refl

theorem State.pwmHold_reach (s : State) : Reach [.pwms] s (State.pwmHold s) := by
  unfold State.pwmHold
  refine Reach.foldl _ _ (fun u1 y1 hu1 => ?_) ?_
  · refine Reach.ite ?_ ?_
    · first | assumption | exact .refl
    · refine Reach.step (State.modPwm_reach ..) rfl ?_
      first | assumption | exact .refl
  · first | assumption | exact .refl

theorem State.pwmResume_reach (s : State) : Reach [.pwms] s (State.pwmResume s) := by
  unfold State.pwmResume
  refine Reach.foldl _ _ (fun u1 y1 hu1 => ?_) ?_
  · split
    · refine Reach.step (State.modPwm_reach ..) rfl ?_
      first | assumption | exact .refl
    · first | assumption | exact .refl
  · first | assumption | exact .refl


/-! ### Comparators.lean -/

theorem State.modCmp_reach (s : State) (k : Nat) (f : Cmp → Cmp) : Reach [.cmps] s (State.modCmp s k f) := by
  unfold State.modCmp
  refine Reach.step (State.setCmp_reach ..) rfl ?_
  first | assumption | exact .refl

theorem State.cmpOut_reach (s : State) (k : Nat) : Reach [.regs, .ioes] s (State.cmpOut s k) := by
  unfold State.cmpOut
  refine Reach.ite ?_ ?_
  · extract_lets -underBinder -merge +onlyGivenNames x1
    refine Reach.ite ?_ ?_
    · first | assumption | exact .refl
    · refine Reach.step (State.pinEdge_reach ..) rfl ?_
      refine Reach.step (State.putFlag_reach ..) rfl ?_
      first | assumption | exact .refl
  · first | assumption | exact .refl

theorem State.window_reach (s : State) (e : Nat) : Reach [.regs] s (State.window s e) := by
  unfold State.window
  extract_lets -underBinder -merge +onlyGivenNames x1 x2 x3
  refine Reach.step (State.putFlag_reach ..) rfl ?_
  refine Reach.step (State.putFlag_reach ..) rfl ?_
  first | assumption | exact .refl

abbrev State.cmpEvent_parts : List Part :=
  [.cmps, .regs]
theorem State.cmpEvent_reach (s : State) (k : Nat) (quiet : Bool) : Reach State.cmpEvent_parts s (State.cmpEvent s k quiet) := by
  unfold State.cmpEvent
  extract_lets -underBinder -merge +onlyGivenNames x1
  refine Reach.ite ?_ ?_
  · first | assumption | exact .refl
  · extract_lets -underBinder -merge +onlyGivenNames s2
    have hs2 : Reach State.cmpEvent_parts s s2 := by
      unfold s2
      refine Reach.step (State.modCmp_reach ..) rfl ?_
      first | assumption | exact .refl
    refine Reach.ite ?_ ?_
    · first | assumption | exact .refl
    · refine Reach.step (State.bump_reach ..) rfl ?_
      refine Reach.step (State.raise_reach ..) rfl ?_
      first | assumption | exact .refl

abbrev State.cmpRefresh_parts : List Part :=
  [.regs, .ioes, .trips, .cmps]
theorem State.cmpRefresh_reach (s : State) (k : Nat) (quiet : Bool) : Reach State.cmpRefresh_parts s (State.cmpRefresh s k quiet) := by
  unfold State.cmpRefresh
  extract_lets -underBinder -merge +onlyGivenNames x1 s2
  have hs2 : Reach State.cmpRefresh_parts s s2 := by
    unfold s2
    refine Reach.step (State.window_reach ..) rfl ?_
    refine Reach.step (State.cmpOut_reach ..) rfl ?_
    refine Reach.step (State.cmpOut_reach ..) rfl ?_
    first | assumption | exact .refl
  refine Reach.step (State.tripRefreshAll_reach ..) rfl ?_
  refine Reach.step (State.cmpEvent_reach ..) rfl ?_
  refine Reach.step (State.cmpEvent_reach ..) rfl ?_
  first | assumption | exact .refl

abbrev State.cmpPass_parts : List Part :=
  [.cmps, .regs, .ioes, .trips]
theorem State.cmpPass_reach (s : State) (k : Nat) : Reach State.cmpPass_parts s (State.cmpPass s k) := by
  unfold State.cmpPass
  extract_lets -underBinder -merge +onlyGivenNames x1 x2 s3
  have hs3 : Reach State.cmpPass_parts s s3 := by
    unfold s3
    refine Reach.step (State.setCmp_reach ..) rfl ?_
    first | assumption | exact .refl
  refine Reach.step (State.cmpRefresh_reach ..) rfl ?_
  refine Reach.step (State.raise_reach ..) rfl ?_
  first | assumption | exact .refl

theorem State.cmpRaw_reach (s : State) (k : Nat) (raw : Bool) : Reach [.cmps] s (State.cmpRaw s k raw) := by
  unfold State.cmpRaw
  refine Reach.ite ?_ ?_
  · first | assumption | exact .refl
  · refine Reach.step (State.modCmp_reach ..) rfl ?_
    first | assumption | exact .refl

theorem State.cmpCross_reach (s : State) (k : Nat) (raw : Bool) : Reach [.cmps] s (State.cmpCross s k raw) := by
  unfold State.cmpCross
  refine Reach.ite ?_ ?_
  · refine Reach.step (State.cmpRaw_reach ..) rfl ?_
    first | assumption | exact .refl
  · first | assumption | exact .refl

theorem State.cmpFollow_reach (s : State) (k : Nat) : Reach [.cmps] s (State.cmpFollow s k) := by
  unfold State.cmpFollow
  extract_lets -underBinder -merge +onlyGivenNames x1
  refine Reach.ite ?_ ?_
  · first | assumption | exact .refl
  · refine Reach.step (State.cmpRaw_reach ..) rfl ?_
    first | assumption | exact .refl

theorem State.cmpFilter_reach (s : State) (k : Nat) : Reach [.cmps, .regs, .ioes, .trips] s (State.cmpFilter s k) := by
  unfold State.cmpFilter
  extract_lets -underBinder -merge +onlyGivenNames x1
  refine Reach.ite ?_ ?_
  · refine Reach.step (State.cmpPass_reach ..) rfl ?_
    first | assumption | exact .refl
  · first | assumption | exact .refl

abbrev State.cmpHoldEnd_parts : List Part :=
  [.cmps, .regs, .ioes, .trips]
theorem State.cmpHoldEnd_reach (s : State) (k : Nat) : Reach State.cmpHoldEnd_parts s (State.cmpHoldEnd s k) := by
  unfold State.cmpHoldEnd
  split
  · refine Reach.ite ?_ ?_
    · extract_lets -underBinder -merge +onlyGivenNames s1 s2
      have hs1 : Reach State.cmpHoldEnd_parts s s1 := by
        unfold s1
        refine Reach.step (State.modCmp_reach ..) rfl ?_
        first | assumption | exact .refl
      have hs2 : Reach State.cmpHoldEnd_parts s s2 := by
        unfold s2
        refine Reach.step (State.putFlag_reach ..) rfl ?_
        first | assumption | exact .refl
      refine Reach.ite ?_ ?_
      · refine Reach.step (State.cmpPass_reach ..) rfl ?_
        first | assumption | exact .refl
      · first | assumption | exact .refl
    · first | assumption | exact .refl
  · first | assumption | exact .refl

abbrev State.cmpDac_parts : List Part :=
  [.regs, .cmps, .ioes, .trips]
theorem State.cmpDac_reach (s : State) (k : Nat) (v : Nat) : Reach State.cmpDac_parts s (State.cmpDac s k v) := by
  unfold State.cmpDac
  extract_lets -underBinder -merge +onlyGivenNames x1 x2 x3 x4 s5 s6 s7
  have hs5 : Reach State.cmpDac_parts s s5 := by
    unfold s5
    refine Reach.step (State.setFld_reach ..) rfl ?_
    refine Reach.step (State.setFld_reach ..) rfl ?_
    first | assumption | exact .refl
  have hs6 : Reach State.cmpDac_parts s s6 := by
    unfold s6
    refine Reach.ite ?_ ?_
    · refine Reach.step (State.modCmp_reach ..) rfl ?_
      first | assumption | exact .refl
    · first | assumption | exact .refl
  have hs7 : Reach State.cmpDac_parts s s7 := by
    unfold s7
    refine Reach.ite ?_ ?_
    · refine Reach.step (State.putFlag_reach ..) rfl ?_
      refine Reach.step (State.raise_reach ..) rfl ?_
      refine Reach.step (State.modCmp_reach ..) rfl ?_
      first | assumption | exact .refl
    · first | assumption | exact .refl
  refine Reach.step (State.cmpRefresh_reach ..) rfl ?_
  refine Reach.step (State.cmpFollow_reach ..) rfl ?_
  first | assumption | exact .refl

abbrev State.cmpCfg_parts : List Part :=
  [.mspi, .regs, .ioes, .trips, .cmps]
theorem State.cmpCfg_reach (s : State) (src : Nat) (off : Nat) (be : Nat) (k : Nat) (v : Nat) : Reach State.cmpCfg_parts s (State.cmpCfg s src off be k v) := by
  unfold State.cmpCfg
  refine Reach.ite ?_ ?_
  · refine Reach.step (State.accessErr_reach ..) rfl ?_
    first | assumption | exact .refl
  · extract_lets -underBinder -merge +onlyGivenNames s1 s2 s3 s4 s5
    have hs1 : Reach State.cmpCfg_parts s s1 := by
      unfold s1
      refine Reach.step (State.setFld_reach ..) rfl ?_
      first | assumption | exact .refl
    have hs2 : Reach State.cmpCfg_parts s s2 := by
      unfold s2
      refine Reach.ite ?_ ?_
      · refine Reach.step (State.setFld_reach ..) rfl ?_
        first | assumption | exact .refl
      · first | assumption | exact .refl
    have hs3 : Reach State.cmpCfg_parts s s3 := by
      unfold s3
      refine Reach.step (State.setFld_reach ..) rfl ?_
      first | assumption | exact .refl
    have hs4 : Reach State.cmpCfg_parts s s4 := by
      unfold s4
      refine Reach.step (State.setFld_reach ..) rfl ?_
      first | assumption | exact .refl
    have hs5 : Reach State.cmpCfg_parts s s5 := by
      unfold s5
      refine Reach.step (State.setFld_reach ..) rfl ?_
      first | assumption | exact .refl
    refine Reach.step (State.cmpRefresh_reach ..) rfl ?_
    refine Reach.step (State.cmpFollow_reach ..) rfl ?_
    refine Reach.step (State.cmpFollow_reach ..) rfl ?_
    first | assumption | exact .refl

abbrev State.cmpRoute_parts : List Part :=
  [.regs, .ioes, .trips, .cmps]
theorem State.cmpRoute_reach (s : State) (k : Nat) (v : Nat) : Reach State.cmpRoute_parts s (State.cmpRoute s k v) := by
  unfold State.cmpRoute
  extract_lets -underBinder -merge +onlyGivenNames s1 s2 s3 s4
  have hs1 : Reach State.cmpRoute_parts s s1 := by
    unfold s1
    refine Reach.step (State.setFld_reach ..) rfl ?_
    first | assumption | exact .refl
  have hs2 : Reach State.cmpRoute_parts s s2 := by
    unfold s2
    refine Reach.step (State.setFld_reach ..) rfl ?_
    first | assumption | exact .refl
  have hs3 : Reach State.cmpRoute_parts s s3 := by
    unfold s3
    refine Reach.step (State.setFld_reach ..) rfl ?_
    first | assumption | exact .refl
  have hs4 : Reach State.cmpRoute_parts s s4 := by
    unfold s4
    refine Reach.step (State.setFld_reach ..) rfl ?_
    first | assumption | exact .refl
  refine Reach.step (State.cmpRefresh_reach ..) rfl ?_
  refine Reach.step (State.setFld_reach ..) rfl ?_
  first | assumption | exact .refl

abbrev State.tripPass_parts : List Part :=
  [.regs, .pwms]
theorem State.tripPass_reach (s : State) (t : Nat) : Reach State.tripPass_parts s (State.tripPass s t) := by
  unfold State.tripPass
  extract_lets -underBinder -merge +onlyGivenNames x1 x2
  refine Reach.ite ?_ ?_
  · refine Reach.ite ?_ ?_
    · extract_lets -underBinder -merge +onlyGivenNames s3
      have hs3 : Reach State.tripPass_parts s s3 := by
        unfold s3
        refine Reach.step (State.orFld_reach ..) rfl ?_
        first | assumption | exact .refl
      refine Reach.foldl _ _ (fun u4 y4 hu4 => ?_) ?_
      · refine Reach.ite ?_ ?_
        · refine Reach.step (State.pwmTrip_reach ..) rfl ?_
          first | assumption | exact .refl
        · first | assumption | exact .refl
      · first | assumption | exact .refl
    · refine Reach.step (State.clearBits_reach ..) rfl ?_
      first | assumption | exact .refl
  · first | assumption | exact .refl


/-! ### Fabric.lean -/

theorem State.freeSlot_reach (s : State) (n : Nat) (k : Nat) : Reach [.seqs] s (State.freeSlot s n k) := by
  unfold State.freeSlot
  refine Reach.step (State.setSlot_reach ..) rfl ?_
  first | assumption | exact .refl

theorem State.freePulse_reach (s : State) (n : Nat) (k : Nat) : Reach [.seqs] s (State.freePulse s n k) := by
  unfold State.freePulse
  split
  · refine Reach.step (State.freeSlot_reach ..) rfl ?_
    refine Reach.step (State.freeSlot_reach ..) rfl ?_
    first | assumption | exact .refl
  · refine Reach.step (State.freeSlot_reach ..) rfl ?_
    first | assumption | exact .refl

abbrev State.armSlot_parts : List Part :=
  [.seqs, .regs]
theorem State.armSlot_reach (s : State) (n : Nat) (k : Nat) (x : Slot) : Reach State.armSlot_parts s (State.armSlot s n k x) := by
  unfold State.armSlot
  extract_lets -underBinder -merge +onlyGivenNames x1 s2
  have hs2 : Reach State.armSlot_parts s s2 := by
    unfold s2
    refine Reach.step (State.setSlot_reach ..) rfl ?_
    first | assumption | exact .refl
  refine Reach.step (State.setFld_reach ..) rfl ?_
  first | assumption | exact .refl

theorem State.redriveChan_reach (s : State) (c : Nat) : Reach [.chans] s (State.redriveChan s c) := by
  unfold State.redriveChan
  extract_lets -underBinder -merge +onlyGivenNames x1 x2
  refine Reach.ite ?_ ?_
  · refine Reach.step (State.setChan_reach ..) rfl ?_
    first | assumption | exact .refl
  · first | assumption | exact .refl

theorem State.redrive_reach (s : State) : Reach [.chans] s (State.redrive s) := by
  unfold State.redrive
  refine Reach.foldl _ _ (fun u1 y1 hu1 => ?_) ?_
  · refine Reach.step (State.redriveChan_reach ..) rfl ?_
    first | assumption | exact .refl
  · first | assumption | exact .refl

abbrev State.edge_parts : List Part :=
  [.regs, .chans]
theorem State.edge_reach (s : State) (c : Nat) (rising : Bool) (stamp : Nat) (inWord : Bool) : Reach State.edge_parts s (State.edge s c rising stamp inWord) := by
  unfold State.edge
  extract_lets -underBinder -merge +onlyGivenNames x1 x2 s3 s4 s5
  have hs3 : Reach State.edge_parts s s3 := by
    unfold s3
    refine Reach.ite ?_ ?_
    · refine Reach.step (State.bump_reach ..) rfl ?_
      first | assumption | exact .refl
    · first | assumption | exact .refl
  have hs4 : Reach State.edge_parts s s4 := by
    unfold s4
    refine Reach.step (State.putFlag_reach ..) rfl ?_
    refine Reach.step (State.bump_reach ..) rfl ?_
    first | assumption | exact .refl
  have hs5 : Reach State.edge_parts s s5 := by
    unfold s5
    refine Reach.step (State.putFlag_reach ..) rfl ?_
    refine Reach.step (State.setFld_reach ..) rfl ?_
    first | assumption | exact .refl
  refine Reach.step (State.modChan_reach ..) rfl ?_
  first | assumption | exact .refl

theorem State.endCompleting_reach (s : State) (c : Nat) : Reach [.chans, .regs] s (State.endCompleting s c) := by
  unfold State.endCompleting
  refine Reach.step (State.modChan_reach ..) rfl ?_
  refine Reach.step (State.putFlag_reach ..) rfl ?_
  first | assumption | exact .refl

theorem State.clearChan_reach (s : State) (c : Nat) (stamp : Nat) : Reach [.chans, .regs] s (State.clearChan s c stamp) := by
  unfold State.clearChan
  refine Reach.step (State.endCompleting_reach ..) rfl ?_
  refine Reach.ite ?_ ?_
  · refine Reach.step (State.edge_reach ..) rfl ?_
    first | assumption | exact .refl
  · first | assumption | exact .refl

abbrev State.emitEdges_parts : List Part :=
  [.regs, .chans]
theorem State.emitEdges_reach (s : State) (c : Nat) (es : List (Bool × Nat)) : Reach State.emitEdges_parts s (State.emitEdges s c es) := by
  unfold State.emitEdges
  refine Reach.foldlFst _ _ (fun u1 y1 hu1 => ?_) ?_
  · extract_lets -underBinder -merge +onlyGivenNames x2 s3
    have hs3 : Reach State.emitEdges_parts s s3 := by
      unfold s3
      refine Reach.step (State.edge_reach ..) rfl ?_
      first | assumption | exact .refl
    refine Reach.fstMk ?_
    first | assumption | exact .refl
  · refine Reach.fstMk ?_
    first | assumption | exact .refl

abbrev State.resolve_parts : List Part :=
  [.regs, .chans]
theorem State.resolve_reach (s : State) (c : Nat) (t : Nat) (fs : List Firing) : Reach State.resolve_parts s (State.resolve s c t fs) := by
  unfold State.resolve
  extract_lets -underBinder -merge +onlyGivenNames x1 x2 s3 s4
  have hs3 : Reach State.resolve_parts s s3 := by
    unfold s3
    refine Reach.step (State.bumpBy_reach ..) rfl ?_
    first | assumption | exact .refl
  have hs4 : Reach State.resolve_parts s s4 := by
    unfold s4
    refine Reach.step (State.bumpBy_reach ..) rfl ?_
    first | assumption | exact .refl
  refine Reach.step (State.emitEdges_reach ..) rfl ?_
  first | assumption | exact .refl

abbrev State.afterFire_parts : List Part :=
  [.seqs]
theorem State.afterFire_reach (s : State) (n : Nat) (t : Nat) (rise : Nat) (fired : List Nat) (k : Nat) : Reach State.afterFire_parts s (State.afterFire s n t rise fired k) := by
  unfold State.afterFire
  extract_lets -underBinder -merge +onlyGivenNames x1
  refine Reach.ite ?_ ?_
  · first | assumption | exact .refl
  · split
    · refine Reach.ite ?_ ?_
      · refine Reach.step (State.freePulse_reach ..) rfl ?_
        first | assumption | exact .refl
      · extract_lets -underBinder -merge +onlyGivenNames x2 s3
        have hs3 : Reach State.afterFire_parts s s3 := by
          unfold s3
          split
          · refine Reach.step (State.setSlot_reach ..) rfl ?_
            first | assumption | exact .refl
          · first | assumption | exact .refl
        refine Reach.step (State.setSlot_reach ..) rfl ?_
        first | assumption | exact .refl
    · refine Reach.step (State.freePulse_reach ..) rfl ?_
      first | assumption | exact .refl
    · refine Reach.step (State.freePulse_reach ..) rfl ?_
      first | assumption | exact .refl
    · refine Reach.step (State.freeSlot_reach ..) rfl ?_
      first | assumption | exact .refl

abbrev State.fireChannel_parts : List Part :=
  [.regs, .chans, .seqs]
theorem State.fireChannel_reach (s : State) (n : Nat) (c : Nat) (t : Nat) : Reach State.fireChannel_parts s (State.fireChannel s n c t) := by
  unfold State.fireChannel
  extract_lets -underBinder -merge +onlyGivenNames x1 x2 x3 s4 x5 s6
  have hs4 : Reach State.fireChannel_parts s s4 := by
    unfold s4
    refine Reach.step (State.resolve_reach ..) rfl ?_
    first | assumption | exact .refl
  have hs6 : Reach State.fireChannel_parts s s6 := by
    unfold s6
    refine Reach.foldl _ _ (fun u7 y7 hu7 => ?_) ?_
    · refine Reach.step (State.afterFire_reach ..) rfl ?_
      first | assumption | exact .refl
    · first | assumption | exact .refl
  refine Reach.ite ?_ ?_
  · refine Reach.step (State.endCompleting_reach ..) rfl ?_
    first | assumption | exact .refl
  · first | assumption | exact .refl

theorem State.completeWait_reach (s : State) (n rd value : Nat) : Reach [.seqs] s (s.completeWait n rd value) := by
  unfold State.completeWait
  refine State.modSeq_reach _ _ _ fun q h => ?_
  by_cases hrd : rd = 0
  · simpa [Seq.ok, hrd] using h
  · have hx := (Seq.ok_iff _).1 (Seq.ok_setX h hrd (Nat.mod_lt value (Nat.two_pow_pos 32)))
    simp only [hrd, if_false]
    exact (Seq.ok_iff _).2 ⟨hx.1, hx.2.1, hx.2.2.1, Tab.rising_set _ _ _ hx.2.2.2⟩

theorem State.wakeSlot_reach (s : State) (n : Nat) (k : Nat) (value : Nat) : Reach [.seqs] s (State.wakeSlot s n k value) := by
  unfold State.wakeSlot
  split
  · refine Reach.ite ?_ ?_
    · refine Reach.step (State.completeWait_reach ..) rfl ?_
      first | assumption | exact .refl
    · first | assumption | exact .refl
  · first | assumption | exact .refl

theorem State.fireSlot_reach (s : State) (n : Nat) (k : Nat) (t : Nat) : Reach [.regs, .basins, .seqs, .chans] s (State.fireSlot s n k t) := by
  unfold State.fireSlot
  extract_lets -underBinder -merge +onlyGivenNames x1
  refine Reach.ite ?_ ?_
  · split
    · refine Reach.step (State.basAction_reach ..) rfl ?_
      refine Reach.step (State.freeSlot_reach ..) rfl ?_
      first | assumption | exact .refl
    · refine Reach.step (State.basAction_reach ..) rfl ?_
      refine Reach.step (State.freeSlot_reach ..) rfl ?_
      first | assumption | exact .refl
    · refine Reach.step (State.basAction_reach ..) rfl ?_
      refine Reach.step (State.freeSlot_reach ..) rfl ?_
      first | assumption | exact .refl
    · refine Reach.step (State.basAction_reach ..) rfl ?_
      refine Reach.step (State.freeSlot_reach ..) rfl ?_
      first | assumption | exact .refl
    · refine Reach.step (State.orFld_reach ..) rfl ?_
      refine Reach.step (State.freeSlot_reach ..) rfl ?_
      first | assumption | exact .refl
    · refine Reach.step (State.orFld_reach ..) rfl ?_
      refine Reach.step (State.freeSlot_reach ..) rfl ?_
      first | assumption | exact .refl
    · refine Reach.step (State.wakeSlot_reach ..) rfl ?_
      refine Reach.step (State.freeSlot_reach ..) rfl ?_
      first | assumption | exact .refl
    · refine Reach.step (State.wakeSlot_reach ..) rfl ?_
      refine Reach.step (State.freeSlot_reach ..) rfl ?_
      first | assumption | exact .refl
    · refine Reach.step (State.fireChannel_reach ..) rfl ?_
      first | assumption | exact .refl
  · first | assumption | exact .refl

theorem State.fireAngles_reach (s : State) (n : Nat) (t : Nat) : Reach [.regs, .basins, .seqs, .chans] s (State.fireAngles s n t) := by
  unfold State.fireAngles
  refine Reach.foldl _ _ (fun u1 y1 hu1 => ?_) ?_
  · refine Reach.ite ?_ ?_
    · first | assumption | exact .refl
    · refine Reach.step (State.fireSlot_reach ..) rfl ?_
      first | assumption | exact .refl
  · first | assumption | exact .refl

theorem State.endPulse_reach (s : State) (c : Nat) : Reach [.chans, .regs] s (State.endPulse s c) := by
  unfold State.endPulse
  extract_lets -underBinder -merge +onlyGivenNames x1
  refine Reach.step (State.clearChan_reach ..) rfl ?_
  first | assumption | exact .refl

abbrev State.cancelSlot_parts : List Part :=
  [.chans, .regs, .seqs]
theorem State.cancelSlot_reach (s : State) (n : Nat) (k : Nat) : Reach State.cancelSlot_parts s (State.cancelSlot s n k).1 := by
  unfold State.cancelSlot
  extract_lets -underBinder -merge +onlyGivenNames x1
  split
  · refine Reach.fstMk ?_
    first | assumption | exact .refl
  · extract_lets -underBinder -merge +onlyGivenNames x2 x3 s4
    have hs4 : Reach State.cancelSlot_parts s s4 := by
      unfold s4
      refine Reach.ite ?_ ?_
      · refine Reach.step (State.endPulse_reach ..) rfl ?_
        first | assumption | exact .refl
      · first | assumption | exact .refl
    clear_value x2
    split
    · refine Reach.fstMk ?_
      refine Reach.step (State.freeSlot_reach ..) rfl ?_
      refine Reach.step (State.freeSlot_reach ..) rfl ?_
      first | assumption | exact .refl
    · refine Reach.fstMk ?_
      refine Reach.step (State.freeSlot_reach ..) rfl ?_
      first | assumption | exact .refl

abbrev State.cancelWhere_parts : List Part :=
  [.chans, .regs, .seqs]
theorem State.cancelWhere_reach (s : State) (n : Nat) (p : Slot → Bool) : Reach State.cancelWhere_parts s (State.cancelWhere s n p).1 := by
  unfold State.cancelWhere
  refine Reach.foldlFst _ _ (fun u1 y1 hu1 => ?_) ?_
  · split
    · extract_lets -underBinder -merge +onlyGivenNames p2
      have hp2 : Reach State.cancelWhere_parts s p2.1 := by
        unfold p2
        refine Reach.step (State.cancelSlot_reach ..) rfl ?_
        first | assumption | exact .refl
      refine Reach.fstMk ?_
      first | assumption | exact .refl
    · first | assumption | exact .refl
  · refine Reach.fstMk ?_
    first | assumption | exact .refl

theorem State.spillSlot_reach (s : State) (n : Nat) (k : Nat) : Reach [.seqs] s (State.spillSlot s n k) := by
  unfold State.spillSlot
  refine Reach.ite ?_ ?_
  · refine Reach.step (State.wakeSlot_reach ..) rfl ?_
    refine Reach.step (State.freeSlot_reach ..) rfl ?_
    first | assumption | exact .refl
  · first | assumption | exact .refl

theorem State.spillSlots_reach (s : State) (n : Nat) : Reach [.seqs] s (State.spillSlots s n) := by
  unfold State.spillSlots
  refine Reach.foldl _ _ (fun u1 y1 hu1 => ?_) ?_
  · refine Reach.step (State.spillSlot_reach ..) rfl ?_
    first | assumption | exact .refl
  · first | assumption | exact .refl

theorem State.dropRefs_reach (s : State) (c : Nat) : Reach [.seqs] s (State.dropRefs s c) := by
  unfold State.dropRefs
  refine Reach.foldl _ _ (fun u1 y1 hu1 => ?_) ?_
  · refine Reach.foldl _ _ (fun u2 y2 hu2 => ?_) ?_
    · refine Reach.step (State.freeSlot_reach ..) rfl ?_
      first | assumption | exact .refl
    · first | assumption | exact .refl
  · first | assumption | exact .refl

abbrev State.ownerWrite_parts : List Part :=
  [.mspi, .regs, .seqs, .chans]
theorem State.ownerWrite_reach (s : State) (src : Nat) (off : Nat) (be : Nat) (c : Nat) (v : Nat) : Reach State.ownerWrite_parts s (State.ownerWrite s src off be c v) := by
  unfold State.ownerWrite
  refine Reach.ite ?_ ?_
  · refine Reach.step (State.accessErr_reach ..) rfl ?_
    first | assumption | exact .refl
  · refine Reach.ite ?_ ?_
    · refine Reach.step (State.accessErr_reach ..) rfl ?_
      first | assumption | exact .refl
    · extract_lets -underBinder -merge +onlyGivenNames x1 s2 s3 s4
      have hs2 : Reach State.ownerWrite_parts s s2 := by
        unfold s2
        refine Reach.step (State.dropRefs_reach ..) rfl ?_
        first | assumption | exact .refl
      have hs3 : Reach State.ownerWrite_parts s s3 := by
        unfold s3
        refine Reach.ite ?_ ?_
        · refine Reach.step (State.raise_reach ..) rfl ?_
          first | assumption | exact .refl
        · first | assumption | exact .refl
      have hs4 : Reach State.ownerWrite_parts s s4 := by
        unfold s4
        refine Reach.ite ?_ ?_
        · first | assumption | exact .refl
        · refine Reach.step (State.clearChan_reach ..) rfl ?_
          first | assumption | exact .refl
      refine Reach.step (State.redriveChan_reach ..) rfl ?_
      refine Reach.step (State.setFld_reach ..) rfl ?_
      refine Reach.step (State.setFld_reach ..) rfl ?_
      first | assumption | exact .refl

abbrev State.endChannel_parts : List Part :=
  [.seqs, .chans, .regs]
theorem State.endChannel_reach (s : State) (cut : Bool) (c : Nat) : Reach State.endChannel_parts s (State.endChannel s cut c) := by
  unfold State.endChannel
  refine Reach.ite ?_ ?_
  · first | assumption | exact .refl
  · extract_lets -underBinder -merge +onlyGivenNames x1
    split
    · extract_lets -underBinder -merge +onlyGivenNames x2 s3
      have hs3 : Reach State.endChannel_parts s s3 := by
        unfold s3
        refine Reach.step (State.setSlot_reach ..) rfl ?_
        first | assumption | exact .refl
      refine Reach.step (State.modChan_reach ..) rfl ?_
      refine Reach.step (State.raise_reach ..) rfl ?_
      first | assumption | exact .refl
    · extract_lets -underBinder -merge +onlyGivenNames s4
      have hs4 : Reach State.endChannel_parts s s4 := by
        unfold s4
        refine Reach.ite ?_ ?_
        · refine Reach.foldl _ _ (fun u5 y5 hu5 => ?_) ?_
          · refine Reach.foldl _ _ (fun u6 y6 hu6 => ?_) ?_
            · refine Reach.step (State.setSlot_reach ..) rfl ?_
              first | assumption | exact .refl
            · first | assumption | exact .refl
          · first | assumption | exact .refl
        · first | assumption | exact .refl
      refine Reach.step (State.clearChan_reach ..) rfl ?_
      first | assumption | exact .refl

abbrev State.spill_parts : List Part :=
  [.regs, .logNew, .seqs, .chans, .hold3, .hold2]
theorem State.spill_reach (s : State) (path : Nat) (d : Nat) (act : Nat) : Reach State.spill_parts s (State.spill s path d act) := by
  unfold State.spill
  extract_lets -underBinder -merge +onlyGivenNames s1 s2 s3 s4 x5 x6 s7 s8
  have hs1 : Reach State.spill_parts s s1 := by
    unfold s1
    refine Reach.step (State.setFld_reach ..) rfl ?_
    first | assumption | exact .refl
  have hs2 : Reach State.spill_parts s s2 := by
    unfold s2
    refine Reach.step (State.setFld_reach ..) rfl ?_
    first | assumption | exact .refl
  have hs3 : Reach State.spill_parts s s3 := by
    unfold s3
    refine Reach.step (State.raise_reach ..) rfl ?_
    refine Reach.step (State.bump_reach ..) rfl ?_
    first | assumption | exact .refl
  have hs4 : Reach State.spill_parts s s4 := by
    unfold s4
    refine Reach.step (State.log_reach ..) rfl ?_
    first | assumption | exact .refl
  have hs7 : Reach State.spill_parts s s7 := by
    unfold s7
    refine Reach.foldl _ _ (fun u9 y9 hu9 => ?_) ?_
    · refine Reach.step (State.endChannel_reach ..) rfl ?_
      first | assumption | exact .refl
    · first | assumption | exact .refl
  have hs8 : Reach State.spill_parts s s8 := by
    unfold s8
    refine Reach.foldl _ _ (fun u10 y10 hu10 => ?_) ?_
    · refine Reach.step (State.spillSlots_reach ..) rfl ?_
      first | assumption | exact .refl
    · first | assumption | exact .refl
  refine Reach.step (State.redrive_reach ..) rfl ?_
  refine Reach.ite ?_ ?_
  · refine Reach.step (State.orFld_reach ..) rfl ?_
    first | assumption | exact .refl
  · refine Reach.ite ?_ ?_
    · refine Reach.write ?_ (by decide) (.hold3 _)
      first | assumption | exact .refl
    · refine Reach.write ?_ (by decide) (.hold2 _)
      first | assumption | exact .refl

abbrev State.capExpiry_parts : List Part :=
  [.seqs, .chans, .regs]
theorem State.capExpiry_reach (s : State) (c : Nat) : Reach State.capExpiry_parts s (State.capExpiry s c) := by
  unfold State.capExpiry
  split
  · refine Reach.ite ?_ ?_
    · extract_lets -underBinder -merge +onlyGivenNames s1
      have hs1 : Reach State.capExpiry_parts s s1 := by
        unfold s1
        split
        · refine Reach.foldl _ _ (fun u2 y2 hu2 => ?_) ?_
          · refine Reach.ite ?_ ?_
            · refine Reach.step (State.freePulse_reach ..) rfl ?_
              first | assumption | exact .refl
            · first | assumption | exact .refl
          · first | assumption | exact .refl
        · first | assumption | exact .refl
      refine Reach.step (State.clearChan_reach ..) rfl ?_
      first | assumption | exact .refl
    · first | assumption | exact .refl
  · first | assumption | exact .refl

abbrev State.latchRefs_parts : List Part :=
  [.seqs, .svcs]
theorem State.latchRefs_reach (s : State) (d : Nat) : Reach State.latchRefs_parts s (State.latchRefs s d) := by
  unfold State.latchRefs
  split
  · first | assumption | exact .refl
  · extract_lets -underBinder -merge +onlyGivenNames s1
    have hs1 : Reach State.latchRefs_parts s s1 := by
      unfold s1
      refine Reach.foldl _ _ (fun u2 y2 hu2 => ?_) ?_
      · refine Reach.ite ?_ ?_
        · refine Reach.foldl _ _ (fun u3 y3 hu3 => ?_) ?_
          · extract_lets -underBinder -merge +onlyGivenNames x4
            refine Reach.ite ?_ ?_
            · refine Reach.step (State.setSlot_reach ..) rfl ?_
              first | assumption | exact .refl
            · first | assumption | exact .refl
          · first | assumption | exact .refl
        · first | assumption | exact .refl
      · first | assumption | exact .refl
    refine Reach.foldl _ _ (fun u5 y5 hu5 => ?_) ?_
    · refine Reach.ite ?_ ?_
      · refine Reach.step (State.setSvc_reach ..) rfl ?_
        first | assumption | exact .refl
      · first | assumption | exact .refl
    · first | assumption | exact .refl

theorem State.rebound_reach (s : State) (n : Nat) : Reach [.seqs] s (State.rebound s n) := by
  unfold State.rebound
  refine Reach.foldl _ _ (fun u y hu => ?_) ?_
  · extract_lets -underBinder -merge +onlyGivenNames x
    refine Reach.ite ?_ ?_
    · refine Reach.step (State.setSlot_reach ..) rfl ?_
      first | assumption | exact .refl
    · first | assumption | exact .refl
  · first | assumption | exact .refl

theorem State.svcArm_reach (s : State) (k : Nat) : Reach [.svcs] s (State.svcArm s k) := by
  unfold State.svcArm
  refine Reach.step (State.setSvc_reach ..) rfl ?_
  first | assumption | exact .refl

theorem State.svcHalf_reach (s : State) (k : Nat) : Reach [.svcs] s (State.svcHalf s k) := by
  unfold State.svcHalf
  extract_lets -underBinder -merge +onlyGivenNames x1 x2
  split
  · first | assumption | exact .refl
  · extract_lets -underBinder -merge +onlyGivenNames x3 x4 x5 x6
    split
    · refine Reach.step (State.setSvc_reach ..) rfl ?_
      first | assumption | exact .refl
    · first | assumption | exact .refl

theorem State.svcHalves_reach (s : State) (d : Nat) : Reach [.svcs] s (State.svcHalves s d) := by
  unfold State.svcHalves
  refine Reach.foldl _ _ (fun u1 y1 hu1 => ?_) ?_
  · refine Reach.ite ?_ ?_
    · refine Reach.step (State.svcHalf_reach ..) rfl ?_
      first | assumption | exact .refl
    · first | assumption | exact .refl
  · first | assumption | exact .refl

abbrev State.svcAct_parts : List Part :=
  [.regs, .basins]
theorem State.svcAct_reach (s : State) (k : Nat) (t : Nat) : Reach State.svcAct_parts s (State.svcAct s k t) := by
  unfold State.svcAct
  extract_lets -underBinder -merge +onlyGivenNames x1 s2
  have hs2 : Reach State.svcAct_parts s s2 := by
    unfold s2
    refine Reach.step (State.setFld_reach ..) rfl ?_
    first | assumption | exact .refl
  split
  · refine Reach.step (State.basAction_reach ..) rfl ?_
    first | assumption | exact .refl
  · refine Reach.step (State.basAction_reach ..) rfl ?_
    first | assumption | exact .refl
  · refine Reach.step (State.orFld_reach ..) rfl ?_
    first | assumption | exact .refl
  · refine Reach.step (State.basAction_reach ..) rfl ?_
    first | assumption | exact .refl

abbrev State.svcFire_parts : List Part :=
  [.svcs, .regs, .basins]
theorem State.svcFire_reach (s : State) (k : Nat) (t : Nat) : Reach State.svcFire_parts s (State.svcFire s k t) := by
  unfold State.svcFire
  extract_lets -underBinder -merge +onlyGivenNames s1
  have hs1 : Reach State.svcFire_parts s s1 := by
    unfold s1
    refine Reach.step (State.svcHalf_reach ..) rfl ?_
    first | assumption | exact .refl
  refine Reach.ite ?_ ?_
  · extract_lets -underBinder -merge +onlyGivenNames x2 x3
    refine Reach.step (State.svcAct_reach ..) rfl ?_
    refine Reach.step (State.setSvc_reach ..) rfl ?_
    first | assumption | exact .refl
  · first | assumption | exact .refl

theorem State.svcRearm_reach (s : State) (k : Nat) (was : Bool) (fresh : Bool) : Reach [.svcs] s (State.svcRearm s k was fresh) := by
  unfold State.svcRearm
  extract_lets -underBinder -merge +onlyGivenNames x1
  refine Reach.ite ?_ ?_
  · refine Reach.step (State.setSvc_reach ..) rfl ?_
    first | assumption | exact .refl
  · refine Reach.ite ?_ ?_
    · refine Reach.step (State.svcArm_reach ..) rfl ?_
      first | assumption | exact .refl
    · first | assumption | exact .refl

abbrev State.fireStep_parts : List Part :=
  [.regs, .basins, .seqs, .chans, .svcs]
theorem State.fireStep_reach (s : State) (d : Nat) (t : Nat) : Reach State.fireStep_parts s (State.fireStep s d t) := by
  unfold State.fireStep
  extract_lets -underBinder -merge +onlyGivenNames s1
  have hs1 : Reach State.fireStep_parts s s1 := by
    unfold s1
    refine Reach.foldl _ _ (fun u2 y2 hu2 => ?_) ?_
    · refine Reach.ite ?_ ?_
      · refine Reach.step (State.fireAngles_reach ..) rfl ?_
        first | assumption | exact .refl
      · first | assumption | exact .refl
    · first | assumption | exact .refl
  refine Reach.foldl _ _ (fun u3 y3 hu3 => ?_) ?_
  · refine Reach.ite ?_ ?_
    · refine Reach.step (State.svcFire_reach ..) rfl ?_
      first | assumption | exact .refl
    · first | assumption | exact .refl
  · first | assumption | exact .refl

theorem State.slotFire_reach (s : State) (n : Nat) (k : Nat) : Reach [.regs, .basins, .seqs, .chans, .svcs] s (State.slotFire s n k) := by
  unfold State.slotFire
  extract_lets -underBinder -merge +onlyGivenNames x1 x2
  refine Reach.ite ?_ ?_
  · refine Reach.step (State.fireStep_reach ..) rfl ?_
    first | assumption | exact .refl
  · refine Reach.step (State.fireSlot_reach ..) rfl ?_
    first | assumption | exact .refl

theorem State.svcFireNow_reach (s : State) (k : Nat) : Reach [.regs, .basins, .seqs, .chans, .svcs] s (State.svcFireNow s k) := by
  unfold State.svcFireNow
  extract_lets -underBinder -merge +onlyGivenNames x1 x2
  refine Reach.ite ?_ ?_
  · refine Reach.step (State.fireStep_reach ..) rfl ?_
    first | assumption | exact .refl
  · refine Reach.step (State.svcFire_reach ..) rfl ?_
    first | assumption | exact .refl

end Sys2Proof.Machine
end

