-- ==== Sys2Proof/Laws/ReachModes.lean ====
section
/-! SUPPORT. One lemma per operation: what tasks, edges, the link, modes, digests and the decoder write. -/

namespace Sys2Proof.Machine

/-! ### SeqOps.lean -/

theorem State.setX_reach (s : State) (n k v : Nat) : Reach [.seqs] s (s.setX n k v) := by
  unfold State.setX
  split
  · exact .refl
  · rename_i hk
    exact State.modSeq_reach _ _ _ fun q h => Seq.ok_setX h hk (Nat.mod_lt _ (Nat.two_pow_pos 32))

theorem State.countRun_reach (s : State) (n : Nat) : Reach [.seqs, .regs] s (State.countRun s n) := by
  unfold State.countRun
  refine Reach.ite ?_ ?_
  · refine Reach.step (State.modSeq_reach _ _ _ (fun q h => ?_)) rfl ?_
    · first | exact h | (simp_all [Seq.ok, Tab.rising, Tab.every]; done)
    · refine Reach.step (State.bumpBy_reach ..) rfl ?_
      refine Reach.step (State.bumpBy_reach ..) rfl ?_
      first | assumption | exact .refl
  · first | assumption | exact .refl

abbrev State.passTo_parts : List Part :=
  [.tnow, .wsNs]
theorem State.passTo_reach (s : State) (c : Nat) : Reach State.passTo_parts s (State.passTo s c) := by
  unfold State.passTo
  refine Reach.ite ?_ ?_
  · have w10 : Reach State.passTo_parts s (s) := by
      first | assumption | exact .refl
    have w11 := Reach.write w10 (p := .tnow) (by decide) (.tnow (2 * c % 2 ^ 64) fun _ => Nat.mod_lt _ (Nat.two_pow_pos 64))
    exact .write w11 (by decide) (.wsNs _)
  · first | assumption | exact .refl

abbrev State.endTask_parts : List Part :=
  [.regs]
theorem State.endTask_reach (s : State) (n : Nat) (c : Nat) : Reach State.endTask_parts s (State.endTask s n c) := by
  unfold State.endTask
  refine Reach.ite ?_ ?_
  · extract_lets -underBinder -merge +onlyGivenNames x1 s2
    have hs2 : Reach State.endTask_parts s s2 := by
      unfold s2
      refine Reach.step (State.setFld_reach ..) rfl ?_
      first | assumption | exact .refl
    refine Reach.step (State.putFlag_reach ..) rfl ?_
    first | assumption | exact .refl
  · first | assumption | exact .refl

theorem State.beginTask_reach (s : State) (n : Nat) (c : Nat) : Reach [.seqs, .regs] s (State.beginTask s n c) := by
  unfold State.beginTask
  refine Reach.step (State.modSeq_reach _ _ _ (fun q h => ?_)) rfl ?_
  · first | exact h | (simp_all [Seq.ok, Tab.rising, Tab.every]; done)
  · refine Reach.step (State.putFlag_reach ..) rfl ?_
    refine Reach.step (State.raise_reach ..) rfl ?_
    first | assumption | exact .refl

theorem Seq.ok_ready {q : Seq} {rd c : Nat} (h : q.ok = true) :
    ({ q with ready := if rd = 0 then q.ready else Tab.set 0 q.ready rd c } : Seq).ok = true := by
  rw [Seq.ok_iff] at *
  refine ⟨h.1, h.2.1, h.2.2.1, ?_⟩
  dsimp only
  split
  · exact h.2.2.2
  · exact Tab.rising_set _ _ _ h.2.2.2

theorem State.completeWaite_reach (s : State) (n : Nat) (rd : Nat) (value : Nat) (c : Nat) (tooth : Option Nat) (flags : Nat) : Reach [.seqs] s (State.completeWaite s n rd value c tooth flags) := by
  unfold State.completeWaite
  extract_lets -underBinder -merge +onlyGivenNames x1
  exact Reach.step (State.modSeq_reach _ _ _ fun q h => Seq.ok_ready h) rfl (Reach.step (State.setX_reach ..) rfl .refl)

theorem State.holdTooth_reach (s : State) (n : Nat) (word : Nat) : Reach [.seqs, .regs] s (State.holdTooth s n word) := by
  unfold State.holdTooth
  refine Reach.ite ?_ ?_
  · first | assumption | exact .refl
  · refine Reach.step (State.modSeq_reach _ _ _ (fun q h => ?_)) rfl ?_
    · first | exact h | (simp_all [Seq.ok, Tab.rising, Tab.every]; done)
    · refine Reach.step (State.setFld_reach ..) rfl ?_
      refine Reach.step (State.raise_reach ..) rfl ?_
      first | assumption | exact .refl

theorem State.toggleBank_reach (s : State) (n : Nat) : Reach [.seqs, .regs] s (State.toggleBank s n) := by
  unfold State.toggleBank
  refine Reach.step (State.modSeq_reach _ _ _ (fun q h => ?_)) rfl ?_
  · first | exact h | (simp_all [Seq.ok, Tab.rising, Tab.every]; done)
  · refine Reach.step (State.putFlag_reach ..) rfl ?_
    first | assumption | exact .refl

theorem State.swapStopped_reach (s : State) (n : Nat) : Reach [.seqs, .regs] s (State.swapStopped s n) := by
  unfold State.swapStopped
  refine Reach.ite ?_ ?_
  · refine Reach.step (State.toggleBank_reach ..) rfl ?_
    first | assumption | exact .refl
  · first | assumption | exact .refl

abbrev State.swapRunning_parts : List Part :=
  [.seqs, .regs]
theorem State.swapRunning_reach (s : State) (n : Nat) : Reach State.swapRunning_parts s (State.swapRunning s n) := by
  unfold State.swapRunning
  extract_lets -underBinder -merge +onlyGivenNames x1 s2 s3 s4
  have hs2 : Reach State.swapRunning_parts s s2 := by
    unfold s2
    refine Reach.step (State.countRun_reach ..) rfl ?_
    first | assumption | exact .refl
  have hs3 : Reach State.swapRunning_parts s s3 := by
    unfold s3
    split
    · extract_lets -underBinder -merge +onlyGivenNames s5
      have hs5 : Reach State.swapRunning_parts s s5 := by
        unfold s5
        refine Reach.step (State.orFld_reach ..) rfl ?_
        refine Reach.step (State.setX_reach ..) rfl ?_
        first | assumption | exact .refl
      split
      · refine Reach.step (State.holdTooth_reach ..) rfl ?_
        first | assumption | exact .refl
      · first | assumption | exact .refl
    · refine Reach.ite ?_ ?_
      · refine Reach.step (State.holdTooth_reach ..) rfl ?_
        first | assumption | exact .refl
      · first | assumption | exact .refl
  have hs4 : Reach State.swapRunning_parts s s4 := by
    unfold s4
    refine Reach.step (State.toggleBank_reach ..) rfl ?_
    refine Reach.step (State.endTask_reach ..) rfl ?_
    first | assumption | exact .refl
  refine Reach.step (State.modSeq_reach _ _ _ (fun q h => ?_)) rfl ?_
  · first | exact h | (simp_all [Seq.ok, Tab.rising, Tab.every]; done)
  · first | assumption | exact .refl

theorem State.swapSettle_reach (s : State) (n : Nat) : Reach [.seqs, .regs] s (State.swapSettle s n) := by
  unfold State.swapSettle
  refine Reach.ite ?_ ?_
  · refine Reach.step (State.swapRunning_reach ..) rfl ?_
    first | assumption | exact .refl
  · first | assumption | exact .refl


/-! ### Edges.lean -/

theorem State.modInput_reach (s : State) (d : Nat) (phase : Bool) (f : InputRec → InputRec) : Reach [.doms] s (State.modInput s d phase f) := by
  unfold State.modInput
  refine Reach.step (State.modDom_reach ..) rfl ?_
  first | assumption | exact .refl

theorem State.filterReturn_reach (s : State) (d : Nat) (phase : Bool) (stamp : Nat) (hits : Edge → Bool) : Reach [.doms, .regs] s (State.filterReturn s d phase stamp hits) := by
  unfold State.filterReturn
  extract_lets -underBinder -merge +onlyGivenNames x1 x2
  refine Reach.step (State.modInput_reach ..) rfl ?_
  refine Reach.step (State.bumpBy_reach ..) rfl ?_
  first | assumption | exact .refl

abbrev State.crossAt_parts : List Part :=
  [.doms, .regs]
theorem State.crossAt_reach (s : State) (w : Nat) (stamp : Nat) (rising : Bool) (e : Nat × Bool) : Reach State.crossAt_parts s (State.crossAt s w stamp rising e) := by
  unfold State.crossAt
  extract_lets -underBinder -merge +onlyGivenNames s1
  have hs1 : Reach State.crossAt_parts s s1 := by
    unfold s1
    refine Reach.ite ?_ ?_
    · first | assumption | exact .refl
    · refine Reach.step (State.filterReturn_reach ..) rfl ?_
      first | assumption | exact .refl
  refine Reach.ite ?_ ?_
  · refine Reach.step (State.modInput_reach ..) rfl ?_
    first | assumption | exact .refl
  · first | assumption | exact .refl

abbrev State.wfeCross_parts : List Part :=
  [.regs, .doms]
theorem State.wfeCross_reach (s : State) (w : Nat) (stamp : Nat) (rising : Bool) : Reach State.wfeCross_parts s (State.wfeCross s w stamp rising) := by
  unfold State.wfeCross
  extract_lets -underBinder -merge +onlyGivenNames x1
  refine Reach.ite ?_ ?_
  · first | assumption | exact .refl
  · extract_lets -underBinder -merge +onlyGivenNames s2 s3
    have hs2 : Reach State.wfeCross_parts s s2 := by
      unfold s2
      refine Reach.ite ?_ ?_
      · refine Reach.step (State.putFlag_reach ..) rfl ?_
        first | assumption | exact .refl
      · first | assumption | exact .refl
    have hs3 : Reach State.wfeCross_parts s s3 := by
      unfold s3
      refine Reach.step (State.bump_reach ..) rfl ?_
      refine Reach.step (State.setFld_reach ..) rfl ?_
      first | assumption | exact .refl
    refine Reach.foldl _ _ (fun u4 y4 hu4 => ?_) ?_
    · refine Reach.step (State.crossAt_reach ..) rfl ?_
      first | assumption | exact .refl
    · first | assumption | exact .refl

abbrev State.detectorArm_parts : List Part :=
  [.armAt, .regs, .doms]
theorem State.detectorArm_reach (s : State) (w : Nat) (peak : Nat) : Reach State.detectorArm_parts s (State.detectorArm s w peak) := by
  unfold State.detectorArm
  refine Reach.ite ?_ ?_
  · extract_lets -underBinder -merge +onlyGivenNames s1 s2
    have hs1 : Reach State.detectorArm_parts s s1 := by
      unfold s1
      refine Reach.write ?_ (by decide) (.armAt _ (by first | exact fun h => Tab.rising_put _ _ h | exact fun h => h))
      first | assumption | exact .refl
    have hs2 : Reach State.detectorArm_parts s s2 := by
      unfold s2
      refine Reach.step (State.setFld_reach ..) rfl ?_
      refine Reach.step (State.raise_reach ..) rfl ?_
      first | assumption | exact .refl
    refine Reach.foldl _ _ (fun u3 y3 hu3 => ?_) ?_
    · refine Reach.step (State.filterReturn_reach ..) rfl ?_
      first | assumption | exact .refl
    · first | assumption | exact .refl
  · first | assumption | exact .refl

theorem State.peakDecay_reach (s : State) (w : Nat) : Reach [.regs] s (State.peakDecay s w) := by
  unfold State.peakDecay
  refine Reach.ite ?_ ?_
  · refine Reach.step (State.setFld_reach ..) rfl ?_
    first | assumption | exact .refl
  · first | assumption | exact .refl

theorem State.acceptEdge_reach (s : State) (d : Nat) (phase : Bool) (e : Edge) : Reach [.regs, .doms] s (State.acceptEdge s d phase e) := by
  unfold State.acceptEdge
  extract_lets -underBinder -merge +onlyGivenNames x1 x2 x3
  refine Reach.ite ?_ ?_
  · refine Reach.step (State.bump_reach ..) rfl ?_
    first | assumption | exact .refl
  · extract_lets -underBinder -merge +onlyGivenNames x4
    refine Reach.step (State.modInput_reach ..) rfl ?_
    first | assumption | exact .refl

theorem State.edgeAccept_reach (s : State) (d : Nat) (phase : Bool) : Reach [.regs, .doms] s (State.edgeAccept s d phase) := by
  unfold State.edgeAccept
  split
  · first | assumption | exact .refl
  · refine Reach.ite ?_ ?_
    · refine Reach.step (State.acceptEdge_reach ..) rfl ?_
      refine Reach.step (State.modInput_reach ..) rfl ?_
      first | assumption | exact .refl
    · first | assumption | exact .refl

abbrev State.takeKept_parts : List Part :=
  [.power, .regs, .doms]
theorem State.takeKept_reach (s : State) : Reach State.takeKept_parts s (State.takeKept s) := by
  unfold State.takeKept
  extract_lets -underBinder -merge +onlyGivenNames x1 x2 x3 s4
  have hs4 : Reach State.takeKept_parts s s4 := by
    unfold s4
    refine Reach.write ?_ (by decide) (.power _)
    first | assumption | exact .refl
  refine Reach.foldl _ _ (fun u5 y5 hu5 => ?_) ?_
  · refine Reach.step (State.acceptEdge_reach ..) rfl ?_
    first | assumption | exact .refl
  · first | assumption | exact .refl


/-! ### Link.lean -/

theorem State.pairEvt_reach (s : State) (b : Nat) : Reach [.regs] s (State.pairEvt s b) := by
  unfold State.pairEvt
  refine Reach.step (State.orFld_reach ..) rfl ?_
  first | assumption | exact .refl

theorem State.modPair_reach (s : State) (f : Pair → Pair) : Reach [.pair] s (State.modPair s f) := by
  unfold State.modPair
  refine Reach.write ?_ (by decide) (.pair _)
  first | assumption | exact .refl

theorem State.sendFrame_reach (s : State) (f : Frame) : Reach [.pair] s (State.sendFrame s f) := by
  unfold State.sendFrame
  refine Reach.step (State.modPair_reach ..) rfl ?_
  first | assumption | exact .refl

abbrev State.sendReliable_parts : List Part :=
  [.pair]
theorem State.sendReliable_reach (s : State) (mk : Nat → Frame) : Reach State.sendReliable_parts s (State.sendReliable s mk) := by
  unfold State.sendReliable
  refine Reach.ite ?_ ?_
  · extract_lets -underBinder -merge +onlyGivenNames x1 s2
    have hs2 : Reach State.sendReliable_parts s s2 := by
      unfold s2
      refine Reach.ite ?_ ?_
      · refine Reach.step (State.sendFrame_reach ..) rfl ?_
        first | assumption | exact .refl
      · first | assumption | exact .refl
    refine Reach.step (State.modPair_reach ..) rfl ?_
    first | assumption | exact .refl
  · first | assumption | exact .refl

theorem State.hoAbort_reach (s : State) : Reach [.pair, .regs] s (State.hoAbort s) := by
  unfold State.hoAbort
  refine Reach.ite ?_ ?_
  · refine Reach.step (State.sendReliable_reach ..) rfl ?_
    refine Reach.step (State.pairEvt_reach ..) rfl ?_
    refine Reach.step (State.modPair_reach ..) rfl ?_
    first | assumption | exact .refl
  · first | assumption | exact .refl

abbrev State.learnDrop_parts : List Part :=
  [.regs, .doms]
theorem State.learnDrop_reach (s : State) (d : Nat) : Reach State.learnDrop_parts s (State.learnDrop s d) := by
  unfold State.learnDrop
  extract_lets -underBinder -merge +onlyGivenNames s1
  have hs1 : Reach State.learnDrop_parts s s1 := by
    unfold s1
    refine Reach.step (State.setFld_reach ..) rfl ?_
    refine Reach.step (State.setFld_reach ..) rfl ?_
    first | assumption | exact .refl
  refine Reach.step (State.modDom_reach ..) rfl ?_
  first | assumption | exact .refl

abbrev State.track_parts : List Part :=
  [.doms, .regs]
theorem State.track_reach (s : State) (d : Nat) (t : Nat) : Reach State.track_parts s (State.track s d t).1 := by
  unfold State.track
  extract_lets -underBinder -merge +onlyGivenNames x1
  split
  · refine Reach.fstMk ?_
    refine Reach.step (State.modDom_reach ..) rfl ?_
    first | assumption | exact .refl
  · extract_lets -underBinder -merge +onlyGivenNames x2 x3 s4
    have hs4 : Reach State.track_parts s s4 := by
      unfold s4
      refine Reach.step (State.modDom_reach ..) rfl ?_
      first | assumption | exact .refl
    split
    · extract_lets -underBinder -merge +onlyGivenNames x5
      split
      · refine Reach.fstMk ?_
        refine Reach.step (State.setFld_reach ..) rfl ?_
        refine Reach.step (State.modDom_reach ..) rfl ?_
        first | assumption | exact .refl
      · refine Reach.fstMk ?_
        refine Reach.step (State.putFlag_reach ..) rfl ?_
        refine Reach.step (State.modDom_reach ..) rfl ?_
        first | assumption | exact .refl
    · split
      · refine Reach.fstMk ?_
        refine Reach.step (State.raise_reach ..) rfl ?_
        refine Reach.step (State.setFld_reach ..) rfl ?_
        refine Reach.step (State.modDom_reach ..) rfl ?_
        first | assumption | exact .refl
      · refine Reach.fstMk ?_
        first | assumption | exact .refl

theorem State.trackEdge_reach (s : State) (d : Nat) (e : Edge) : Reach [.doms, .regs] s (State.trackEdge s d e).1 := by
  unfold State.trackEdge
  split
  · refine Reach.step (State.track_reach ..) rfl ?_
    first | assumption | exact .refl
  · refine Reach.fstMk ?_
    first | assumption | exact .refl

abbrev State.enterPhaseOnly_parts : List Part :=
  [.doms]
theorem State.enterPhaseOnly_reach (s : State) (d : Nat) : Reach State.enterPhaseOnly_parts s (State.enterPhaseOnly s d) := by
  unfold State.enterPhaseOnly
  extract_lets -underBinder -merge +onlyGivenNames x1 x2 x3 x4 s5
  have hs5 : Reach State.enterPhaseOnly_parts s s5 := by
    unfold s5
    refine Reach.step (State.newSeg_reach ..) rfl ?_
    first | assumption | exact .refl
  refine Reach.step (State.modDom_reach ..) rfl ?_
  first | assumption | exact .refl

abbrev State.loss_parts : List Part :=
  [.svcs, .regs, .logNew, .doms, .pair, .seqs, .chans, .hold3, .hold2, .basins]
theorem State.loss_reach (s : State) (d : Nat) (cause : Nat) (act : Nat) : Reach State.loss_parts s (State.loss s d cause act) := by
  unfold State.loss
  extract_lets -underBinder -merge +onlyGivenNames x1 s2 s3 s4 s5 s6 s7 s8 s9 s10
  have hs2 : Reach State.loss_parts s s2 := by
    unfold s2
    refine Reach.step (State.svcHalves_reach ..) rfl ?_
    first | assumption | exact .refl
  have hs3 : Reach State.loss_parts s s3 := by
    unfold s3
    refine Reach.step (State.bump_reach ..) rfl ?_
    refine Reach.step (State.setFld_reach ..) rfl ?_
    first | assumption | exact .refl
  have hs4 : Reach State.loss_parts s s4 := by
    unfold s4
    split
    · refine Reach.step (State.raise_reach ..) rfl ?_
      first | assumption | exact .refl
    · first | assumption | exact .refl
  have hs5 : Reach State.loss_parts s s5 := by
    unfold s5
    refine Reach.step (State.log_reach ..) rfl ?_
    first | assumption | exact .refl
  have hs6 : Reach State.loss_parts s s6 := by
    unfold s6
    refine Reach.step (State.putFlag_reach ..) rfl ?_
    refine Reach.step (State.setFld_reach ..) rfl ?_
    first | assumption | exact .refl
  have hs7 : Reach State.loss_parts s s7 := by
    unfold s7
    refine Reach.step (State.modDom_reach ..) rfl ?_
    first | assumption | exact .refl
  have hs8 : Reach State.loss_parts s s8 := by
    unfold s8
    refine Reach.ite ?_ ?_
    · refine Reach.foldl _ _ (fun u11 y11 hu11 => ?_) ?_
      · refine Reach.step (State.modDom_reach ..) rfl ?_
        first | assumption | exact .refl
      · first | assumption | exact .refl
    · first | assumption | exact .refl
  have hs9 : Reach State.loss_parts s s9 := by
    unfold s9
    refine Reach.ite ?_ ?_
    · refine Reach.step (State.modPair_reach ..) rfl ?_
      first | assumption | exact .refl
    · first | assumption | exact .refl
  have hs10 : Reach State.loss_parts s s10 := by
    unfold s10
    refine Reach.ite ?_ ?_
    · refine Reach.step (State.enterPhaseOnly_reach ..) rfl ?_
      first | assumption | exact .refl
    · refine Reach.step (State.dropAngle_reach ..) rfl ?_
      first | assumption | exact .refl
  refine Reach.step (State.spill_reach ..) rfl ?_
  refine Reach.step (State.basLoss_reach ..) rfl ?_
  refine Reach.step (State.learnDrop_reach ..) rfl ?_
  first | assumption | exact .refl

abbrev State.seekReturn_parts : List Part :=
  [.regs, .doms]
theorem State.seekReturn_reach (s : State) (d : Nat) : Reach State.seekReturn_parts s (State.seekReturn s d) := by
  unfold State.seekReturn
  extract_lets -underBinder -merge +onlyGivenNames s1
  have hs1 : Reach State.seekReturn_parts s s1 := by
    unfold s1
    refine Reach.step (State.putFlag_reach ..) rfl ?_
    refine Reach.step (State.setFld_reach ..) rfl ?_
    first | assumption | exact .refl
  refine Reach.step (State.modDom_reach ..) rfl ?_
  first | assumption | exact .refl


/-! ### Modes.lean -/

theorem State.modeWord_reach (s : State) (n : Nat) : Reach [.mem, .dataIn] s (State.modeWord s n) := by
  unfold State.modeWord
  refine Reach.step (State.setWord_reach ..) rfl ?_
  refine Reach.step (State.noteData_reach ..) rfl ?_
  first | assumption | exact .refl

abbrev State.changeDone_parts : List Part :=
  [.regs, .change]
theorem State.changeDone_reach (s : State) : Reach State.changeDone_parts s (State.changeDone s) := by
  unfold State.changeDone
  refine Reach.ite ?_ ?_
  · extract_lets -underBinder -merge +onlyGivenNames s1
    have hs1 : Reach State.changeDone_parts s s1 := by
      unfold s1
      refine Reach.step (State.raise_reach ..) rfl ?_
      refine Reach.step (State.setFld_reach ..) rfl ?_
      first | assumption | exact .refl
    refine Reach.write ?_ (by decide) (.change _)
    first | assumption | exact .refl
  · first | assumption | exact .refl

abbrev State.applyCode_parts : List Part :=
  [.regs, .seqs, .chans, .mem, .dataIn]
theorem State.applyCode_reach (s : State) (n : Nat) (target : Nat) : Reach State.applyCode_parts s (State.applyCode s n target) := by
  unfold State.applyCode
  extract_lets -underBinder -merge +onlyGivenNames s1 s2 s3 s4 s5
  have hs1 : Reach State.applyCode_parts s s1 := by
    unfold s1
    refine Reach.step (State.setFld_reach ..) rfl ?_
    first | assumption | exact .refl
  have hs2 : Reach State.applyCode_parts s s2 := by
    unfold s2
    refine Reach.step (State.setFld_reach ..) rfl ?_
    first | assumption | exact .refl
  have hs3 : Reach State.applyCode_parts s s3 := by
    unfold s3
    refine Reach.step (State.orFld_reach ..) rfl ?_
    first | assumption | exact .refl
  have hs4 : Reach State.applyCode_parts s s4 := by
    unfold s4
    split
    · refine Reach.step (State.completeWaite_reach ..) rfl ?_
      first | assumption | exact .refl
    · first | assumption | exact .refl
  have hs5 : Reach State.applyCode_parts s s5 := by
    unfold s5
    refine Reach.step (State.redrive_reach ..) rfl ?_
    refine Reach.step (State.modeWord_reach ..) rfl ?_
    first | assumption | exact .refl
  refine Reach.ite ?_ ?_
  · refine Reach.step (State.putFlag_reach ..) rfl ?_
    first | assumption | exact .refl
  · first | assumption | exact .refl

theorem State.modeApply_reach (s : State) (n : Nat) : Reach [.regs, .change, .seqs, .chans, .mem, .dataIn] s (State.modeApply s n) := by
  unfold State.modeApply
  split
  · refine Reach.ite ?_ ?_
    · first | assumption | exact .refl
    · refine Reach.step (State.changeDone_reach ..) rfl ?_
      refine Reach.step (State.applyCode_reach ..) rfl ?_
      first | assumption | exact .refl
  · first | assumption | exact .refl

theorem State.modeSettle_reach (s : State) (n : Nat) : Reach [.regs, .change, .seqs, .chans, .mem, .dataIn] s (State.modeSettle s n) := by
  unfold State.modeSettle
  refine Reach.ite ?_ ?_
  · refine Reach.step (State.modeApply_reach ..) rfl ?_
    first | assumption | exact .refl
  · first | assumption | exact .refl

theorem State.modeSettleDom_reach (s : State) (d : Nat) : Reach [.seqs, .regs, .change, .chans, .mem, .dataIn] s (State.modeSettleDom s d) := by
  unfold State.modeSettleDom
  refine Reach.ite ?_ ?_
  · first | assumption | exact .refl
  · refine Reach.foldl _ _ (fun u1 y1 hu1 => ?_) ?_
    · refine Reach.ite ?_ ?_
      · refine Reach.step (State.swapSettle_reach ..) rfl ?_
        refine Reach.step (State.modeSettle_reach ..) rfl ?_
        first | assumption | exact .refl
      · first | assumption | exact .refl
    · first | assumption | exact .refl

theorem State.modeBoundary_reach (s : State) (d : Nat) : Reach [.regs, .change, .seqs, .chans, .mem, .dataIn] s (State.modeBoundary s d) := by
  unfold State.modeBoundary
  refine Reach.foldl _ _ (fun u1 y1 hu1 => ?_) ?_
  · refine Reach.ite ?_ ?_
    · refine Reach.step (State.modeApply_reach ..) rfl ?_
      first | assumption | exact .refl
    · first | assumption | exact .refl
  · first | assumption | exact .refl

abbrev State.accept_parts : List Part :=
  [.regs, .change, .pair, .seqs, .chans, .mem, .dataIn]
theorem State.accept_reach (s : State) (c : Change) : Reach State.accept_parts s (State.accept s c) := by
  unfold State.accept
  extract_lets -underBinder -merge +onlyGivenNames s1 s2 s3 s4 s5 s6 s7
  have hs1 : Reach State.accept_parts s s1 := by
    unfold s1
    refine Reach.ite ?_ ?_
    · refine Reach.step (State.raise_reach ..) rfl ?_
      first | assumption | exact .refl
    · first | assumption | exact .refl
  have hs2 : Reach State.accept_parts s s2 := by
    unfold s2
    refine Reach.step (State.bump_reach ..) rfl ?_
    first | assumption | exact .refl
  have hs3 : Reach State.accept_parts s s3 := by
    unfold s3
    refine Reach.step (State.setFld_reach ..) rfl ?_
    first | assumption | exact .refl
  have hs4 : Reach State.accept_parts s s4 := by
    unfold s4
    refine Reach.step (State.raise_reach ..) rfl ?_
    refine Reach.step (State.raise_reach ..) rfl ?_
    first | assumption | exact .refl
  have hs5 : Reach State.accept_parts s s5 := by
    unfold s5
    refine Reach.step (State.setFld_reach ..) rfl ?_
    first | assumption | exact .refl
  have hs6 : Reach State.accept_parts s s6 := by
    unfold s6
    refine Reach.write ?_ (by decide) (.change _)
    first | assumption | exact .refl
  have hs7 : Reach State.accept_parts s s7 := by
    unfold s7
    refine Reach.step (State.hoAbort_reach ..) rfl ?_
    refine Reach.foldl _ _ (fun u8 y8 hu8 => ?_) ?_
    · refine Reach.step (State.modeSettle_reach ..) rfl ?_
      first | assumption | exact .refl
    · first | assumption | exact .refl
  refine Reach.ite ?_ ?_
  · extract_lets -underBinder -merge +onlyGivenNames x9
    refine Reach.step (State.sendReliable_reach ..) rfl ?_
    first | assumption | exact .refl
  · first | assumption | exact .refl

theorem State.releaseHold2_reach (s : State) : Reach [.hold2] s (State.releaseHold2 s) := by
  unfold State.releaseHold2
  refine Reach.write ?_ (by decide) (.hold2 _)
  first | assumption | exact .refl

theorem State.releaseCritical_reach (s : State) : Reach [.regs] s (State.releaseCritical s) := by
  unfold State.releaseCritical
  refine Reach.foldl _ _ (fun u1 y1 hu1 => ?_) ?_
  · refine Reach.ite ?_ ?_
    · refine Reach.step (State.clearBits_reach ..) rfl ?_
      first | assumption | exact .refl
    · first | assumption | exact .refl
  · first | assumption | exact .refl

theorem State.standbyDomains_reach (s : State) (act : Nat) : Reach [.seqs, .regs, .change, .chans, .mem, .dataIn, .svcs, .logNew, .doms, .pair, .hold3, .hold2, .basins] s (State.standbyDomains s act) := by
  unfold State.standbyDomains
  refine Reach.foldl _ _ (fun u1 y1 hu1 => ?_) ?_
  · refine Reach.ite ?_ ?_
    · refine Reach.step (State.modeSettleDom_reach ..) rfl ?_
      refine Reach.step (State.loss_reach ..) rfl ?_
      first | assumption | exact .refl
    · refine Reach.ite ?_ ?_
      · refine Reach.step (State.seekReturn_reach ..) rfl ?_
        first | assumption | exact .refl
      · first | assumption | exact .refl
  · first | assumption | exact .refl

abbrev State.enterClearing_parts : List Part :=
  [.regs, .logNew, .seqs, .chans, .hold3, .hold2, .doms, .pwms]
theorem State.enterClearing_reach (s : State) (cause : Nat) (act : Nat) (path : Bool) : Reach State.enterClearing_parts s (State.enterClearing s cause act path) := by
  unfold State.enterClearing
  extract_lets -underBinder -merge +onlyGivenNames s1 s2 s3
  have hs1 : Reach State.enterClearing_parts s s1 := by
    unfold s1
    refine Reach.step (State.setFld_reach ..) rfl ?_
    first | assumption | exact .refl
  have hs2 : Reach State.enterClearing_parts s s2 := by
    unfold s2
    refine Reach.ite ?_ ?_
    · refine Reach.step (State.spill_reach ..) rfl ?_
      first | assumption | exact .refl
    · first | assumption | exact .refl
  have hs3 : Reach State.enterClearing_parts s s3 := by
    unfold s3
    refine Reach.foldl _ _ (fun u4 y4 hu4 => ?_) ?_
    · refine Reach.step (State.modDom_reach ..) rfl ?_
      first | assumption | exact .refl
    · first | assumption | exact .refl
  refine Reach.step (State.pwmClearing_reach ..) rfl ?_
  first | assumption | exact .refl

abbrev State.reachEpoch_parts : List Part :=
  [.regs, .change, .doms, .logNew, .seqs, .chans, .hold3, .hold2, .pwms, .mem, .dataIn, .svcs, .pair, .basins,
   .power]
theorem State.reachEpoch_reach (s : State) (act : Nat) : Reach State.reachEpoch_parts s (State.reachEpoch s act) := by
  unfold State.reachEpoch
  split
  · first | assumption | exact .refl
  · extract_lets -underBinder -merge +onlyGivenNames x1 s2 s3 s4 s5 s6
    have hs2 : Reach State.reachEpoch_parts s s2 := by
      unfold s2
      refine Reach.step (State.setFld_reach ..) rfl ?_
      first | assumption | exact .refl
    have hs3 : Reach State.reachEpoch_parts s s3 := by
      unfold s3
      refine Reach.write ?_ (by decide) (.change _)
      first | assumption | exact .refl
    have hs4 : Reach State.reachEpoch_parts s s4 := by
      unfold s4
      refine Reach.step (State.putFlag_reach ..) rfl ?_
      first | assumption | exact .refl
    have hs5 : Reach State.reachEpoch_parts s s5 := by
      unfold s5
      refine Reach.foldl _ _ (fun u7 y7 hu7 => ?_) ?_
      · refine Reach.step (State.modDom_reach ..) rfl ?_
        first | assumption | exact .refl
      · first | assumption | exact .refl
    have hs6 : Reach State.reachEpoch_parts s s6 := by
      unfold s6
      refine Reach.ite ?_ ?_
      · refine Reach.ite ?_ ?_
        · first | assumption | exact .refl
        · refine Reach.step (State.enterClearing_reach ..) rfl ?_
          first | assumption | exact .refl
      · refine Reach.ite ?_ ?_
        · refine Reach.step (State.standbyDomains_reach ..) rfl ?_
          refine Reach.step (State.spill_reach ..) rfl ?_
          first | assumption | exact .refl
        · refine Reach.ite ?_ ?_
          · refine Reach.ite ?_ ?_
            · refine Reach.step (State.releaseCritical_reach ..) rfl ?_
              refine Reach.step (State.releaseHold2_reach ..) rfl ?_
              first | assumption | exact .refl
            · first | assumption | exact .refl
          · refine Reach.ite ?_ ?_
            · refine Reach.step (State.takeKept_reach ..) rfl ?_
              refine Reach.ite ?_ ?_
              · refine Reach.step (State.releaseHold2_reach ..) rfl ?_
                first | assumption | exact .refl
              · clear_value s4
                have w80 : Reach State.reachEpoch_parts s (s4) := by
                  first | assumption | exact .refl
                have w81 := Reach.write w80 (p := .hold3) (by decide) (.hold3 (false))
                exact .write w81 (by decide) (.hold2 _)
            · first | assumption | exact .refl
    refine Reach.step (State.changeDone_reach ..) rfl ?_
    refine Reach.step (State.redrive_reach ..) rfl ?_
    first | assumption | exact .refl

theorem State.requestClearing_reach (s : State) (cause : Nat) (act : Nat) : Reach [.regs, .change, .doms, .logNew, .seqs, .chans, .hold3, .hold2, .pwms, .mem, .dataIn, .svcs, .pair, .basins, .power] s (State.requestClearing s cause act) := by
  unfold State.requestClearing
  extract_lets -underBinder -merge +onlyGivenNames x1
  refine Reach.ite ?_ ?_
  · refine Reach.step (State.reachEpoch_reach ..) rfl ?_
    refine Reach.step (State.accept_reach ..) rfl ?_
    first | assumption | exact .refl
  · refine Reach.ite ?_ ?_
    · refine Reach.step (State.reachEpoch_reach ..) rfl ?_
      refine Reach.step (State.accept_reach ..) rfl ?_
      first | assumption | exact .refl
    · refine Reach.step (State.log_reach ..) rfl ?_
      first | assumption | exact .refl

theorem State.spillInto_reach (s : State) (path : Nat) (cause : Nat) : Reach [.regs, .change, .doms, .logNew, .seqs, .chans, .hold3, .hold2, .pwms, .mem, .dataIn, .svcs, .pair, .basins, .power] s (State.spillInto s path cause) := by
  unfold State.spillInto
  extract_lets -underBinder -merge +onlyGivenNames x1
  refine Reach.step (State.requestClearing_reach ..) rfl ?_
  refine Reach.step (State.spill_reach ..) rfl ?_
  first | assumption | exact .refl

theorem State.epochLostNote_reach {s t : State} (h : s.epochLostNote = some t) :
    Reach [.regs, .logNew, .change] s t := by
  unfold State.epochLostNote at h
  split at h
  · split at h
    · split at h
      · cases h
      · have h1 : ∀ a b c, Reach [.regs, .logNew, .change] s ((s.raise .MODE_FAULT_EPOCH_LOST).log 7 a b c) := fun _ _ _ =>
          Reach.step (State.log_reach ..) rfl (Reach.step (State.raise_reach ..) rfl .refl)
        dsimp only at h
        split at h
        · exact Option.some.inj h ▸ h1 ..
        · rw [← Option.some.inj h]
          exact .write (Reach.step (State.putFlag_reach ..) rfl (Reach.step (State.putFlag_reach ..) rfl (h1 ..))) (by decide)
            (.change _)
    · cases h
  · cases h

theorem State.epochLost_reach (s : State) : Reach [.regs, .change, .doms, .logNew, .seqs, .chans, .hold3, .hold2, .pwms, .mem, .dataIn, .svcs, .pair, .basins, .power] s (State.epochLost s) := by
  unfold State.epochLost
  split
  · refine Reach.step (State.requestClearing_reach ..) rfl ?_
    refine Reach.step (State.epochLostNote_reach ‹_›) rfl ?_
    first | assumption | exact .refl
  · first | assumption | exact .refl

abbrev State.syncLoss_parts : List Part :=
  [.seqs, .regs, .change, .chans, .mem, .dataIn, .svcs, .logNew, .doms, .pair, .hold3, .hold2, .basins, .pwms,
   .power]
theorem State.syncLoss_reach (s : State) (d : Nat) (cause : Nat) : Reach State.syncLoss_parts s (State.syncLoss s d cause) := by
  unfold State.syncLoss
  extract_lets -underBinder -merge +onlyGivenNames x1 x2 s3
  have hs3 : Reach State.syncLoss_parts s s3 := by
    unfold s3
    refine Reach.step (State.modeSettleDom_reach ..) rfl ?_
    refine Reach.step (State.loss_reach ..) rfl ?_
    first | assumption | exact .refl
  refine Reach.ite ?_ ?_
  · split
    · refine Reach.step (State.requestClearing_reach ..) rfl ?_
      refine Reach.step (State.requestClearing_reach ..) rfl ?_
      refine Reach.step (State.epochLostNote_reach ‹_›) rfl ?_
      first | assumption | exact .refl
    · refine Reach.step (State.requestClearing_reach ..) rfl ?_
      first | assumption | exact .refl
  · refine Reach.step (State.epochLost_reach ..) rfl ?_
    first | assumption | exact .refl

theorem State.refuseMode_reach (s : State) (src : Nat) (target : Nat) (value : Nat) : Reach [.logNew, .regs] s (State.refuseMode s src target value) := by
  unfold State.refuseMode
  refine Reach.step (State.log_reach ..) rfl ?_
  refine Reach.step (State.raise_reach ..) rfl ?_
  first | assumption | exact .refl

theorem State.supOff_reach (s : State) (n : Nat) : Reach [.regs] s (State.supOff s n) := by
  unfold State.supOff
  refine Reach.step (State.clearBits_reach ..) rfl ?_
  refine Reach.step (State.clearBits_reach ..) rfl ?_
  refine Reach.step (State.clearBits_reach ..) rfl ?_
  first | assumption | exact .refl

abbrev State.acceptDormant_parts : List Part :=
  [.regs, .change, .pair, .seqs, .chans, .mem, .dataIn, .auxOff, .gio, .power]
theorem State.acceptDormant_reach (s : State) : Reach State.acceptDormant_parts s (State.acceptDormant s) := by
  unfold State.acceptDormant
  extract_lets -underBinder -merge +onlyGivenNames s1 x2 s3
  have hs1 : Reach State.acceptDormant_parts s s1 := by
    unfold s1
    refine Reach.step (State.accept_reach ..) rfl ?_
    first | assumption | exact .refl
  have hs3 : Reach State.acceptDormant_parts s s3 := by
    unfold s3
    clear_value s1
    have w40 : Reach State.acceptDormant_parts s (s1) := by
      first | assumption | exact .refl
    have w41 := Reach.write w40 (p := .auxOff) (by decide) (.auxOff (true))
    have w42 := Reach.write w41 (p := .gio) (by decide) (.gio [] fun _ => rfl)
    exact .write w42 (by decide) (.power _)
  refine Reach.foldl _ _ (fun u5 y5 hu5 => ?_) ?_
  · refine Reach.ite ?_ ?_
    · first | assumption | exact .refl
    · refine Reach.step (State.supOff_reach ..) rfl ?_
      first | assumption | exact .refl
  · first | assumption | exact .refl

abbrev State.hostMode_parts : List Part :=
  [.logNew, .regs, .change, .doms, .seqs, .chans, .hold3, .hold2, .pwms, .mem, .dataIn, .svcs, .pair, .basins,
   .power, .auxOff, .gio]
theorem State.hostMode_reach (s : State) (src : Nat) (value : Nat) : Reach State.hostMode_parts s (State.hostMode s src value) := by
  unfold State.hostMode
  extract_lets -underBinder -merge +onlyGivenNames x1 x2 s3
  have hs3 : Reach State.hostMode_parts s s3 := by
    unfold s3
    refine Reach.step (State.refuseMode_reach ..) rfl ?_
    first | assumption | exact .refl
  refine Reach.ite ?_ ?_
  · first | assumption | exact .refl
  · refine Reach.ite ?_ ?_
    · first | assumption | exact .refl
    · refine Reach.ite ?_ ?_
      · refine Reach.ite ?_ ?_
        · refine Reach.step (State.requestClearing_reach ..) rfl ?_
          first | assumption | exact .refl
        · first | assumption | exact .refl
      · refine Reach.ite ?_ ?_
        · refine Reach.ite ?_ ?_
          · first | assumption | exact .refl
          · refine Reach.step (State.reachEpoch_reach ..) rfl ?_
            refine Reach.step (State.accept_reach ..) rfl ?_
            first | assumption | exact .refl
        · refine Reach.ite ?_ ?_
          · first | assumption | exact .refl
          · refine Reach.ite ?_ ?_
            · refine Reach.ite ?_ ?_
              · refine Reach.step (State.acceptDormant_reach ..) rfl ?_
                first | assumption | exact .refl
              · first | assumption | exact .refl
            · refine Reach.ite ?_ ?_
              · refine Reach.ite ?_ ?_
                · refine Reach.step (State.reachEpoch_reach ..) rfl ?_
                  refine Reach.step (State.accept_reach ..) rfl ?_
                  first | assumption | exact .refl
                · first | assumption | exact .refl
              · refine Reach.ite ?_ ?_
                · extract_lets -underBinder -merge +onlyGivenNames x4
                  refine Reach.ite ?_ ?_
                  · first | assumption | exact .refl
                  · refine Reach.ite ?_ ?_
                    · refine Reach.step (State.reachEpoch_reach ..) rfl ?_
                      refine Reach.step (State.accept_reach ..) rfl ?_
                      first | assumption | exact .refl
                    · refine Reach.ite ?_ ?_
                      · refine Reach.step (State.accept_reach ..) rfl ?_
                        first | assumption | exact .refl
                      · refine Reach.step (State.refuseMode_reach ..) rfl ?_
                        refine Reach.step (State.raise_reach ..) rfl ?_
                        first | assumption | exact .refl
                · first | assumption | exact .refl

theorem State.autoTo_reach (s : State) (target : Nat) : Reach [.regs, .change, .pair, .seqs, .chans, .mem, .dataIn] s (State.autoTo s target) := by
  unfold State.autoTo
  refine Reach.step (State.accept_reach ..) rfl ?_
  first | assumption | exact .refl

theorem State.autoRun_reach (s : State) : Reach [.regs, .change, .pair, .seqs, .chans, .mem, .dataIn] s (State.autoRun s) := by
  unfold State.autoRun
  refine Reach.ite ?_ ?_
  · refine Reach.step (State.autoTo_reach ..) rfl ?_
    first | assumption | exact .refl
  · first | assumption | exact .refl

theorem State.autoLimp_reach (s : State) : Reach [.regs, .change, .pair, .seqs, .chans, .mem, .dataIn] s (State.autoLimp s) := by
  unfold State.autoLimp
  refine Reach.ite ?_ ?_
  · refine Reach.step (State.autoTo_reach ..) rfl ?_
    first | assumption | exact .refl
  · first | assumption | exact .refl

theorem State.autoLimpRun_reach (s : State) : Reach [.regs, .change, .pair, .seqs, .chans, .mem, .dataIn] s (State.autoLimpRun s) := by
  unfold State.autoLimpRun
  refine Reach.ite ?_ ?_
  · refine Reach.step (State.autoTo_reach ..) rfl ?_
    first | assumption | exact .refl
  · first | assumption | exact .refl

theorem State.modeEpoch_reach (s : State) : Reach [.regs, .change, .doms, .logNew, .seqs, .chans, .hold3, .hold2, .pwms, .mem, .dataIn, .svcs, .pair, .basins, .power] s (State.modeEpoch s) := by
  unfold State.modeEpoch
  split
  · split
    · refine Reach.ite ?_ ?_
      · refine Reach.step (State.reachEpoch_reach ..) rfl ?_
        first | assumption | exact .refl
      · first | assumption | exact .refl
    · first | assumption | exact .refl
  · first | assumption | exact .refl

abbrev State.modeTimeout_parts : List Part :=
  [.change, .logNew, .regs, .seqs, .chans, .mem, .dataIn, .doms, .hold3, .hold2, .pwms, .svcs, .pair, .basins,
   .power]
theorem State.modeTimeout_reach (s : State) : Reach State.modeTimeout_parts s (State.modeTimeout s) := by
  unfold State.modeTimeout
  split
  · refine Reach.ite ?_ ?_
    · extract_lets -underBinder -merge +onlyGivenNames x1 s2 s3
      have hs2 : Reach State.modeTimeout_parts s s2 := by
        unfold s2
        refine Reach.write ?_ (by decide) (.change _)
        first | assumption | exact .refl
      have hs3 : Reach State.modeTimeout_parts s s3 := by
        unfold s3
        refine Reach.step (State.log_reach ..) rfl ?_
        refine Reach.step (State.raise_reach ..) rfl ?_
        refine Reach.step (State.setFld_reach ..) rfl ?_
        first | assumption | exact .refl
      refine Reach.ite ?_ ?_
      · refine Reach.foldl _ _ (fun u4 y4 hu4 => ?_) ?_
        · refine Reach.ite ?_ ?_
          · refine Reach.step (State.modeApply_reach ..) rfl ?_
            first | assumption | exact .refl
          · first | assumption | exact .refl
        · first | assumption | exact .refl
      · refine Reach.step (State.requestClearing_reach ..) rfl ?_
        first | assumption | exact .refl
    · first | assumption | exact .refl
  · first | assumption | exact .refl

theorem State.modeCount_reach (s : State) (d : Nat) : Reach [.change] s (State.modeCount s d) := by
  unfold State.modeCount
  split
  · refine Reach.ite ?_ ?_
    · refine Reach.write ?_ (by decide) (.change _)
      first | assumption | exact .refl
    · first | assumption | exact .refl
  · first | assumption | exact .refl


/-! ### Digest.lean -/

abbrev State.unmatch_parts : List Part :=
  [.pair, .regs]
theorem State.unmatch_reach (s : State) : Reach State.unmatch_parts s (State.unmatch s) := by
  unfold State.unmatch
  extract_lets -underBinder -merge +onlyGivenNames s1
  have hs1 : Reach State.unmatch_parts s s1 := by
    unfold s1
    refine Reach.step (State.modPair_reach ..) rfl ?_
    first | assumption | exact .refl
  refine Reach.ite ?_ ?_
  · refine Reach.step (State.setFld_reach ..) rfl ?_
    first | assumption | exact .refl
  · first | assumption | exact .refl

abbrev State.recordDig_parts : List Part :=
  [.regs]
theorem State.recordDig_reach (s : State) (a : List Nat) (b : List Nat) (missing : Bool) : Reach State.recordDig_parts s (State.recordDig s a b missing) := by
  unfold State.recordDig
  extract_lets -underBinder -merge +onlyGivenNames s1 s2 s3 s4 s5 s6
  have hs1 : Reach State.recordDig_parts s s1 := by
    unfold s1
    refine Reach.step (State.setFld_reach ..) rfl ?_
    first | assumption | exact .refl
  have hs2 : Reach State.recordDig_parts s s2 := by
    unfold s2
    refine Reach.step (State.setFld_reach ..) rfl ?_
    first | assumption | exact .refl
  have hs3 : Reach State.recordDig_parts s s3 := by
    unfold s3
    refine Reach.step (State.putFlag_reach ..) rfl ?_
    first | assumption | exact .refl
  have hs4 : Reach State.recordDig_parts s s4 := by
    unfold s4
    refine Reach.step (State.putFlag_reach ..) rfl ?_
    first | assumption | exact .refl
  have hs5 : Reach State.recordDig_parts s s5 := by
    unfold s5
    refine Reach.step (State.putFlag_reach ..) rfl ?_
    first | assumption | exact .refl
  have hs6 : Reach State.recordDig_parts s s6 := by
    unfold s6
    refine Reach.step (State.putFlag_reach ..) rfl ?_
    first | assumption | exact .refl
  refine Reach.step (State.pairEvt_reach ..) rfl ?_
  refine Reach.step (State.setFld_reach ..) rfl ?_
  first | assumption | exact .refl

theorem State.compareDig_reach (s : State) (own : List Nat) (rx : List Nat) : Reach [.regs, .pair] s (State.compareDig s own rx) := by
  unfold State.compareDig
  refine Reach.ite ?_ ?_
  · refine Reach.step (State.bump_reach ..) rfl ?_
    first | assumption | exact .refl
  · refine Reach.ite ?_ ?_
    · refine Reach.step (State.bump_reach ..) rfl ?_
      first | assumption | exact .refl
    · refine Reach.step (State.unmatch_reach ..) rfl ?_
      refine Reach.step (State.recordDig_reach ..) rfl ?_
      refine Reach.step (State.bump_reach ..) rfl ?_
      first | assumption | exact .refl

theorem State.missDig_reach (s : State) (a : List Nat) : Reach [.pair, .regs] s (State.missDig s a) := by
  unfold State.missDig
  refine Reach.step (State.unmatch_reach ..) rfl ?_
  refine Reach.step (State.recordDig_reach ..) rfl ?_
  refine Reach.step (State.bump_reach ..) rfl ?_
  first | assumption | exact .refl

abbrev State.expireDig_parts : List Part :=
  [.pair, .regs]
theorem State.expireDig_reach (s : State) (d : Nat) : Reach State.expireDig_parts s (State.expireDig s d) := by
  unfold State.expireDig
  extract_lets -underBinder -merge +onlyGivenNames x1 x2 x3 x4 s5
  have hs5 : Reach State.expireDig_parts s s5 := by
    unfold s5
    refine Reach.step (State.modPair_reach ..) rfl ?_
    first | assumption | exact .refl
  refine Reach.foldl _ _ (fun u6 y6 hu6 => ?_) ?_
  · refine Reach.step (State.missDig_reach ..) rfl ?_
    first | assumption | exact .refl
  · first | assumption | exact .refl

abbrev State.formDigest_parts : List Part :=
  [.doms, .pair, .regs]
theorem State.formDigest_reach (s : State) (d : Nat) : Reach State.formDigest_parts s (State.formDigest s d) := by
  unfold State.formDigest
  refine Reach.ite ?_ ?_
  · extract_lets -underBinder -merge +onlyGivenNames x1 s2 s3 s4
    have hs2 : Reach State.formDigest_parts s s2 := by
      unfold s2
      refine Reach.step (State.modDom_reach ..) rfl ?_
      first | assumption | exact .refl
    have hs3 : Reach State.formDigest_parts s s3 := by
      unfold s3
      refine Reach.ite ?_ ?_
      · refine Reach.step (State.sendFrame_reach ..) rfl ?_
        first | assumption | exact .refl
      · first | assumption | exact .refl
    have hs4 : Reach State.formDigest_parts s s4 := by
      unfold s4
      split
      · refine Reach.step (State.compareDig_reach ..) rfl ?_
        refine Reach.step (State.modPair_reach ..) rfl ?_
        first | assumption | exact .refl
      · refine Reach.step (State.modPair_reach ..) rfl ?_
        first | assumption | exact .refl
    refine Reach.step (State.expireDig_reach ..) rfl ?_
    first | assumption | exact .refl
  · refine Reach.ite ?_ ?_
    · first | assumption | exact .refl
    · refine Reach.step (State.expireDig_reach ..) rfl ?_
      refine Reach.step (State.modDom_reach ..) rfl ?_
      first | assumption | exact .refl

abbrev State.receiveDigest_parts : List Part :=
  [.regs, .pair]
theorem State.receiveDigest_reach (s : State) (b : List Nat) : Reach State.receiveDigest_parts s (State.receiveDigest s b) := by
  unfold State.receiveDigest
  refine Reach.ite ?_ ?_
  · extract_lets -underBinder -merge +onlyGivenNames x1
    split
    · refine Reach.step (State.compareDig_reach ..) rfl ?_
      refine Reach.step (State.modPair_reach ..) rfl ?_
      first | assumption | exact .refl
    · extract_lets -underBinder -merge +onlyGivenNames x2 s3
      have hs3 : Reach State.receiveDigest_parts s s3 := by
        unfold s3
        clear_value x2
        split
        · refine Reach.ite ?_ ?_
          · refine Reach.step (State.missDig_reach ..) rfl ?_
            first | assumption | exact .refl
          · first | assumption | exact .refl
        · first | assumption | exact .refl
      refine Reach.step (State.modPair_reach ..) rfl ?_
      first | assumption | exact .refl
  · first | assumption | exact .refl


/-! ### Tasks.lean -/

abbrev State.taskFault_parts : List Part :=
  [.regs]
theorem State.taskFault_reach (s : State) (n : Nat) (f : Fld) (cnt : Option Fld) : Reach State.taskFault_parts s (State.taskFault s n f cnt) := by
  unfold State.taskFault
  extract_lets -underBinder -merge +onlyGivenNames s1
  have hs1 : Reach State.taskFault_parts s s1 := by
    unfold s1
    refine Reach.step (State.raise_reach ..) rfl ?_
    first | assumption | exact .refl
  split
  · refine Reach.step (State.bump_reach ..) rfl ?_
    first | assumption | exact .refl
  · first | assumption | exact .refl

abbrev State.toothHeld_parts : List Part :=
  [.seqs, .regs, .change, .doms, .logNew, .chans, .hold3, .hold2, .pwms, .mem, .dataIn, .svcs, .pair, .basins,
   .power]
theorem State.toothHeld_reach (s : State) (n : Nat) (word : Nat) : Reach State.toothHeld_parts s (State.toothHeld s n word) := by
  unfold State.toothHeld
  extract_lets -underBinder -merge +onlyGivenNames x1
  refine Reach.ite ?_ ?_
  · unfold x1
    refine Reach.step (State.modSeq_reach _ _ _ (fun q h => ?_)) rfl ?_
    · first | exact h | (simp_all [Seq.ok, Tab.rising, Tab.every]; done)
    · refine Reach.step (State.bump_reach ..) rfl ?_
      refine Reach.step (State.bump_reach ..) rfl ?_
      first | assumption | exact .refl
  · extract_lets -underBinder -merge +onlyGivenNames x2 s3
    have hs3 : Reach State.toothHeld_parts s s3 := by
      unfold s3
      unfold x1
      refine Reach.step (State.modSeq_reach _ _ _ (fun q h => ?_)) rfl ?_
      · first | exact h | (simp_all [Seq.ok, Tab.rising, Tab.every]; done)
      · refine Reach.step (State.setFld_reach ..) rfl ?_
        refine Reach.step (State.raise_reach ..) rfl ?_
        first | assumption | exact .refl
    refine Reach.ite ?_ ?_
    · extract_lets -underBinder -merge +onlyGivenNames s4
      have hs4 : Reach State.toothHeld_parts s s4 := by
        unfold s4
        refine Reach.step (State.taskFault_reach ..) rfl ?_
        first | assumption | exact .refl
      refine Reach.ite ?_ ?_
      · refine Reach.step (State.requestClearing_reach ..) rfl ?_
        first | assumption | exact .refl
      · first | assumption | exact .refl
    · first | assumption | exact .refl

theorem State.toothAt_reach (s : State) (word : Nat) (n : Nat) : Reach [.seqs, .regs, .change, .doms, .logNew, .chans, .hold3, .hold2, .pwms, .mem, .dataIn, .svcs, .pair, .basins, .power] s (State.toothAt s word n) := by
  unfold State.toothAt
  extract_lets -underBinder -merge +onlyGivenNames x1
  refine Reach.ite ?_ ?_
  · first | assumption | exact .refl
  · split
    · refine Reach.ite ?_ ?_
      · refine Reach.step (State.toothHeld_reach ..) rfl ?_
        first | assumption | exact .refl
      · refine Reach.step (State.modSeq_reach _ _ _ (fun q h => ?_)) rfl ?_
        · first | exact h | (simp_all [Seq.ok, Tab.rising, Tab.every]; done)
        · refine Reach.step (State.beginTask_reach ..) rfl ?_
          first | assumption | exact .refl
    · refine Reach.step (State.toothHeld_reach ..) rfl ?_
      first | assumption | exact .refl

abbrev State.toothEvent_parts : List Part :=
  [.doms, .seqs, .regs, .change, .logNew, .chans, .hold3, .hold2, .pwms, .mem, .dataIn, .svcs, .pair, .basins,
   .power]
theorem State.toothEvent_reach (s : State) (d : Nat) (word : Nat) : Reach State.toothEvent_parts s (State.toothEvent s d word) := by
  unfold State.toothEvent
  extract_lets -underBinder -merge +onlyGivenNames x1 s2
  have hs2 : Reach State.toothEvent_parts s s2 := by
    unfold s2
    refine Reach.step (State.modDom_reach ..) rfl ?_
    first | assumption | exact .refl
  refine Reach.foldl _ _ (fun u3 y3 hu3 => ?_) ?_
  · refine Reach.ite ?_ ?_
    · refine Reach.step (State.toothAt_reach ..) rfl ?_
      first | assumption | exact .refl
    · first | assumption | exact .refl
  · first | assumption | exact .refl

theorem State.dropTooth_reach (s : State) (n : Nat) : Reach [.seqs, .regs] s (State.dropTooth s n) := by
  unfold State.dropTooth
  refine Reach.step (State.modSeq_reach _ _ _ (fun q h => ?_)) rfl ?_
  · first | exact h | (simp_all [Seq.ok, Tab.rising, Tab.every]; done)
  · refine Reach.step (State.setFld_reach ..) rfl ?_
    refine Reach.step (State.putFlag_reach ..) rfl ?_
    first | assumption | exact .refl

abbrev State.stopSeq_parts : List Part :=
  [.seqs, .regs, .change, .chans, .mem, .dataIn]
theorem State.stopSeq_reach (s : State) (n : Nat) (st : SeqState) : Reach State.stopSeq_parts s (State.stopSeq s n st) := by
  unfold State.stopSeq
  extract_lets -underBinder -merge +onlyGivenNames s1 s2
  have hs1 : Reach State.stopSeq_parts s s1 := by
    unfold s1
    refine Reach.step (State.dropTooth_reach ..) rfl ?_
    refine Reach.step (State.endTask_reach ..) rfl ?_
    refine Reach.step (State.countRun_reach ..) rfl ?_
    first | assumption | exact .refl
  have hs2 : Reach State.stopSeq_parts s s2 := by
    unfold s2
    refine Reach.step (State.modSeq_reach _ _ _ (fun q h => ?_)) rfl ?_
    · first | exact h | (simp_all [Seq.ok, Tab.rising, Tab.every]; done)
    · first | assumption | exact .refl
  refine Reach.step (State.modeSettle_reach ..) rfl ?_
  refine Reach.step (State.swapStopped_reach ..) rfl ?_
  first | assumption | exact .refl

abbrev State.coreFault_parts : List Part :=
  [.regs, .logNew, .seqs, .change, .chans, .mem, .dataIn]
theorem State.coreFault_reach (s : State) (n : Nat) (pc : Nat) (bank : Nat) (f : CoreFault) : Reach State.coreFault_parts s (State.coreFault s n pc bank f) := by
  unfold State.coreFault
  extract_lets -underBinder -merge +onlyGivenNames x1 s2 s3 s4 s5
  have hs2 : Reach State.coreFault_parts s s2 := by
    unfold s2
    refine Reach.step (State.raise_reach ..) rfl ?_
    first | assumption | exact .refl
  have hs3 : Reach State.coreFault_parts s s3 := by
    unfold s3
    refine Reach.step (State.setFld_reach ..) rfl ?_
    first | assumption | exact .refl
  have hs4 : Reach State.coreFault_parts s s4 := by
    unfold s4
    refine Reach.step (State.setFld_reach ..) rfl ?_
    refine Reach.step (State.setFld_reach ..) rfl ?_
    first | assumption | exact .refl
  have hs5 : Reach State.coreFault_parts s s5 := by
    unfold s5
    refine Reach.step (State.log_reach ..) rfl ?_
    first | assumption | exact .refl
  refine Reach.ite ?_ ?_
  · refine Reach.step (State.stopSeq_reach ..) rfl ?_
    first | assumption | exact .refl
  · first | assumption | exact .refl

theorem State.clearSlots_reach (s : State) (n : Nat) : Reach [.seqs] s (State.clearSlots s n) := by
  unfold State.clearSlots
  refine Reach.foldl _ _ (fun u1 y1 hu1 => ?_) ?_
  · refine Reach.ite ?_ ?_
    · refine Reach.step (State.freeSlot_reach ..) rfl ?_
      first | assumption | exact .refl
    · first | assumption | exact .refl
  · first | assumption | exact .refl

abbrev State.resetSeq_parts : List Part :=
  [.seqs, .regs, .change, .chans, .mem, .dataIn]
theorem State.resetSeq_reach (s : State) (n : Nat) : Reach State.resetSeq_parts s (State.resetSeq s n) := by
  unfold State.resetSeq
  extract_lets -underBinder -merge +onlyGivenNames s1 s2 s3 s4 s5 s6 s7 s8 s9 s10
  have hs1 : Reach State.resetSeq_parts s s1 := by
    unfold s1
    refine Reach.step (State.dropTooth_reach ..) rfl ?_
    refine Reach.step (State.endTask_reach ..) rfl ?_
    refine Reach.step (State.countRun_reach ..) rfl ?_
    first | assumption | exact .refl
  have hs2 : Reach State.resetSeq_parts s s2 := by
    unfold s2
    refine Reach.step (State.clearSlots_reach ..) rfl ?_
    first | assumption | exact .refl
  have hs3 : Reach State.resetSeq_parts s s3 := by
    unfold s3
    refine Reach.step (State.setFld_reach ..) rfl ?_
    refine Reach.step (State.setFld_reach ..) rfl ?_
    refine Reach.step (State.setFld_reach ..) rfl ?_
    first | assumption | exact .refl
  have hs4 : Reach State.resetSeq_parts s s4 := by
    unfold s4
    refine Reach.step (State.setFld_reach ..) rfl ?_
    refine Reach.step (State.setFld_reach ..) rfl ?_
    refine Reach.step (State.setFld_reach ..) rfl ?_
    first | assumption | exact .refl
  have hs5 : Reach State.resetSeq_parts s s5 := by
    unfold s5
    refine Reach.step (State.setFld_reach ..) rfl ?_
    first | assumption | exact .refl
  have hs6 : Reach State.resetSeq_parts s s6 := by
    unfold s6
    refine Reach.foldl _ _ (fun u11 y11 hu11 => ?_) ?_
    · refine Reach.step (State.setFld_reach ..) rfl ?_
      first | assumption | exact .refl
    · first | assumption | exact .refl
  have hs7 : Reach State.resetSeq_parts s s7 := by
    unfold s7
    refine Reach.step (State.putFlag_reach ..) rfl ?_
    refine Reach.step (State.setFld_reach ..) rfl ?_
    refine Reach.step (State.setFld_reach ..) rfl ?_
    first | assumption | exact .refl
  have hs8 : Reach State.resetSeq_parts s s8 := by
    unfold s8
    refine Reach.step (State.modSeq_reach _ _ _ (fun q h => ?_)) rfl ?_
    · first | exact h | (simp_all [Seq.ok, Tab.rising, Tab.every]; done)
    · first | assumption | exact .refl
  have hs9 : Reach State.resetSeq_parts s s9 := by
    unfold s9
    refine Reach.step (State.swapStopped_reach ..) rfl ?_
    first | assumption | exact .refl
  have hs10 : Reach State.resetSeq_parts s s10 := by
    unfold s10
    refine Reach.step (State.modSeq_reach _ _ _ (fun q h => ?_)) rfl ?_
    · first | exact h | (simp_all [Seq.ok, Tab.rising, Tab.every]; done)
    · first | assumption | exact .refl
  refine Reach.step (State.modeSettle_reach ..) rfl ?_
  first | assumption | exact .refl

theorem State.startSeq_reach (s : State) (n : Nat) : Reach [.seqs] s (State.startSeq s n) := by
  unfold State.startSeq
  refine Reach.step (State.modSeq_reach _ _ _ (fun q h => ?_)) rfl ?_
  · first | exact h | (simp_all [Seq.ok, Tab.rising, Tab.every]; done)
  · first | assumption | exact .refl

abbrev State.seqCmd_parts : List Part :=
  [.seqs, .regs, .change, .chans, .mem, .dataIn, .mspi]
theorem State.seqCmd_reach (s : State) (src : Nat) (off : Nat) (be : Nat) (n : Nat) (v : Nat) : Reach State.seqCmd_parts s (State.seqCmd s src off be n v) := by
  unfold State.seqCmd
  extract_lets -underBinder -merge +onlyGivenNames x1 s2 x3 s4
  have hs2 : Reach State.seqCmd_parts s s2 := by
    unfold s2
    refine Reach.ite ?_ ?_
    · refine Reach.step (State.resetSeq_reach ..) rfl ?_
      first | assumption | exact .refl
    · first | assumption | exact .refl
  have hs4 : Reach State.seqCmd_parts s s4 := by
    unfold s4
    refine Reach.ite ?_ ?_
    · refine Reach.step (State.startSeq_reach ..) rfl ?_
      first | assumption | exact .refl
    · first | assumption | exact .refl
  refine Reach.ite ?_ ?_
  · refine Reach.step (State.accessErr_reach ..) rfl ?_
    first | assumption | exact .refl
  · first | assumption | exact .refl

theorem State.swapReq_reach (s : State) (n : Nat) : Reach [.seqs, .regs] s (State.swapReq s n) := by
  unfold State.swapReq
  refine Reach.ite ?_ ?_
  · first | assumption | exact .refl
  · refine Reach.step (State.swapSettle_reach ..) rfl ?_
    refine Reach.step (State.swapStopped_reach ..) rfl ?_
    refine Reach.step (State.raise_reach ..) rfl ?_
    first | assumption | exact .refl

theorem State.swapBoundary_reach (s : State) (n : Nat) : Reach [.seqs, .regs] s (State.swapBoundary s n) := by
  unfold State.swapBoundary
  extract_lets -underBinder -merge +onlyGivenNames x1
  refine Reach.ite ?_ ?_
  · first | assumption | exact .refl
  · refine Reach.ite ?_ ?_
    · refine Reach.step (State.swapRunning_reach ..) rfl ?_
      first | assumption | exact .refl
    · refine Reach.ite ?_ ?_
      · first | assumption | exact .refl
      · refine Reach.step (State.bump_reach ..) rfl ?_
        first | assumption | exact .refl


/-! ### Learner.lean -/

theorem State.modLearn_reach (s : State) (d : Nat) (f : Learner → Learner) : Reach [.doms] s (State.modLearn s d f) := by
  unfold State.modLearn
  refine Reach.step (State.modDom_reach ..) rfl ?_
  first | assumption | exact .refl

abbrev State.bankDone_parts : List Part :=
  [.regs]
theorem State.bankDone_reach (s : State) (d : Nat) : Reach State.bankDone_parts s (State.bankDone s d) := by
  unfold State.bankDone
  extract_lets -underBinder -merge +onlyGivenNames s1
  have hs1 : Reach State.bankDone_parts s s1 := by
    unfold s1
    refine Reach.step (State.raise_reach ..) rfl ?_
    first | assumption | exact .refl
  refine Reach.ite ?_ ?_
  · refine Reach.step (State.raise_reach ..) rfl ?_
    first | assumption | exact .refl
  · first | assumption | exact .refl

theorem State.learnInterval_reach (s : State) (d : Nat) (k : Nat) (t : Nat) (coarse : Bool) : Reach [.doms] s (State.learnInterval s d k t coarse) := by
  unfold State.learnInterval
  refine Reach.step (State.modLearn_reach ..) rfl ?_
  first | assumption | exact .refl

theorem State.learnAdd_reach (s : State) (d : Nat) (tRev : Nat) : Reach [.doms] s (State.learnAdd s d tRev) := by
  unfold State.learnAdd
  refine Reach.step (State.modLearn_reach ..) rfl ?_
  first | assumption | exact .refl

abbrev State.learnRev_parts : List Part :=
  [.regs, .doms]
theorem State.learnRev_reach (s : State) (d : Nat) (stamp : Nat) : Reach State.learnRev_parts s (State.learnRev s d stamp) := by
  unfold State.learnRev
  extract_lets -underBinder -merge +onlyGivenNames x1 s2
  have hs2 : Reach State.learnRev_parts s s2 := by
    unfold s2
    split
    · extract_lets -underBinder -merge +onlyGivenNames x3 s4 s5
      have hs4 : Reach State.learnRev_parts s s4 := by
        unfold s4
        refine Reach.step (State.bump_reach ..) rfl ?_
        refine Reach.step (State.learnAdd_reach ..) rfl ?_
        first | assumption | exact .refl
      have hs5 : Reach State.learnRev_parts s s5 := by
        unfold s5
        refine Reach.ite ?_ ?_
        · refine Reach.step (State.bump_reach ..) rfl ?_
          first | assumption | exact .refl
        · refine Reach.ite ?_ ?_
          · first | assumption | exact .refl
          · refine Reach.ite ?_ ?_
            · refine Reach.step (State.modLearn_reach ..) rfl ?_
              refine Reach.step (State.raise_reach ..) rfl ?_
              first | assumption | exact .refl
            · first | assumption | exact .refl
      refine Reach.step (State.modLearn_reach ..) rfl ?_
      first | assumption | exact .refl
    · first | assumption | exact .refl
  refine Reach.step (State.modLearn_reach ..) rfl ?_
  first | assumption | exact .refl

theorem State.writeMissing_reach (s : State) (d k n : Nat) : Reach [.mem] s (s.writeMissing d k n) := by
  induction n generalizing s k with
  | zero => exact .refl
  | succ n ih =>
    unfold State.writeMissing
    refine Reach.ite ?_ .refl
    exact (State.setWord_reach ..).trans (ih _ _)

abbrev State.learnWrite_parts : List Part :=
  [.mem, .doms, .regs]
theorem State.learnWrite_reach (s : State) (d : Nat) (k : Nat) : Reach State.learnWrite_parts s (State.learnWrite s d k) := by
  unfold State.learnWrite
  refine Reach.ite ?_ ?_
  · extract_lets -underBinder -merge +onlyGivenNames x1 s2 s3
    have hs2 : Reach State.learnWrite_parts s s2 := by
      unfold s2
      refine Reach.step (State.setWord_reach ..) rfl ?_
      first | assumption | exact .refl
    have hs3 : Reach State.learnWrite_parts s s3 := by
      unfold s3
      refine Reach.step (State.writeMissing_reach ..) rfl ?_
      first | assumption | exact .refl
    refine Reach.ite ?_ ?_
    · extract_lets -underBinder -merge +onlyGivenNames s4
      have hs4 : Reach State.learnWrite_parts s s4 := by
        unfold s4
        refine Reach.step (State.modLearn_reach ..) rfl ?_
        refine Reach.step (State.putFlag_reach ..) rfl ?_
        first | assumption | exact .refl
      refine Reach.ite ?_ ?_
      · refine Reach.step (State.bankDone_reach ..) rfl ?_
        first | assumption | exact .refl
      · refine Reach.step (State.setFld_reach ..) rfl ?_
        refine Reach.step (State.raise_reach ..) rfl ?_
        first | assumption | exact .refl
    · first | assumption | exact .refl
  · first | assumption | exact .refl

abbrev State.tclSwapReq_parts : List Part :=
  [.regs]
theorem State.tclSwapReq_reach (s : State) (d : Nat) : Reach State.tclSwapReq_parts s (State.tclSwapReq s d) := by
  unfold State.tclSwapReq
  extract_lets -underBinder -merge +onlyGivenNames s1
  have hs1 : Reach State.tclSwapReq_parts s s1 := by
    unfold s1
    refine Reach.step (State.raise_reach ..) rfl ?_
    first | assumption | exact .refl
  refine Reach.ite ?_ ?_
  · first | assumption | exact .refl
  · refine Reach.ite ?_ ?_
    · refine Reach.step (State.raise_reach ..) rfl ?_
      first | assumption | exact .refl
    · refine Reach.step (State.putFlag_reach ..) rfl ?_
      refine Reach.step (State.putFlag_reach ..) rfl ?_
      refine Reach.step (State.raise_reach ..) rfl ?_
      first | assumption | exact .refl

abbrev State.tclBoundary_parts : List Part :=
  [.regs, .doms]
theorem State.tclBoundary_reach (s : State) (d : Nat) : Reach State.tclBoundary_parts s (State.tclBoundary s d) := by
  unfold State.tclBoundary
  refine Reach.ite ?_ ?_
  · extract_lets -underBinder -merge +onlyGivenNames s1 s2 s3
    have hs1 : Reach State.tclBoundary_parts s s1 := by
      unfold s1
      refine Reach.step (State.setFld_reach ..) rfl ?_
      first | assumption | exact .refl
    have hs2 : Reach State.tclBoundary_parts s s2 := by
      unfold s2
      refine Reach.step (State.putFlag_reach ..) rfl ?_
      refine Reach.step (State.putFlag_reach ..) rfl ?_
      first | assumption | exact .refl
    have hs3 : Reach State.tclBoundary_parts s s3 := by
      unfold s3
      refine Reach.step (State.setFld_reach ..) rfl ?_
      refine Reach.step (State.bump_reach ..) rfl ?_
      first | assumption | exact .refl
    refine Reach.step (State.modDom_reach ..) rfl ?_
    first | assumption | exact .refl
  · first | assumption | exact .refl

theorem State.learnCfg_reach (s : State) (d : Nat) : Reach [.doms] s (State.learnCfg s d) := by
  unfold State.learnCfg
  refine Reach.ite ?_ ?_
  · first | assumption | exact .refl
  · refine Reach.step (State.modLearn_reach ..) rfl ?_
    first | assumption | exact .refl


/-! ### Decoder.lean -/

theorem State.putRatio_reach (s : State) (d : Nat) (r : Frac) : Reach [.regs] s (State.putRatio s d r) := by
  unfold State.putRatio
  refine Reach.step (State.setFld_reach ..) rfl ?_
  first | assumption | exact .refl

theorem State.putErr_reach (s : State) (d : Nat) (t : Nat) (p : Nat) (aInt : Nat) (aRef : Nat) : Reach [.regs] s (State.putErr s d t p aInt aRef) := by
  unfold State.putErr
  extract_lets -underBinder -merge +onlyGivenNames x1
  refine Reach.step (State.setFld_reach ..) rfl ?_
  first | assumption | exact .refl

theorem State.seedHyps_reach (s : State) (d : Nat) (stamp : Nat) : Reach [.doms] s (State.seedHyps s d stamp) := by
  unfold State.seedHyps
  extract_lets -underBinder -merge +onlyGivenNames x1 x2
  refine Reach.step (State.modDom_reach ..) rfl ?_
  first | assumption | exact .refl

theorem State.putCrank_reach (s : State) (d : Nat) (q : Predictor) : Reach [.doms] s (State.putCrank s d q) := by
  unfold State.putCrank
  refine Reach.step (State.modDom_reach ..) rfl ?_
  first | assumption | exact .refl

abbrev State.restartAcq_parts : List Part :=
  [.regs, .doms]
theorem State.restartAcq_reach (s : State) (d : Nat) : Reach State.restartAcq_parts s (State.restartAcq s d) := by
  unfold State.restartAcq
  extract_lets -underBinder -merge +onlyGivenNames s1
  have hs1 : Reach State.restartAcq_parts s s1 := by
    unfold s1
    refine Reach.step (State.putFlag_reach ..) rfl ?_
    refine Reach.step (State.bump_reach ..) rfl ?_
    refine Reach.step (State.raise_reach ..) rfl ?_
    first | assumption | exact .refl
  refine Reach.step (State.modDom_reach ..) rfl ?_
  refine Reach.step (State.putCrank_reach ..) rfl ?_
  first | assumption | exact .refl

abbrev State.lockStep_parts : List Part :=
  [.regs, .doms]
theorem State.lockStep_reach (s : State) (d : Nat) (t : Nat) (k : Nat) (locked : Bool) : Reach State.lockStep_parts s (State.lockStep s d t k locked) := by
  unfold State.lockStep
  extract_lets -underBinder -merge +onlyGivenNames x1 x2
  split
  · first | assumption | exact .refl
  · extract_lets -underBinder -merge +onlyGivenNames s3
    have hs3 : Reach State.lockStep_parts s s3 := by
      unfold s3
      refine Reach.step (State.setFld_reach ..) rfl ?_
      first | assumption | exact .refl
    refine Reach.ite ?_ ?_
    · extract_lets -underBinder -merge +onlyGivenNames x4 x5
      refine Reach.step (State.limited_reach ..) rfl ?_
      refine Reach.step (State.putCrank_reach ..) rfl ?_
      refine Reach.step (State.putErr_reach ..) rfl ?_
      first | assumption | exact .refl
    · extract_lets -underBinder -merge +onlyGivenNames x6
      refine Reach.step (State.limited_reach ..) rfl ?_
      refine Reach.step (State.putCrank_reach ..) rfl ?_
      refine Reach.step (State.raise_reach ..) rfl ?_
      first | assumption | exact .refl

abbrev State.jump_parts : List Part :=
  [.regs]
theorem State.jump_reach (s : State) (d : Nat) (shortfall : Nat) (opening : Nat) : Reach State.jump_parts s (State.jump s d shortfall opening) := by
  unfold State.jump
  extract_lets -underBinder -merge +onlyGivenNames s1
  have hs1 : Reach State.jump_parts s s1 := by
    unfold s1
    refine Reach.step (State.bump_reach ..) rfl ?_
    refine Reach.step (State.setFld_reach ..) rfl ?_
    first | assumption | exact .refl
  refine Reach.ite ?_ ?_
  · refine Reach.step (State.bump_reach ..) rfl ?_
    refine Reach.step (State.raise_reach ..) rfl ?_
    first | assumption | exact .refl
  · first | assumption | exact .refl

abbrev State.loadStep_parts : List Part :=
  [.svcs, .doms, .regs]
theorem State.loadStep_reach (s : State) (d : Nat) (au : Nat) (rate : Nat) (stamp : Nat) (opening : Nat) (next : Nat) (always : Bool) : Reach State.loadStep_parts s (State.loadStep s d au rate stamp opening next always) := by
  unfold State.loadStep
  extract_lets -underBinder -merge +onlyGivenNames s1
  have hs1 : Reach State.loadStep_parts s s1 := by
    unfold s1
    refine Reach.step (State.svcHalves_reach ..) rfl ?_
    first | assumption | exact .refl
  refine Reach.ite ?_ ?_
  · refine Reach.step (State.loadHold_reach ..) rfl ?_
    first | assumption | exact .refl
  · extract_lets -underBinder -merge +onlyGivenNames x2 x3 s4
    have hs4 : Reach State.loadStep_parts s s4 := by
      unfold s4
      refine Reach.ite ?_ ?_
      · first | assumption | exact .refl
      · refine Reach.step (State.jump_reach ..) rfl ?_
        first | assumption | exact .refl
    refine Reach.step (State.loadEdge_reach ..) rfl ?_
    first | assumption | exact .refl

abbrev State.gainState_parts : List Part :=
  [.regs, .chans, .doms, .mem]
theorem State.gainState_reach (s : State) (d : Nat) (stamp : Nat) (h : Hyp) (j : Judge) : Reach State.gainState_parts s (State.gainState s d stamp h j) := by
  unfold State.gainState
  extract_lets -underBinder -merge +onlyGivenNames s1 s2 s3 s4 x5 s6
  have hs1 : Reach State.gainState_parts s s1 := by
    unfold s1
    refine Reach.step (State.setFld_reach ..) rfl ?_
    first | assumption | exact .refl
  have hs2 : Reach State.gainState_parts s s2 := by
    unfold s2
    refine Reach.step (State.setFld_reach ..) rfl ?_
    refine Reach.step (State.raise_reach ..) rfl ?_
    first | assumption | exact .refl
  have hs3 : Reach State.gainState_parts s s3 := by
    unfold s3
    refine Reach.step (State.setFld_reach ..) rfl ?_
    first | assumption | exact .refl
  have hs4 : Reach State.gainState_parts s s4 := by
    unfold s4
    refine Reach.step (State.redrive_reach ..) rfl ?_
    refine Reach.step (State.clearBits_reach ..) rfl ?_
    first | assumption | exact .refl
  have hs6 : Reach State.gainState_parts s s6 := by
    unfold s6
    refine Reach.step (State.modDom_reach ..) rfl ?_
    first | assumption | exact .refl
  refine Reach.ite ?_ ?_
  · refine Reach.step (State.learnWrite_reach ..) rfl ?_
    refine Reach.step (State.learnRev_reach ..) rfl ?_
    first | assumption | exact .refl
  · first | assumption | exact .refl

abbrev State.gainSeek_parts : List Part :=
  [.doms, .pair, .regs, .chans, .mem, .seqs, .change, .logNew, .hold3, .hold2, .pwms, .dataIn, .svcs, .basins,
   .power]
theorem State.gainSeek_reach (s : State) (d : Nat) (stamp : Nat) (h : Hyp) : Reach State.gainSeek_parts s (State.gainSeek s d stamp h) := by
  unfold State.gainSeek
  extract_lets -underBinder -merge +onlyGivenNames s1 x2 s3
  have hs1 : Reach State.gainSeek_parts s s1 := by
    unfold s1
    refine Reach.step (State.formDigest_reach ..) rfl ?_
    refine Reach.step (State.gainState_reach ..) rfl ?_
    first | assumption | exact .refl
  have hs3 : Reach State.gainSeek_parts s s3 := by
    unfold s3
    refine Reach.step (State.loadFirst_reach ..) rfl ?_
    first | assumption | exact .refl
  refine Reach.step (State.toothEvent_reach ..) rfl ?_
  refine Reach.step (State.latchRefs_reach ..) rfl ?_
  first | assumption | exact .refl

abbrev State.gainPhase_parts : List Part :=
  [.doms, .pair, .regs, .chans, .mem, .svcs, .seqs, .change, .logNew, .hold3, .hold2, .pwms, .dataIn, .basins,
   .power]
theorem State.gainPhase_reach (s : State) (d : Nat) (stamp : Nat) (opening : Nat) (h : Hyp) : Reach State.gainPhase_parts s (State.gainPhase s d stamp opening h) := by
  unfold State.gainPhase
  extract_lets -underBinder -merge +onlyGivenNames x1 x2 s3 s4 x5 x6 s7
  have hs3 : Reach State.gainPhase_parts s s3 := by
    unfold s3
    refine Reach.step (State.formDigest_reach ..) rfl ?_
    refine Reach.step (State.gainState_reach ..) rfl ?_
    first | assumption | exact .refl
  have hs4 : Reach State.gainPhase_parts s s4 := by
    unfold s4
    refine Reach.step (State.modDom_reach ..) rfl ?_
    first | assumption | exact .refl
  have hs7 : Reach State.gainPhase_parts s s7 := by
    unfold s7
    refine Reach.ite ?_ ?_
    · refine Reach.step (State.loadStep_reach ..) rfl ?_
      first | assumption | exact .refl
    · refine Reach.step (State.loadHold_reach ..) rfl ?_
      refine Reach.step (State.svcHalves_reach ..) rfl ?_
      first | assumption | exact .refl
  refine Reach.step (State.toothEvent_reach ..) rfl ?_
  first | assumption | exact .refl

abbrev State.edgeNosync_parts : List Part :=
  [.regs, .power, .doms]
theorem State.edgeNosync_reach (s : State) (d : Nat) (stamp : Nat) : Reach State.edgeNosync_parts s (State.edgeNosync s d stamp) := by
  unfold State.edgeNosync
  extract_lets -underBinder -merge +onlyGivenNames x1
  refine Reach.ite ?_ ?_
  · refine Reach.ite ?_ ?_
    · extract_lets -underBinder -merge +onlyGivenNames s2 x3 x4 s5
      have hs2 : Reach State.edgeNosync_parts s s2 := by
        unfold s2
        refine Reach.step (State.setFld_reach ..) rfl ?_
        first | assumption | exact .refl
      have hs5 : Reach State.edgeNosync_parts s s5 := by
        unfold s5
        refine Reach.write ?_ (by decide) (.power _)
        first | assumption | exact .refl
      refine Reach.step (State.seedHyps_reach ..) rfl ?_
      first | assumption | exact .refl
    · refine Reach.step (State.modDom_reach ..) rfl ?_
      refine Reach.step (State.raise_reach ..) rfl ?_
      first | assumption | exact .refl
  · first | assumption | exact .refl

abbrev State.edgeAcquire_parts : List Part :=
  [.doms, .regs, .pair, .chans, .mem, .svcs, .seqs, .change, .logNew, .hold3, .hold2, .pwms, .dataIn, .basins,
   .power]
theorem State.edgeAcquire_reach (s : State) (d : Nat) (stamp : Nat) (t : Nat) : Reach State.edgeAcquire_parts s (State.edgeAcquire s d stamp t) := by
  unfold State.edgeAcquire
  extract_lets -underBinder -merge +onlyGivenNames x1
  refine Reach.ite ?_ ?_
  · refine Reach.step (State.seedHyps_reach ..) rfl ?_
    first | assumption | exact .refl
  · extract_lets -underBinder -merge +onlyGivenNames x2 x3 x4 s5 x6 s7
    have hs5 : Reach State.edgeAcquire_parts s s5 := by
      unfold s5
      refine Reach.ite ?_ ?_
      · refine Reach.step (State.putRatio_reach ..) rfl ?_
        first | assumption | exact .refl
      · first | assumption | exact .refl
    have hs7 : Reach State.edgeAcquire_parts s s7 := by
      unfold s7
      refine Reach.step (State.modDom_reach ..) rfl ?_
      first | assumption | exact .refl
    refine Reach.ite ?_ ?_
    · refine Reach.step (State.restartAcq_reach ..) rfl ?_
      first | assumption | exact .refl
    · extract_lets -underBinder -merge +onlyGivenNames s8
      have hs8 : Reach State.edgeAcquire_parts s s8 := by
        unfold s8
        refine Reach.step (State.lockStep_reach ..) rfl ?_
        first | assumption | exact .refl
      split
      · refine Reach.ite ?_ ?_
        · refine Reach.step (State.gainPhase_reach ..) rfl ?_
          first | assumption | exact .refl
        · refine Reach.step (State.gainSeek_reach ..) rfl ?_
          first | assumption | exact .refl
      · first | assumption | exact .refl

abbrev State.syncWindows_parts : List Part :=
  [.regs, .doms]
theorem State.syncWindows_reach (s : State) (d : Nat) (a0 : Nat) (a1 : Nat) : Reach State.syncWindows_parts s (State.syncWindows s d a0 a1) := by
  unfold State.syncWindows
  refine Reach.ite ?_ ?_
  · extract_lets -underBinder -merge +onlyGivenNames x1 x2 x3 s4
    have hs4 : Reach State.syncWindows_parts s s4 := by
      unfold s4
      refine Reach.ite ?_ ?_
      · first | assumption | exact .refl
      · refine Reach.step (State.bumpBy_reach ..) rfl ?_
        refine Reach.step (State.raise_reach ..) rfl ?_
        first | assumption | exact .refl
    refine Reach.step (State.modDom_reach ..) rfl ?_
    first | assumption | exact .refl
  · first | assumption | exact .refl

theorem State.flipStep_reach (s : State) (d : Nat) : Reach [.doms] s (State.flipStep s d).1 := by
  unfold State.flipStep
  extract_lets -underBinder -merge +onlyGivenNames x1 x2
  refine Reach.fstMk ?_
  refine Reach.step (State.modDom_reach ..) rfl ?_
  first | assumption | exact .refl

abbrev State.turnStep_parts : List Part :=
  [.doms, .regs]
theorem State.turnStep_reach (s : State) (d : Nat) (stamp : Nat) : Reach State.turnStep_parts s (State.turnStep s d stamp) := by
  unfold State.turnStep
  extract_lets -underBinder -merge +onlyGivenNames s1
  have hs1 : Reach State.turnStep_parts s s1 := by
    unfold s1
    refine Reach.ite ?_ ?_
    · refine Reach.step (State.modDom_reach ..) rfl ?_
      first | assumption | exact .refl
    · first | assumption | exact .refl
  refine Reach.step (State.learnRev_reach ..) rfl ?_
  first | assumption | exact .refl

abbrev State.syncLoad_parts : List Part :=
  [.regs, .doms, .pair, .mem, .svcs, .seqs, .change, .logNew, .chans, .hold3, .hold2, .pwms, .dataIn, .basins,
   .power]
theorem State.syncLoad_reach (s : State) (d : Nat) (stamp : Nat) (t : Nat) (tc : Nat) (k : Nat) (j : Nat) (v : Nat) (aInt : Nat) (coarse : Bool) : Reach State.syncLoad_parts s (State.syncLoad s d stamp t tc k j v aInt coarse) := by
  unfold State.syncLoad
  extract_lets -underBinder -merge +onlyGivenNames x1 x2 s3 x4 s5 s6 s7 s8 s9
  have hs3 : Reach State.syncLoad_parts s s3 := by
    unfold s3
    refine Reach.step (State.putErr_reach ..) rfl ?_
    first | assumption | exact .refl
  have hs5 : Reach State.syncLoad_parts s s5 := by
    unfold s5
    refine Reach.step (State.modDom_reach ..) rfl ?_
    refine Reach.step (State.limited_reach ..) rfl ?_
    first | assumption | exact .refl
  have hs6 : Reach State.syncLoad_parts s s6 := by
    unfold s6
    refine Reach.step (State.learnInterval_reach ..) rfl ?_
    first | assumption | exact .refl
  have hs7 : Reach State.syncLoad_parts s s7 := by
    unfold s7
    refine Reach.ite ?_ ?_
    · refine Reach.step (State.turnStep_reach ..) rfl ?_
      first | assumption | exact .refl
    · first | assumption | exact .refl
  have hs8 : Reach State.syncLoad_parts s s8 := by
    unfold s8
    refine Reach.step (State.formDigest_reach ..) rfl ?_
    refine Reach.step (State.learnWrite_reach ..) rfl ?_
    first | assumption | exact .refl
  have hs9 : Reach State.syncLoad_parts s s9 := by
    unfold s9
    refine Reach.step (State.loadStep_reach ..) rfl ?_
    first | assumption | exact .refl
  refine Reach.step (State.toothEvent_reach ..) rfl ?_
  first | assumption | exact .refl

abbrev State.edgeLoss_parts : List Part :=
  [.seqs, .regs, .change, .chans, .mem, .dataIn, .svcs, .logNew, .doms, .pair, .hold3, .hold2, .basins, .pwms,
   .power]
theorem State.edgeLoss_reach (s : State) (d : Nat) (cause : Nat) (stamp : Nat) : Reach State.edgeLoss_parts s (State.edgeLoss s d cause stamp) := by
  unfold State.edgeLoss
  extract_lets -underBinder -merge +onlyGivenNames s1
  have hs1 : Reach State.edgeLoss_parts s s1 := by
    unfold s1
    refine Reach.step (State.syncLoss_reach ..) rfl ?_
    first | assumption | exact .refl
  refine Reach.ite ?_ ?_
  · refine Reach.step (State.seedHyps_reach ..) rfl ?_
    first | assumption | exact .refl
  · first | assumption | exact .refl

abbrev State.edgeSync_parts : List Part :=
  [.regs, .seqs, .change, .chans, .mem, .dataIn, .svcs, .logNew, .doms, .pair, .hold3, .hold2, .basins, .pwms,
   .power]
theorem State.edgeSync_reach (s : State) (d : Nat) (stamp : Nat) (t : Nat) (coarse : Bool) : Reach State.edgeSync_parts s (State.edgeSync s d stamp t coarse) := by
  unfold State.edgeSync
  extract_lets -underBinder -merge +onlyGivenNames x1 x2 x3 x4 x5 x6 s7
  have hs7 : Reach State.edgeSync_parts s s7 := by
    unfold s7
    refine Reach.step (State.putRatio_reach ..) rfl ?_
    first | assumption | exact .refl
  refine Reach.ite ?_ ?_
  · extract_lets -underBinder -merge +onlyGivenNames x8 s9
    have hs9 : Reach State.edgeSync_parts s s9 := by
      unfold s9
      refine Reach.step (State.setFld_reach ..) rfl ?_
      refine Reach.step (State.setFld_reach ..) rfl ?_
      first | assumption | exact .refl
    refine Reach.step (State.edgeLoss_reach ..) rfl ?_
    first | assumption | exact .refl
  · extract_lets -underBinder -merge +onlyGivenNames s10 s11 p12
    have hs10 : Reach State.edgeSync_parts s s10 := by
      unfold s10
      refine Reach.step (State.syncWindows_reach ..) rfl ?_
      first | assumption | exact .refl
    have hs11 : Reach State.edgeSync_parts s s11 := by
      unfold s11
      refine Reach.step (State.setFld_reach ..) rfl ?_
      refine Reach.step (State.setFld_reach ..) rfl ?_
      first | assumption | exact .refl
    have hp12 : Reach State.edgeSync_parts s p12.1 := by
      unfold p12
      split
      · refine Reach.step (State.flipStep_reach ..) rfl ?_
        first | assumption | exact .refl
      · refine Reach.fstMk ?_
        first | assumption | exact .refl
    refine Reach.ite ?_ ?_
    · refine Reach.step (State.edgeLoss_reach ..) rfl ?_
      first | assumption | exact .refl
    · refine Reach.step (State.syncLoad_reach ..) rfl ?_
      first | assumption | exact .refl

abbrev State.putPeriod_parts : List Part :=
  [.regs, .doms]
theorem State.putPeriod_reach (s : State) (d : Nat) (t : Nat) (coarse : Bool) : Reach State.putPeriod_parts s (State.putPeriod s d t coarse) := by
  unfold State.putPeriod
  extract_lets -underBinder -merge +onlyGivenNames s1 s2
  have hs1 : Reach State.putPeriod_parts s s1 := by
    unfold s1
    refine Reach.step (State.setFld_reach ..) rfl ?_
    first | assumption | exact .refl
  have hs2 : Reach State.putPeriod_parts s s2 := by
    unfold s2
    refine Reach.ite ?_ ?_
    · refine Reach.step (State.raise_reach ..) rfl ?_
      first | assumption | exact .refl
    · first | assumption | exact .refl
  refine Reach.step (State.modDom_reach ..) rfl ?_
  first | assumption | exact .refl

abbrev State.primaryEdge_parts : List Part :=
  [.doms, .regs, .power, .seqs, .change, .chans, .mem, .dataIn, .svcs, .logNew, .pair, .hold3, .hold2, .basins,
   .pwms]
theorem State.primaryEdge_reach (s : State) (d : Nat) : Reach State.primaryEdge_parts s (State.primaryEdge s d) := by
  unfold State.primaryEdge
  extract_lets -underBinder -merge +onlyGivenNames x1
  split
  · first | assumption | exact .refl
  · refine Reach.ite ?_ ?_
    · first | assumption | exact .refl
    · extract_lets -underBinder -merge +onlyGivenNames s2
      have hs2 : Reach State.primaryEdge_parts s s2 := by
        unfold s2
        refine Reach.step (State.modInput_reach ..) rfl ?_
        first | assumption | exact .refl
      split
      · refine Reach.ite ?_ ?_
        · refine Reach.step (State.edgeNosync_reach ..) rfl ?_
          first | assumption | exact .refl
        · first | assumption | exact .refl
      · extract_lets -underBinder -merge +onlyGivenNames x3 s4
        have hs4 : Reach State.primaryEdge_parts s s4 := by
          unfold s4
          refine Reach.step (State.putPeriod_reach ..) rfl ?_
          first | assumption | exact .refl
        refine Reach.ite ?_ ?_
        · refine Reach.step (State.edgeNosync_reach ..) rfl ?_
          first | assumption | exact .refl
        · refine Reach.ite ?_ ?_
          · refine Reach.step (State.edgeSync_reach ..) rfl ?_
            first | assumption | exact .refl
          · refine Reach.step (State.edgeAcquire_reach ..) rfl ?_
            first | assumption | exact .refl

abbrev State.phaseSeek_parts : List Part :=
  [.doms, .regs]
theorem State.phaseSeek_reach (s : State) (d : Nat) (stamp : Nat) : Reach State.phaseSeek_parts s (State.phaseSeek s d stamp) := by
  unfold State.phaseSeek
  extract_lets -underBinder -merge +onlyGivenNames x1 x2 x3 s4
  have hs4 : Reach State.phaseSeek_parts s s4 := by
    unfold s4
    refine Reach.step (State.modDom_reach ..) rfl ?_
    first | assumption | exact .refl
  refine Reach.ite ?_ ?_
  · refine Reach.step (State.restartAcq_reach ..) rfl ?_
    first | assumption | exact .refl
  · first | assumption | exact .refl

abbrev State.phaseSync_parts : List Part :=
  [.regs, .doms]
theorem State.phaseSync_reach (s : State) (d : Nat) (stamp : Nat) : Reach State.phaseSync_parts s (State.phaseSync s d stamp) := by
  unfold State.phaseSync
  refine Reach.ite ?_ ?_
  · extract_lets -underBinder -merge +onlyGivenNames x1 x2 x3 x4 x5 s6
    have hs6 : Reach State.phaseSync_parts s s6 := by
      unfold s6
      refine Reach.ite ?_ ?_
      · refine Reach.step (State.bump_reach ..) rfl ?_
        refine Reach.step (State.raise_reach ..) rfl ?_
        first | assumption | exact .refl
      · first | assumption | exact .refl
    refine Reach.step (State.modDom_reach ..) rfl ?_
    first | assumption | exact .refl
  · first | assumption | exact .refl

abbrev State.phaseOnly_parts : List Part :=
  [.regs, .doms, .pair, .svcs, .seqs, .change, .logNew, .chans, .hold3, .hold2, .pwms, .mem, .dataIn, .basins,
   .power]
theorem State.phaseOnly_reach (s : State) (d : Nat) (stamp : Nat) (t : Nat) (j : Nat) : Reach State.phaseOnly_parts s (State.phaseOnly s d stamp t j) := by
  unfold State.phaseOnly
  extract_lets -underBinder -merge +onlyGivenNames x1 x2 x3 s4 x5 s6 s7 s8
  have hs4 : Reach State.phaseOnly_parts s s4 := by
    unfold s4
    refine Reach.step (State.putErr_reach ..) rfl ?_
    first | assumption | exact .refl
  have hs6 : Reach State.phaseOnly_parts s s6 := by
    unfold s6
    refine Reach.step (State.modDom_reach ..) rfl ?_
    refine Reach.step (State.limited_reach ..) rfl ?_
    first | assumption | exact .refl
  have hs7 : Reach State.phaseOnly_parts s s7 := by
    unfold s7
    refine Reach.step (State.formDigest_reach ..) rfl ?_
    first | assumption | exact .refl
  have hs8 : Reach State.phaseOnly_parts s s8 := by
    unfold s8
    refine Reach.step (State.loadStep_reach ..) rfl ?_
    first | assumption | exact .refl
  refine Reach.step (State.toothEvent_reach ..) rfl ?_
  first | assumption | exact .refl

theorem State.limpEdge_reach (s : State) (d : Nat) : Reach [.doms] s (State.limpEdge s d) := by
  unfold State.limpEdge
  refine Reach.ite ?_ ?_
  · refine Reach.step (State.modDom_reach ..) rfl ?_
    first | assumption | exact .refl
  · first | assumption | exact .refl

abbrev State.phaseEdge_parts : List Part :=
  [.doms, .regs, .seqs, .change, .chans, .mem, .dataIn, .svcs, .logNew, .pair, .hold3, .hold2, .basins, .pwms,
   .power]
theorem State.phaseEdge_reach (s : State) (d : Nat) : Reach State.phaseEdge_parts s (State.phaseEdge s d) := by
  unfold State.phaseEdge
  extract_lets -underBinder -merge +onlyGivenNames x1
  split
  · first | assumption | exact .refl
  · refine Reach.ite ?_ ?_
    · first | assumption | exact .refl
    · extract_lets -underBinder -merge +onlyGivenNames x2 p3 s4 s5 s6
      have hp3 : Reach State.phaseEdge_parts s p3.1 := by
        unfold p3
        split
        · refine Reach.step (State.trackEdge_reach ..) rfl ?_
          first | assumption | exact .refl
        · refine Reach.fstMk ?_
          first | assumption | exact .refl
      have hs4 : Reach State.phaseEdge_parts s s4 := by
        unfold s4
        refine Reach.step (State.modInput_reach ..) rfl ?_
        first | assumption | exact .refl
      have hs5 : Reach State.phaseEdge_parts s s5 := by
        unfold s5
        refine Reach.ite ?_ ?_
        · refine Reach.step (State.setFld_reach ..) rfl ?_
          refine Reach.step (State.raise_reach ..) rfl ?_
          first | assumption | exact .refl
        · first | assumption | exact .refl
      have hs6 : Reach State.phaseEdge_parts s s6 := by
        unfold s6
        refine Reach.step (State.limpEdge_reach ..) rfl ?_
        first | assumption | exact .refl
      refine Reach.ite ?_ ?_
      · refine Reach.step (State.phaseSeek_reach ..) rfl ?_
        first | assumption | exact .refl
      · refine Reach.ite ?_ ?_
        · refine Reach.step (State.phaseSync_reach ..) rfl ?_
          first | assumption | exact .refl
        · refine Reach.ite ?_ ?_
          · refine Reach.ite ?_ ?_
            · refine Reach.step (State.syncLoss_reach ..) rfl ?_
              first | assumption | exact .refl
            · clear_value x2
              split
              · refine Reach.step (State.phaseOnly_reach ..) rfl ?_
                first | assumption | exact .refl
              · first | assumption | exact .refl
          · first | assumption | exact .refl

theorem State.stallEvent_reach (s : State) (d : Nat) : Reach [.regs, .doms, .seqs, .change, .chans, .mem, .dataIn, .svcs, .logNew, .pair, .hold3, .hold2, .basins, .pwms, .power] s (State.stallEvent s d) := by
  unfold State.stallEvent
  refine Reach.ite ?_ ?_
  · refine Reach.ite ?_ ?_
    · refine Reach.step (State.seekReturn_reach ..) rfl ?_
      first | assumption | exact .refl
    · refine Reach.ite ?_ ?_
      · refine Reach.step (State.syncLoss_reach ..) rfl ?_
        first | assumption | exact .refl
      · first | assumption | exact .refl
  · first | assumption | exact .refl

theorem State.desyncCmd_reach (s : State) (d : Nat) : Reach [.regs, .doms, .seqs, .change, .chans, .mem, .dataIn, .svcs, .logNew, .pair, .hold3, .hold2, .basins, .pwms, .power] s (State.desyncCmd s d) := by
  unfold State.desyncCmd
  refine Reach.ite ?_ ?_
  · refine Reach.step (State.seekReturn_reach ..) rfl ?_
    first | assumption | exact .refl
  · refine Reach.ite ?_ ?_
    · refine Reach.step (State.syncLoss_reach ..) rfl ?_
      first | assumption | exact .refl
    · first | assumption | exact .refl

theorem State.reseedCmd_reach (s : State) (d : Nat) : Reach [.regs, .doms] s (State.reseedCmd s d) := by
  unfold State.reseedCmd
  refine Reach.ite ?_ ?_
  · refine Reach.step (State.restartAcq_reach ..) rfl ?_
    first | assumption | exact .refl
  · first | assumption | exact .refl

theorem State.clampEvent_reach (s : State) (d : Nat) : Reach [.doms, .regs] s (State.clampEvent s d) := by
  unfold State.clampEvent
  extract_lets -underBinder -merge +onlyGivenNames x1
  refine Reach.ite ?_ ?_
  · refine Reach.step (State.modDom_reach ..) rfl ?_
    refine Reach.step (State.bump_reach ..) rfl ?_
    first | assumption | exact .refl
  · first | assumption | exact .refl

end Sys2Proof.Machine
end

