-- ==== Sys2Proof/Laws/ReachEngines.lean ====
section
/-! SUPPORT. One lemma per operation: what measurements, instructions, engines and the pair write. -/

namespace Sys2Proof.Machine

/-! ### Measure.lean -/

theorem State.keepConv_reach (s : State) (k : Nat) : Reach [.adcs] s (State.keepConv s k) := by
  unfold State.keepConv
  refine Reach.ite ?_ ?_
  · refine Reach.step (State.modAdc_reach ..) rfl ?_
    first | assumption | exact .refl
  · first | assumption | exact .refl

abbrev State.commitTransfer_parts : List Part :=
  [.regs, .adcs]
theorem State.commitTransfer_reach (s : State) (k : Nat) : Reach State.commitTransfer_parts s (State.commitTransfer s k) := by
  unfold State.commitTransfer
  extract_lets -underBinder -merge +onlyGivenNames s1 x2
  have hs1 : Reach State.commitTransfer_parts s s1 := by
    unfold s1
    refine Reach.step (State.putFlag_reach ..) rfl ?_
    first | assumption | exact .refl
  refine Reach.ite ?_ ?_
  · refine Reach.step (State.modAdc_reach ..) rfl ?_
    first | assumption | exact .refl
  · refine Reach.step (State.raise_reach ..) rfl ?_
    first | assumption | exact .refl

theorem State.adcCommit_reach (s : State) (k : Nat) : Reach [.regs, .adcs] s (State.adcCommit s k) := by
  unfold State.adcCommit
  refine Reach.ite ?_ ?_
  · first | assumption | exact .refl
  · refine Reach.ite ?_ ?_
    · refine Reach.step (State.raise_reach ..) rfl ?_
      first | assumption | exact .refl
    · refine Reach.step (State.commitTransfer_reach ..) rfl ?_
      refine Reach.step (State.keepConv_reach ..) rfl ?_
      first | assumption | exact .refl

theorem State.calStart_reach (s : State) (k : Nat) : Reach [.adcs, .regs] s (State.calStart s k) := by
  unfold State.calStart
  refine Reach.step (State.modAdc_reach ..) rfl ?_
  refine Reach.step (State.putFlag_reach ..) rfl ?_
  refine Reach.step (State.raise_reach ..) rfl ?_
  first | assumption | exact .refl

theorem State.adcCal_reach (s : State) (k : Nat) : Reach [.adcs, .regs] s (State.adcCal s k) := by
  unfold State.adcCal
  refine Reach.ite ?_ ?_
  · refine Reach.step (State.calStart_reach ..) rfl ?_
    first | assumption | exact .refl
  · first | assumption | exact .refl

theorem State.adcFltReset_reach (s : State) (k : Nat) : Reach [.adcs] s (State.adcFltReset s k) := by
  unfold State.adcFltReset
  refine Reach.step (State.modAdc_reach ..) rfl ?_
  first | assumption | exact .refl

abbrev State.calDone_parts : List Part :=
  [.regs]
theorem State.calDone_reach (s : State) (p : Nat) (skew : Option (BitVec 16)) : Reach State.calDone_parts s (State.calDone s p skew) := by
  unfold State.calDone
  extract_lets -underBinder -merge +onlyGivenNames x1
  refine Reach.ite ?_ ?_
  · extract_lets -underBinder -merge +onlyGivenNames s2 x3
    have hs2 : Reach State.calDone_parts s s2 := by
      unfold s2
      refine Reach.step (State.putFlag_reach ..) rfl ?_
      first | assumption | exact .refl
    clear_value x3
    split
    · refine Reach.step (State.putFlag_reach ..) rfl ?_
      refine Reach.step (State.setFld_reach ..) rfl ?_
      first | assumption | exact .refl
    · refine Reach.step (State.raise_reach ..) rfl ?_
      first | assumption | exact .refl
  · first | assumption | exact .refl

abbrev State.setIlv_parts : List Part :=
  [.regs, .adcs]
theorem State.setIlv_reach (s : State) (k : Nat) (b : Bool) : Reach State.setIlv_parts s (State.setIlv s k b) := by
  unfold State.setIlv
  extract_lets -underBinder -merge +onlyGivenNames s1
  have hs1 : Reach State.setIlv_parts s s1 := by
    unfold s1
    refine Reach.step (State.putFlag_reach ..) rfl ?_
    refine Reach.step (State.putFlag_reach ..) rfl ?_
    first | assumption | exact .refl
  refine Reach.step (State.modAdc_reach ..) rfl ?_
  first | assumption | exact .refl

abbrev State.adcCfg_parts : List Part :=
  [.mspi, .regs, .adcs]
theorem State.adcCfg_reach (s : State) (src : Nat) (off : Nat) (be : Nat) (k : Nat) (v : Nat) : Reach State.adcCfg_parts s (State.adcCfg s src off be k v) := by
  unfold State.adcCfg
  extract_lets -underBinder -merge +onlyGivenNames x1 x2 x3 s4 s5 s6 s7
  have hs4 : Reach State.adcCfg_parts s s4 := by
    unfold s4
    refine Reach.ite ?_ ?_
    · refine Reach.step (State.accessErr_reach ..) rfl ?_
      first | assumption | exact .refl
    · first | assumption | exact .refl
  have hs5 : Reach State.adcCfg_parts s s5 := by
    unfold s5
    refine Reach.ite ?_ ?_
    · refine Reach.step (State.setIlv_reach ..) rfl ?_
      first | assumption | exact .refl
    · first | assumption | exact .refl
  have hs6 : Reach State.adcCfg_parts s s6 := by
    unfold s6
    refine Reach.step (State.setFld_reach ..) rfl ?_
    first | assumption | exact .refl
  have hs7 : Reach State.adcCfg_parts s s7 := by
    unfold s7
    refine Reach.step (State.setFld_reach ..) rfl ?_
    first | assumption | exact .refl
  refine Reach.ite ?_ ?_
  · first | assumption | exact .refl
  · refine Reach.ite ?_ ?_
    · extract_lets -underBinder -merge +onlyGivenNames s8
      have hs8 : Reach State.adcCfg_parts s s8 := by
        unfold s8
        refine Reach.step (State.modAdc_reach ..) rfl ?_
        refine Reach.step (State.raise_reach ..) rfl ?_
        refine Reach.step (State.keepConv_reach ..) rfl ?_
        first | assumption | exact .refl
      refine Reach.ite ?_ ?_
      · refine Reach.step (State.calStart_reach ..) rfl ?_
        first | assumption | exact .refl
      · first | assumption | exact .refl
    · refine Reach.ite ?_ ?_
      · refine Reach.step (State.putFlag_reach ..) rfl ?_
        first | assumption | exact .refl
      · first | assumption | exact .refl

abbrev State.ainCfg_parts : List Part :=
  [.regs, .settle]
theorem State.ainCfg_reach (s : State) (a : Nat) (v : Nat) : Reach State.ainCfg_parts s (State.ainCfg s a v) := by
  unfold State.ainCfg
  refine Reach.ite ?_ ?_
  · extract_lets -underBinder -merge +onlyGivenNames s1 x2
    have hs1 : Reach State.ainCfg_parts s s1 := by
      unfold s1
      refine Reach.step (State.setFld_reach ..) rfl ?_
      refine Reach.step (State.setFld_reach ..) rfl ?_
      first | assumption | exact .refl
    refine Reach.write ?_ (by decide) (.settle _ (by first | exact fun h => Tab.rising_put _ _ h | exact fun h => h))
    first | assumption | exact .refl
  · first | assumption | exact .refl

abbrev State.takeSample_parts : List Part :=
  [.regs, .adcs, .basins]
theorem State.takeSample_reach (s : State) (k : Nat) (c : Nat) (e : Nat) (source : Nat) (code : Nat) (inst : Nat) : Reach State.takeSample_parts s (State.takeSample s k c e source code inst) := by
  unfold State.takeSample
  refine Reach.ite ?_ ?_
  · refine Reach.step (State.raise_reach ..) rfl ?_
    first | assumption | exact .refl
  · extract_lets -underBinder -merge +onlyGivenNames x1
    refine Reach.ite ?_ ?_
    · extract_lets -underBinder -merge +onlyGivenNames p2
      have hp2 : Reach State.takeSample_parts s p2.1 := by
        unfold p2
        refine Reach.step (State.filter_reach ..) rfl ?_
        first | assumption | exact .refl
      refine Reach.step (State.deliverSample_reach ..) rfl ?_
      first | assumption | exact .refl
    · refine Reach.step (State.deliverSample_reach ..) rfl ?_
      first | assumption | exact .refl

abbrev State.convEnd_parts : List Part :=
  [.adcs, .regs]
theorem State.convEnd_reach (s : State) (k : Nat) : Reach State.convEnd_parts s (State.convEnd s k) := by
  unfold State.convEnd
  extract_lets -underBinder -merge +onlyGivenNames x1 x2 x3 s4 x5 s6
  have hs4 : Reach State.convEnd_parts s s4 := by
    unfold s4
    refine Reach.step (State.modAdc_reach ..) rfl ?_
    first | assumption | exact .refl
  have hs6 : Reach State.convEnd_parts s s6 := by
    unfold s6
    refine Reach.ite ?_ ?_
    · refine Reach.step (State.putFlag_reach ..) rfl ?_
      first | assumption | exact .refl
    · first | assumption | exact .refl
  refine Reach.ite ?_ ?_
  · refine Reach.step (State.commitTransfer_reach ..) rfl ?_
    first | assumption | exact .refl
  · first | assumption | exact .refl

theorem State.adcConvert_reach (s : State) (k : Nat) (code : Nat) (inst : Nat) : Reach [.adcs, .regs, .basins] s (State.adcConvert s k code inst) := by
  unfold State.adcConvert
  extract_lets -underBinder -merge +onlyGivenNames x1 x2
  refine Reach.ite ?_ ?_
  · refine Reach.ite ?_ ?_
    · extract_lets -underBinder -merge +onlyGivenNames x3
      refine Reach.step (State.convEnd_reach ..) rfl ?_
      refine Reach.ite ?_ ?_
      · first | assumption | exact .refl
      · refine Reach.step (State.takeSample_reach ..) rfl ?_
        first | assumption | exact .refl
    · first | assumption | exact .refl
  · refine Reach.ite ?_ ?_
    · refine Reach.step (State.takeSample_reach ..) rfl ?_
      first | assumption | exact .refl
    · first | assumption | exact .refl

abbrev State.basCfg_parts : List Part :=
  [.mspi, .regs, .basins]
theorem State.basCfg_reach (s : State) (src : Nat) (off : Nat) (be : Nat) (k : Nat) (v : Nat) : Reach State.basCfg_parts s (State.basCfg s src off be k v) := by
  unfold State.basCfg
  refine Reach.ite ?_ ?_
  · extract_lets -underBinder -merge +onlyGivenNames s1
    have hs1 : Reach State.basCfg_parts s s1 := by
      unfold s1
      refine Reach.ite ?_ ?_
      · refine Reach.step (State.accessErr_reach ..) rfl ?_
        first | assumption | exact .refl
      · first | assumption | exact .refl
    refine Reach.ite ?_ ?_
    · first | assumption | exact .refl
    · refine Reach.step (State.putFlag_reach ..) rfl ?_
      refine Reach.step (State.basAbort_reach ..) rfl ?_
      first | assumption | exact .refl
  · extract_lets -underBinder -merge +onlyGivenNames s2
    have hs2 : Reach State.basCfg_parts s s2 := by
      unfold s2
      refine Reach.foldl _ _ (fun u3 y3 hu3 => ?_) ?_
      · refine Reach.step (State.setFld_reach ..) rfl ?_
        first | assumption | exact .refl
      · first | assumption | exact .refl
    refine Reach.ite ?_ ?_
    · refine Reach.ite ?_ ?_
      · refine Reach.step (State.raise_reach ..) rfl ?_
        first | assumption | exact .refl
      · refine Reach.step (State.modBasin_reach ..) rfl ?_
        refine Reach.step (State.raise_reach ..) rfl ?_
        first | assumption | exact .refl
    · first | assumption | exact .refl

theorem State.basCmd_reach (s : State) (k : Nat) (v : Nat) : Reach [.regs, .basins] s (State.basCmd s k v) := by
  unfold State.basCmd
  refine Reach.step (State.basAction_reach ..) rfl ?_
  first | assumption | exact .refl

theorem State.basinLatch_reach (s : State) (k : Nat) : Reach [.regs, .basins, .feeds] s (State.basinLatch s k) := by
  unfold State.basinLatch
  split
  · split
    · refine Reach.ite ?_ ?_
      · refine Reach.step (State.basLatch_reach ..) rfl ?_
        refine Reach.step (State.putWins_reach ..) rfl ?_
        first | assumption | exact .refl
      · first | assumption | exact .refl
    · first | assumption | exact .refl
  · first | assumption | exact .refl

theorem State.readBegin_reach (s : State) (src : Nat) (k : Nat) : Reach [.basins] s (State.readBegin s src k) := by
  unfold State.readBegin
  refine Reach.step (State.modBasin_reach ..) rfl ?_
  first | assumption | exact .refl

theorem State.readEnd_reach (s : State) (src : Nat) (k : Nat) : Reach [.basins] s (State.readEnd s src k) := by
  unfold State.readEnd
  refine Reach.step (State.modBasin_reach ..) rfl ?_
  first | assumption | exact .refl

theorem State.readTimeout_reach (s : State) (src : Nat) (k : Nat) : Reach [.basins] s (State.readTimeout s src k) := by
  unfold State.readTimeout
  split
  · refine Reach.ite ?_ ?_
    · refine Reach.step (State.readEnd_reach ..) rfl ?_
      first | assumption | exact .refl
    · first | assumption | exact .refl
  · first | assumption | exact .refl

theorem State.trkRead_reach (s : State) (src : Nat) (k : Nat) : Reach [.trkLatch] s (State.trkRead s src k) := by
  unfold State.trkRead
  extract_lets -underBinder -merge +onlyGivenNames x1 x2
  refine Reach.write ?_ (by decide) (.trkLatch _ (by first | exact fun h => Tab.rising_put _ _ h | exact fun h => h))
  first | assumption | exact .refl

theorem State.trkCfg_reach (s : State) (k : Nat) (v : Nat) : Reach [.regs] s (State.trkCfg s k v) := by
  unfold State.trkCfg
  extract_lets -underBinder -merge +onlyGivenNames x1
  refine Reach.step (State.putFlag_reach ..) rfl ?_
  refine Reach.foldl _ _ (fun u2 y2 hu2 => ?_) ?_
  · refine Reach.step (State.setFld_reach ..) rfl ?_
    first | assumption | exact .refl
  · first | assumption | exact .refl

theorem State.wtSwap_reach (s : State) (d : Nat) : Reach [.regs] s (State.wtSwap s d) := by
  unfold State.wtSwap
  refine Reach.step (State.raise_reach ..) rfl ?_
  first | assumption | exact .refl

abbrev State.weightBoundary_parts : List Part :=
  [.regs, .weightSwap]
theorem State.weightBoundary_reach (s : State) (d : Nat) : Reach State.weightBoundary_parts s (State.weightBoundary s d) := by
  unfold State.weightBoundary
  refine Reach.ite ?_ ?_
  · extract_lets -underBinder -merge +onlyGivenNames s1 s2
    have hs1 : Reach State.weightBoundary_parts s s1 := by
      unfold s1
      refine Reach.step (State.setFld_reach ..) rfl ?_
      first | assumption | exact .refl
    have hs2 : Reach State.weightBoundary_parts s s2 := by
      unfold s2
      refine Reach.step (State.raise_reach ..) rfl ?_
      refine Reach.step (State.putFlag_reach ..) rfl ?_
      first | assumption | exact .refl
    refine Reach.write ?_ (by decide) (.weightSwap _ (by first | exact fun h => Tab.rising_put _ _ h | exact fun h => h))
    first | assumption | exact .refl
  · first | assumption | exact .refl

theorem State.settleEnd_reach (s : State) (d : Nat) : Reach [.regs] s (State.settleEnd s d) := by
  unfold State.settleEnd
  split
  · refine Reach.ite ?_ ?_
    · refine Reach.step (State.putFlag_reach ..) rfl ?_
      first | assumption | exact .refl
    · first | assumption | exact .refl
  · first | assumption | exact .refl


/-! ### Phiad.lean -/

abbrev State.begin_parts : List Part :=
  [.regs, .seqs]
theorem State.begin_reach (s : State) (i : Issue) (ready : Nat) : Reach State.begin_parts s (State.begin s i ready) := by
  unfold State.begin
  extract_lets -underBinder -merge +onlyGivenNames s1 s2
  have hs1 : Reach State.begin_parts s s1 := by
    unfold s1
    refine Reach.step (State.bumpBy_reach ..) rfl ?_
    first | assumption | exact .refl
  have hs2 : Reach State.begin_parts s s2 := by
    unfold s2
    refine Reach.ite ?_ ?_
    · refine Reach.step (State.bump_reach ..) rfl ?_
      first | assumption | exact .refl
    · first | assumption | exact .refl
  refine Reach.step (State.modSeq_reach _ _ _ (fun q h => ?_)) rfl ?_
  · first | exact h | (simp_all [Seq.ok, Tab.rising, Tab.every]; done)
  · first | assumption | exact .refl

theorem State.atIssue_reach (s : State) (n : Nat) (o : PhOp) (w : Nat) : Reach [.tnow, .wsNs] s (State.atIssue s n o w) := by
  unfold State.atIssue
  refine Reach.step (State.passTo_reach ..) rfl ?_
  first | assumption | exact .refl

theorem State.phiad_reach (V : List Part) (s : State) (n : Nat) (o : PhOp) (body : State → Issue → State)
    (hb : ∀ t i, Reach V t (body t i)) : Reach (.tnow :: .wsNs :: .regs :: .seqs :: V) s (s.phiad n o body) := by
  unfold State.phiad
  extract_lets -underBinder -merge +onlyGivenNames q w
  split
  · exact ((State.atIssue_reach ..).mono (by simp +contextual)).trans
      (((State.begin_reach ..).mono (by simp +contextual)).trans ((hb _ _).mono fun p hp => by simp [hp]))
  · exact .refl

theorem State.result_reach (s : State) (i : Issue) (rd v lat : Nat) : Reach [.seqs] s (s.result i rd v lat) := by
  refine Reach.step (State.modSeq_reach _ _ _ fun q h => ?_) rfl (Reach.step (State.setX_reach ..) rfl .refl)
  by_cases hrd : rd = 0
  · simpa [hrd] using h
  · simp only [Seq.ok, Bool.and_eq_true] at h ⊢
    simp only [hrd, if_false]
    exact ⟨h.1, Tab.rising_put _ _ h.2⟩

theorem State.alu_reach (s : State) (i : Issue) (f : Nat → Nat → Nat → Nat) : Reach [.seqs] s (State.alu s i f) := by
  unfold State.alu
  refine Reach.step (State.result_reach ..) rfl ?_
  first | assumption | exact .refl

theorem State.aluImm_reach (s : State) (i : Issue) (f : Nat → Nat → Nat) : Reach [.seqs] s (State.aluImm s i f) := by
  unfold State.aluImm
  refine Reach.step (State.result_reach ..) rfl ?_
  first | assumption | exact .refl

theorem State.wide_reach (s : State) (i : Issue) (p : Nat) : Reach [.seqs] s (State.wide s i p) := by
  unfold State.wide
  extract_lets -underBinder -merge +onlyGivenNames x1
  refine Reach.step (State.result_reach ..) rfl ?_
  refine Reach.step (State.result_reach ..) rfl ?_
  first | assumption | exact .refl

theorem State.divBusy_reach (s : State) (i : Issue) (lat : Nat) : Reach [.seqs] s (State.divBusy s i lat) := by
  unfold State.divBusy
  refine Reach.step (State.modSeq_reach _ _ _ (fun q h => ?_)) rfl ?_
  · first | exact h | (simp_all [Seq.ok, Tab.rising, Tab.every]; done)
  · first | assumption | exact .refl

abbrev State.divide_parts : List Part :=
  [.seqs, .regs, .logNew, .change, .chans, .mem, .dataIn]
theorem State.divide_reach (s : State) (i : Issue) (f : Nat → Nat → Nat) (over0 : Nat) : Reach State.divide_parts s (State.divide s i f over0) := by
  unfold State.divide
  extract_lets -underBinder -merge +onlyGivenNames x1 s2
  have hs2 : Reach State.divide_parts s s2 := by
    unfold s2
    refine Reach.step (State.result_reach ..) rfl ?_
    refine Reach.step (State.divBusy_reach ..) rfl ?_
    first | assumption | exact .refl
  refine Reach.ite ?_ ?_
  · refine Reach.step (State.coreFault_reach ..) rfl ?_
    first | assumption | exact .refl
  · first | assumption | exact .refl

abbrev State.a2t_parts : List Part :=
  [.seqs, .regs, .logNew, .change, .chans, .mem, .dataIn]
theorem State.a2t_reach (s : State) (i : Issue) : Reach State.a2t_parts s (State.a2t s i) := by
  unfold State.a2t
  extract_lets -underBinder -merge +onlyGivenNames x1 x2 s3
  have hs3 : Reach State.a2t_parts s s3 := by
    unfold s3
    refine Reach.step (State.result_reach ..) rfl ?_
    refine Reach.step (State.divBusy_reach ..) rfl ?_
    first | assumption | exact .refl
  refine Reach.ite ?_ ?_
  · refine Reach.step (State.coreFault_reach ..) rfl ?_
    first | assumption | exact .refl
  · first | assumption | exact .refl

abbrev State.t2a_parts : List Part :=
  [.seqs, .regs, .logNew, .change, .chans, .mem, .dataIn]
theorem State.t2a_reach (s : State) (i : Issue) : Reach State.t2a_parts s (State.t2a s i) := by
  unfold State.t2a
  extract_lets -underBinder -merge +onlyGivenNames x1 x2 s3
  have hs3 : Reach State.t2a_parts s s3 := by
    unfold s3
    refine Reach.step (State.result_reach ..) rfl ?_
    first | assumption | exact .refl
  refine Reach.ite ?_ ?_
  · refine Reach.step (State.coreFault_reach ..) rfl ?_
    first | assumption | exact .refl
  · first | assumption | exact .refl

theorem State.jumpTo_reach (s : State) (i : Issue) (target : Int) : Reach [.seqs] s (State.jumpTo s i target) := by
  unfold State.jumpTo
  refine Reach.step (State.modSeq_reach _ _ _ (fun q h => ?_)) rfl ?_
  · first | exact h | (simp_all [Seq.ok, Tab.rising, Tab.every]; done)
  · first | assumption | exact .refl

theorem State.branch_reach (s : State) (i : Issue) (p : Nat → Nat → Bool) : Reach [.seqs] s (State.branch s i p) := by
  unfold State.branch
  refine Reach.ite ?_ ?_
  · refine Reach.step (State.jumpTo_reach ..) rfl ?_
    first | assumption | exact .refl
  · first | assumption | exact .refl

theorem State.addrFault_reach (s : State) (i : Issue) : Reach [.regs, .logNew, .seqs, .change, .chans, .mem, .dataIn] s (State.addrFault s i) := by
  unfold State.addrFault
  refine Reach.step (State.coreFault_reach ..) rfl ?_
  refine Reach.step (State.result_reach ..) rfl ?_
  first | assumption | exact .refl

theorem State.loadWord_reach (s : State) (i : Issue) : Reach [.seqs, .regs, .logNew, .change, .chans, .mem, .dataIn] s (State.loadWord s i) := by
  unfold State.loadWord
  extract_lets -underBinder -merge +onlyGivenNames x1
  refine Reach.ite ?_ ?_
  · refine Reach.step (State.result_reach ..) rfl ?_
    first | assumption | exact .refl
  · refine Reach.step (State.addrFault_reach ..) rfl ?_
    first | assumption | exact .refl

theorem State.storeWord_reach (s : State) (i : Issue) : Reach [.mem, .regs, .logNew, .seqs, .change, .chans, .dataIn] s (State.storeWord s i) := by
  unfold State.storeWord
  extract_lets -underBinder -merge +onlyGivenNames x1
  refine Reach.ite ?_ ?_
  · refine Reach.step (State.setBytes_reach ..) rfl ?_
    first | assumption | exact .refl
  · refine Reach.step (State.coreFault_reach ..) rfl ?_
    first | assumption | exact .refl

theorem State.postMap_reach (s : State) (i : Issue) (kind : MapKind) (addr : Nat) (input : Nat) : Reach [.seqs] s (State.postMap s i kind addr input) := by
  unfold State.postMap
  refine Reach.step (State.modSeq_reach _ _ _ (fun q h => ?_)) rfl ?_
  · first | exact h | (simp_all [Seq.ok, Tab.rising, Tab.every]; done)
  · first | assumption | exact .refl

theorem State.loadMap_reach (s : State) (i : Issue) (kind : MapKind) (align : Nat) : Reach [.seqs, .regs, .logNew, .change, .chans, .mem, .dataIn] s (State.loadMap s i kind align) := by
  unfold State.loadMap
  extract_lets -underBinder -merge +onlyGivenNames x1
  refine Reach.ite ?_ ?_
  · refine Reach.step (State.postMap_reach ..) rfl ?_
    first | assumption | exact .refl
  · refine Reach.step (State.addrFault_reach ..) rfl ?_
    first | assumption | exact .refl

theorem State.issueMap2_reach (s : State) (i : Issue) : Reach [.seqs, .regs, .logNew, .change, .chans, .mem, .dataIn] s (State.issueMap2 s i) := by
  unfold State.issueMap2
  extract_lets -underBinder -merge +onlyGivenNames x1
  refine Reach.ite ?_ ?_
  · refine Reach.step (State.postMap_reach ..) rfl ?_
    first | assumption | exact .refl
  · refine Reach.step (State.addrFault_reach ..) rfl ?_
    first | assumption | exact .refl

theorem State.mapEcc_reach (s : State) (r : MapReq) (e : Ecc) : Reach [.regs] s (State.mapEcc s r e) := by
  unfold State.mapEcc
  split
  · first | assumption | exact .refl
  · refine Reach.step (State.bumpBy_reach ..) rfl ?_
    first | assumption | exact .refl
  · refine Reach.step (State.setFld_reach ..) rfl ?_
    refine Reach.step (State.bumpBy_reach ..) rfl ?_
    first | assumption | exact .refl

abbrev State.mapTransaction_parts : List Part :=
  [.tnow, .wsNs, .regs, .mapm, .seqs, .logNew, .change, .chans, .mem, .dataIn]
theorem State.mapTransaction_reach (s : State) (n : Nat) (e : Ecc) : Reach State.mapTransaction_parts s (State.mapTransaction s n e) := by
  unfold State.mapTransaction
  split
  · refine Reach.ite ?_ ?_
    · extract_lets -underBinder -merge +onlyGivenNames x1 s2 x3 s4 x5 s6 s7 x8
      have hs2 : Reach State.mapTransaction_parts s s2 := by
        unfold s2
        refine Reach.step (State.passTo_reach ..) rfl ?_
        first | assumption | exact .refl
      have hs4 : Reach State.mapTransaction_parts s s4 := by
        unfold s4
        refine Reach.step (State.mapEcc_reach ..) rfl ?_
        first | assumption | exact .refl
      have hs6 : Reach State.mapTransaction_parts s s6 := by
        unfold s6
        refine Reach.write ?_ (by decide) (.mapm _)
        first | assumption | exact .refl
      have hs7 : Reach State.mapTransaction_parts s s7 := by
        unfold s7
        refine Reach.step (State.modSeq_reach _ _ _ (fun q h => ?_)) rfl ?_
        · first | exact h | (simp_all [Seq.ok, Tab.rising, Tab.every]; done)
        · first | assumption | exact .refl
      clear_value x3
      split
      · refine Reach.step (State.result_reach ..) rfl ?_
        first | assumption | exact .refl
      · refine Reach.step (State.coreFault_reach ..) rfl ?_
        refine Reach.step (State.result_reach ..) rfl ?_
        first | assumption | exact .refl
    · first | assumption | exact .refl
  · first | assumption | exact .refl

abbrev State.fetchFault_parts : List Part :=
  [.tnow, .wsNs, .regs, .logNew, .seqs, .change, .chans, .mem, .dataIn]
theorem State.fetchFault_reach (s : State) (n : Nat) (f : CoreFault) : Reach State.fetchFault_parts s (State.fetchFault s n f) := by
  unfold State.fetchFault
  extract_lets -underBinder -merge +onlyGivenNames x1 s2
  have hs2 : Reach State.fetchFault_parts s s2 := by
    unfold s2
    refine Reach.step (State.passTo_reach ..) rfl ?_
    first | assumption | exact .refl
  refine Reach.step (State.coreFault_reach ..) rfl ?_
  refine Reach.step (State.modSeq_reach _ _ _ (fun q h => ?_)) rfl ?_
  · first | exact h | (simp_all [Seq.ok, Tab.rising, Tab.every]; done)
  · first | assumption | exact .refl

theorem State.illegalStep_reach (s : State) (n : Nat) : Reach [.tnow, .wsNs, .regs, .logNew, .seqs, .change, .chans, .mem, .dataIn] s (State.illegalStep s n) := by
  unfold State.illegalStep
  refine Reach.ite ?_ ?_
  · refine Reach.step (State.fetchFault_reach ..) rfl ?_
    first | assumption | exact .refl
  · first | assumption | exact .refl

theorem State.progEccStep_reach (s : State) (n : Nat) (double : Bool) : Reach [.tnow, .wsNs, .regs, .logNew, .seqs, .change, .chans, .mem, .dataIn, .progErr] s (State.progEccStep s n double) := by
  unfold State.progEccStep
  refine Reach.ite ?_ ?_
  · refine Reach.ite ?_ ?_
    · refine Reach.step (State.fetchFault_reach ..) rfl ?_
      refine Reach.write ?_ (by decide) (.progErr _ (by first | exact fun h => Tab.rising_put _ _ h | exact fun h => h))
      first | assumption | exact .refl
    · refine Reach.write ?_ (by decide) (.progErr _ (by first | exact fun h => Tab.rising_put _ _ h | exact fun h => h))
      first | assumption | exact .refl
  · first | assumption | exact .refl

abbrev State.skipSlot_parts : List Part :=
  [.regs, .seqs]
theorem State.skipSlot_reach (s : State) (i : Issue) (o : PhOp) : Reach State.skipSlot_parts s (State.skipSlot s i o) := by
  unfold State.skipSlot
  extract_lets -underBinder -merge +onlyGivenNames s1
  have hs1 : Reach State.skipSlot_parts s s1 := by
    unfold s1
    refine Reach.step (State.taskFault_reach ..) rfl ?_
    first | assumption | exact .refl
  split
  · refine Reach.step (State.result_reach ..) rfl ?_
    first | assumption | exact .refl
  · first | assumption | exact .refl

theorem State.stallAt_reach (s : State) (i : Issue) (f : Seq → Seq) (hf : ∀ q : Seq, q.ok = true → (f q).ok = true) :
    Reach [.seqs] s (s.stallAt i f) :=
  State.modSeq_reach _ _ _ fun q h => hf _ (by simpa [Seq.ok] using h)

theorem State.withSlots_reach (V : List Part) (s : State) (i : Issue) (o : PhOp) (k : Nat) (go : State → State)
    (hg : ∀ t, Reach V t (go t)) : Reach (.regs :: .seqs :: V) s (s.withSlots i o k go) := by
  unfold State.withSlots
  split
  · exact (hg s).mono fun p hp => by simp [hp]
  · split
    · exact (State.stallAt_reach s i (fun q => { q with slotStall := true }) fun q h => h).mono (V := .regs :: .seqs :: V)
        (by simp +contextual)
    · exact (State.skipSlot_reach ..).mono (by simp +contextual)

theorem State.armBody_reach (s : State) (i : Issue) (timed : Bool) : Reach [.seqs, .regs] s (State.armBody s i timed) := by
  unfold State.armBody
  extract_lets -underBinder -merge +onlyGivenNames x1
  refine Reach.ite ?_ ?_
  · refine Reach.step (State.result_reach ..) rfl ?_
    refine Reach.step (State.taskFault_reach ..) rfl ?_
    first | assumption | exact .refl
  · refine Reach.step (State.withSlots_reach [.seqs, .regs] _ _ _ _ _ (fun t2 => ?_)) rfl ?_
    · extract_lets -underBinder -merge +onlyGivenNames x3 s4
      have hs4 : Reach [.seqs, .regs] t2 s4 := by
        unfold s4
        refine Reach.step (State.armSlot_reach ..) rfl ?_
        first | assumption | exact .refl
      refine Reach.step (State.result_reach ..) rfl ?_
      first | assumption | exact .refl
    · first | assumption | exact .refl

abbrev State.pulseBody_parts : List Part :=
  [.regs, .seqs]
theorem State.pulseBody_reach (s : State) (i : Issue) : Reach State.pulseBody_parts s (State.pulseBody s i) := by
  unfold State.pulseBody
  extract_lets -underBinder -merge +onlyGivenNames x1 x2 x3 x4
  refine Reach.ite ?_ ?_
  · extract_lets -underBinder -merge +onlyGivenNames s5
    have hs5 : Reach State.pulseBody_parts s s5 := by
      unfold s5
      refine Reach.ite ?_ ?_
      · refine Reach.step (State.taskFault_reach ..) rfl ?_
        first | assumption | exact .refl
      · first | assumption | exact .refl
    refine Reach.ite ?_ ?_
    · refine Reach.step (State.taskFault_reach ..) rfl ?_
      first | assumption | exact .refl
    · first | assumption | exact .refl
  · refine Reach.step (State.withSlots_reach [.seqs, .regs] _ _ _ _ _ (fun t6 => ?_)) rfl ?_
    · extract_lets -underBinder -merge +onlyGivenNames x7 x8 x9
      refine Reach.ite ?_ ?_
      · refine Reach.step (State.armSlot_reach ..) rfl ?_
        first | assumption | exact .refl
      · extract_lets -underBinder -merge +onlyGivenNames x10 s11 x12 s13
        have hs11 : Reach [.seqs, .regs] t6 s11 := by
          unfold s11
          refine Reach.step (State.armSlot_reach ..) rfl ?_
          first | assumption | exact .refl
        have hs13 : Reach [.seqs, .regs] t6 s13 := by
          unfold s13
          refine Reach.step (State.armSlot_reach ..) rfl ?_
          first | assumption | exact .refl
        refine Reach.step (State.setSlot_reach ..) rfl ?_
        first | assumption | exact .refl
    · first | assumption | exact .refl

abbrev State.cancelBody_parts : List Part :=
  [.chans, .regs, .seqs]
theorem State.cancelBody_reach (s : State) (i : Issue) (p : State → Slot → Nat → Bool) : Reach State.cancelBody_parts s (State.cancelBody s i p) := by
  unfold State.cancelBody
  extract_lets -underBinder -merge +onlyGivenNames p1
  have hp1 : Reach State.cancelBody_parts s p1.1 := by
    unfold p1
    refine Reach.foldlFst _ _ (fun u2 y2 hu2 => ?_) ?_
    · split
      · extract_lets -underBinder -merge +onlyGivenNames p3
        have hp3 : Reach State.cancelBody_parts s p3.1 := by
          unfold p3
          refine Reach.step (State.cancelSlot_reach ..) rfl ?_
          first | assumption | exact .refl
        refine Reach.fstMk ?_
        first | assumption | exact .refl
      · first | assumption | exact .refl
    · refine Reach.fstMk ?_
      first | assumption | exact .refl
  refine Reach.step (State.result_reach ..) rfl ?_
  first | assumption | exact .refl

theorem State.enterWait_reach (s : State) (n : Nat) (w : Wait) : Reach [.regs, .change, .seqs, .chans, .mem, .dataIn] s (State.enterWait s n w) := by
  unfold State.enterWait
  refine Reach.step (State.modeSettle_reach ..) rfl ?_
  refine Reach.step (State.modSeq_reach _ _ _ (fun q h => ?_)) rfl ?_
  · first | exact h | (simp_all [Seq.ok, Tab.rising, Tab.every]; done)
  · refine Reach.step (State.countRun_reach ..) rfl ?_
    first | assumption | exact .refl

theorem State.waitSlot_reach (s : State) (i : Issue) (timed : Bool) : Reach [.regs, .seqs, .change, .chans, .mem, .dataIn] s (State.waitSlot s i timed) := by
  unfold State.waitSlot
  refine Reach.step (State.withSlots_reach [.seqs, .regs, .change, .chans, .mem, .dataIn] _ _ _ _ _ (fun t1 => ?_)) rfl ?_
  · extract_lets -underBinder -merge +onlyGivenNames x2 s3
    have hs3 : Reach [.seqs, .regs, .change, .chans, .mem, .dataIn] t1 s3 := by
      unfold s3
      refine Reach.step (State.armSlot_reach ..) rfl ?_
      first | assumption | exact .refl
    refine Reach.step (State.enterWait_reach ..) rfl ?_
    first | assumption | exact .refl
  · first | assumption | exact .refl

theorem State.enterWaite_reach (s : State) (n : Nat) (w : Wait) : Reach [.seqs, .regs, .change, .chans, .mem, .dataIn] s (State.enterWaite s n w) := by
  unfold State.enterWaite
  refine Reach.step (State.swapSettle_reach ..) rfl ?_
  refine Reach.step (State.enterWait_reach ..) rfl ?_
  first | assumption | exact .refl

theorem State.waiteNow_reach (s : State) (i : Issue) (v : Nat) (tooth : Option Nat) (flags : Nat) : Reach [.seqs, .regs] s (State.waiteNow s i v tooth flags) := by
  unfold State.waiteNow
  refine Reach.step (State.swapSettle_reach ..) rfl ?_
  refine Reach.step (State.completeWaite_reach ..) rfl ?_
  first | assumption | exact .refl

abbrev State.waiteToothBody_parts : List Part :=
  [.regs, .seqs, .change, .chans, .mem, .dataIn]
theorem State.waiteToothBody_reach (s : State) (i : Issue) : Reach State.waiteToothBody_parts s (State.waiteToothBody s i) := by
  unfold State.waiteToothBody
  extract_lets -underBinder -merge +onlyGivenNames s1
  have hs1 : Reach State.waiteToothBody_parts s s1 := by
    unfold s1
    refine Reach.step (State.endTask_reach ..) rfl ?_
    first | assumption | exact .refl
  refine Reach.ite ?_ ?_
  · extract_lets -underBinder -merge +onlyGivenNames x2
    refine Reach.step (State.waiteNow_reach ..) rfl ?_
    refine Reach.step (State.beginTask_reach ..) rfl ?_
    refine Reach.step (State.dropTooth_reach ..) rfl ?_
    first | assumption | exact .refl
  · refine Reach.step (State.enterWaite_reach ..) rfl ?_
    first | assumption | exact .refl

theorem State.waiteIcuBody_reach (s : State) (i : Issue) : Reach [.seqs, .regs, .change, .chans, .mem, .dataIn] s (State.waiteIcuBody s i) := by
  unfold State.waiteIcuBody
  extract_lets -underBinder -merge +onlyGivenNames x1
  refine Reach.ite ?_ ?_
  · refine Reach.step (State.waiteNow_reach ..) rfl ?_
    refine Reach.step (State.taskFault_reach ..) rfl ?_
    first | assumption | exact .refl
  · refine Reach.ite ?_ ?_
    · refine Reach.step (State.waiteNow_reach ..) rfl ?_
      first | assumption | exact .refl
    · refine Reach.step (State.enterWaite_reach ..) rfl ?_
      first | assumption | exact .refl

theorem State.waiteFenceBody_reach (s : State) (i : Issue) : Reach [.seqs, .regs, .change, .chans, .mem, .dataIn] s (State.waiteFenceBody s i) := by
  unfold State.waiteFenceBody
  extract_lets -underBinder -merge +onlyGivenNames x1 x2
  refine Reach.ite ?_ ?_
  · refine Reach.step (State.waiteNow_reach ..) rfl ?_
    first | assumption | exact .refl
  · refine Reach.step (State.enterWaite_reach ..) rfl ?_
    first | assumption | exact .refl

theorem State.waiteFlagBody_reach (s : State) (i : Issue) : Reach [.seqs, .regs, .change, .chans, .mem, .dataIn] s (State.waiteFlagBody s i) := by
  unfold State.waiteFlagBody
  extract_lets -underBinder -merge +onlyGivenNames x1 x2
  refine Reach.ite ?_ ?_
  · refine Reach.step (State.waiteNow_reach ..) rfl ?_
    refine Reach.step (State.clearBits_reach ..) rfl ?_
    first | assumption | exact .refl
  · refine Reach.step (State.enterWaite_reach ..) rfl ?_
    first | assumption | exact .refl

theorem State.waiteWake_reach (s : State) (n : Nat) : Reach [.seqs, .regs] s (State.waiteWake s n) := by
  unfold State.waiteWake
  split
  · refine Reach.ite ?_ ?_
    · refine Reach.step (State.completeWaite_reach ..) rfl ?_
      first | assumption | exact .refl
    · first | assumption | exact .refl
  · refine Reach.ite ?_ ?_
    · refine Reach.step (State.completeWaite_reach ..) rfl ?_
      first | assumption | exact .refl
    · first | assumption | exact .refl
  · extract_lets -underBinder -merge +onlyGivenNames x1
    refine Reach.ite ?_ ?_
    · first | assumption | exact .refl
    · refine Reach.step (State.completeWaite_reach ..) rfl ?_
      refine Reach.step (State.clearBits_reach ..) rfl ?_
      first | assumption | exact .refl
  · first | assumption | exact .refl

theorem State.taskStart_reach (s : State) (n : Nat) : Reach [.seqs] s (State.taskStart s n) := by
  unfold State.taskStart
  extract_lets -underBinder -merge +onlyGivenNames x1
  split
  · refine Reach.ite ?_ ?_
    · refine Reach.step (State.completeWaite_reach ..) rfl ?_
      first | assumption | exact .refl
    · first | assumption | exact .refl
  · first | assumption | exact .refl

abbrev State.safeptBody_parts : List Part :=
  [.regs, .change, .seqs, .chans, .mem, .dataIn]
theorem State.safeptBody_reach (s : State) (i : Issue) : Reach State.safeptBody_parts s (State.safeptBody s i) := by
  unfold State.safeptBody
  extract_lets -underBinder -merge +onlyGivenNames s1
  have hs1 : Reach State.safeptBody_parts s s1 := by
    unfold s1
    refine Reach.step (State.modeApply_reach ..) rfl ?_
    refine Reach.step (State.modSeq_reach _ _ _ (fun q h => ?_)) rfl ?_
    · first | exact h | (simp_all [Seq.ok, Tab.rising, Tab.every]; done)
    · first | assumption | exact .refl
  refine Reach.ite ?_ ?_
  · refine Reach.step (State.swapRunning_reach ..) rfl ?_
    first | assumption | exact .refl
  · first | assumption | exact .refl

theorem State.fenceToken_reach (s : State) (src : Nat) (tok : Nat) : Reach [.regs] s (State.fenceToken s src tok) := by
  unfold State.fenceToken
  refine Reach.step (State.setFld_reach ..) rfl ?_
  first | assumption | exact .refl

theorem State.budgetBody_reach (s : State) (i : Issue) : Reach [.seqs, .regs] s (State.budgetBody s i) := by
  unfold State.budgetBody
  extract_lets -underBinder -merge +onlyGivenNames x1
  refine Reach.step (State.modSeq_reach _ _ _ (fun q h => ?_)) rfl ?_
  · first | exact h | (simp_all [Seq.ok, Tab.rising, Tab.every]; done)
  · refine Reach.step (State.setFld_reach ..) rfl ?_
    first | assumption | exact .refl

theorem State.yieldBody_reach (s : State) (i : Issue) : Reach [.regs] s (State.yieldBody s i) := by
  unfold State.yieldBody
  refine Reach.ite ?_ ?_
  · refine Reach.step (State.raise_reach ..) rfl ?_
    refine Reach.step (State.endTask_reach ..) rfl ?_
    first | assumption | exact .refl
  · first | assumption | exact .refl

theorem State.passOwner_reach (s : State) (ch : Nat) (dst : Nat) : Reach [.chans, .regs] s (State.passOwner s ch dst) := by
  unfold State.passOwner
  refine Reach.step (State.redriveChan_reach ..) rfl ?_
  refine Reach.step (State.setFld_reach ..) rfl ?_
  first | assumption | exact .refl

abbrev State.handoverBody_parts : List Part :=
  [.seqs, .regs, .chans]
theorem State.handoverBody_reach (s : State) (i : Issue) : Reach State.handoverBody_parts s (State.handoverBody s i) := by
  unfold State.handoverBody
  extract_lets -underBinder -merge +onlyGivenNames x1 x2 s3
  have hs3 : Reach State.handoverBody_parts s s3 := by
    unfold s3
    refine Reach.step (State.modSeq_reach _ _ _ (fun q h => ?_)) rfl ?_
    · first | exact h | (simp_all [Seq.ok, Tab.rising, Tab.every]; done)
    · first | assumption | exact .refl
  refine Reach.ite ?_ ?_
  · refine Reach.step (State.taskFault_reach ..) rfl ?_
    first | assumption | exact .refl
  · refine Reach.ite ?_ ?_
    · refine Reach.step (State.passOwner_reach ..) rfl ?_
      first | assumption | exact .refl
    · refine Reach.ite ?_ ?_
      · refine Reach.step (State.stallAt_reach _ _ _ (fun q h => ?_)) rfl ?_
        · first | exact h | (simp_all [Seq.ok, Tab.rising, Tab.every]; done)
        · first | assumption | exact .refl
      · refine Reach.step (State.taskFault_reach ..) rfl ?_
        first | assumption | exact .refl

abbrev State.unstall_parts : List Part :=
  [.regs, .seqs]
theorem State.unstall_reach (s : State) (n : Nat) (cost : Nat) : Reach State.unstall_parts s (State.unstall s n cost).1 := by
  unfold State.unstall
  extract_lets -underBinder -merge +onlyGivenNames x1 x2 x3 s4
  have hs4 : Reach State.unstall_parts s s4 := by
    unfold s4
    refine Reach.step (State.bumpBy_reach ..) rfl ?_
    first | assumption | exact .refl
  refine Reach.fstMk ?_
  refine Reach.step (State.modSeq_reach _ _ _ (fun q h => ?_)) rfl ?_
  · first | exact h | (simp_all [Seq.ok, Tab.rising, Tab.every]; done)
  · first | assumption | exact .refl

abbrev State.handoverDone_parts : List Part :=
  [.regs, .seqs, .chans]
theorem State.handoverDone_reach (s : State) (n : Nat) : Reach State.handoverDone_parts s (State.handoverDone s n) := by
  unfold State.handoverDone
  split
  · refine Reach.ite ?_ ?_
    · extract_lets -underBinder -merge +onlyGivenNames s1
      have hs1 : Reach State.handoverDone_parts s s1 := by
        unfold s1
        refine Reach.step (State.unstall_reach ..) rfl ?_
        first | assumption | exact .refl
      refine Reach.ite ?_ ?_
      · refine Reach.step (State.taskFault_reach ..) rfl ?_
        first | assumption | exact .refl
      · refine Reach.step (State.passOwner_reach ..) rfl ?_
        first | assumption | exact .refl
    · first | assumption | exact .refl
  · first | assumption | exact .refl

theorem State.slotBody_reach (s : State) (o : PhOp) (i : Issue) : Reach [.seqs, .regs, .change, .chans, .mem, .dataIn] s (State.slotBody s o i) := by
  unfold State.slotBody
  split
  · refine Reach.step (State.armBody_reach ..) rfl ?_
    first | assumption | exact .refl
  · refine Reach.step (State.armBody_reach ..) rfl ?_
    first | assumption | exact .refl
  · refine Reach.step (State.pulseBody_reach ..) rfl ?_
    first | assumption | exact .refl
  · refine Reach.step (State.waitSlot_reach ..) rfl ?_
    first | assumption | exact .refl
  · refine Reach.step (State.waitSlot_reach ..) rfl ?_
    first | assumption | exact .refl
  · first | assumption | exact .refl

abbrev State.slotResume_parts : List Part :=
  [.regs, .seqs, .tnow, .wsNs, .change, .chans, .mem, .dataIn]
theorem State.slotResume_reach (s : State) (n : Nat) : Reach State.slotResume_parts s (State.slotResume s n) := by
  unfold State.slotResume
  extract_lets -underBinder -merge +onlyGivenNames x1
  split
  · refine Reach.ite ?_ ?_
    · extract_lets -underBinder -merge +onlyGivenNames p2
      have hp2 : Reach State.slotResume_parts s p2.1 := by
        unfold p2
        refine Reach.step (State.unstall_reach ..) rfl ?_
        refine Reach.step (State.passTo_reach ..) rfl ?_
        first | assumption | exact .refl
      refine Reach.step (State.slotBody_reach ..) rfl ?_
      first | assumption | exact .refl
    · first | assumption | exact .refl
  · first | assumption | exact .refl

abbrev State.budgetExpiry_parts : List Part :=
  [.regs, .seqs]
theorem State.budgetExpiry_reach (s : State) (n : Nat) : Reach State.budgetExpiry_parts s (State.budgetExpiry s n) := by
  unfold State.budgetExpiry
  extract_lets -underBinder -merge +onlyGivenNames x1 x2
  refine Reach.ite ?_ ?_
  · extract_lets -underBinder -merge +onlyGivenNames s3 s4
    have hs3 : Reach State.budgetExpiry_parts s s3 := by
      unfold s3
      refine Reach.step (State.taskFault_reach ..) rfl ?_
      first | assumption | exact .refl
    have hs4 : Reach State.budgetExpiry_parts s s4 := by
      unfold s4
      refine Reach.step (State.modSeq_reach _ _ _ (fun q h => ?_)) rfl ?_
      · first | exact h | (simp_all [Seq.ok, Tab.rising, Tab.every]; done)
      · first | assumption | exact .refl
    refine Reach.ite ?_ ?_
    · extract_lets -underBinder -merge +onlyGivenNames p5
      have hp5 : Reach State.budgetExpiry_parts s p5.1 := by
        unfold p5
        refine Reach.step (State.unstall_reach ..) rfl ?_
        first | assumption | exact .refl
      split
      · refine Reach.step (State.skipSlot_reach ..) rfl ?_
        first | assumption | exact .refl
      · first | assumption | exact .refl
    · refine Reach.ite ?_ ?_
      · refine Reach.step (State.taskFault_reach ..) rfl ?_
        refine Reach.step (State.unstall_reach ..) rfl ?_
        first | assumption | exact .refl
      · first | assumption | exact .refl
  · first | assumption | exact .refl


/-! ### IoEngine.lean -/

theorem State.ioeTaken_reach (s : State) (e : Nat) : Reach [.ioes, .regs] s (State.ioeTaken s e) := by
  unfold State.ioeTaken
  refine Reach.step (State.modIoe_reach ..) rfl ?_
  refine Reach.step (State.putFlag_reach ..) rfl ?_
  first | assumption | exact .refl

abbrev State.ioeIssue_parts : List Part :=
  [.ioes, .regs]
theorem State.ioeIssue_reach (s : State) (i : IoIssue) : Reach State.ioeIssue_parts s (State.ioeIssue s i) := by
  unfold State.ioeIssue
  extract_lets -underBinder -merge +onlyGivenNames s1
  have hs1 : Reach State.ioeIssue_parts s s1 := by
    unfold s1
    refine Reach.ite ?_ ?_
    · refine Reach.step (State.ioeTaken_reach ..) rfl ?_
      first | assumption | exact .refl
    · refine Reach.step (State.setFld_reach ..) rfl ?_
      first | assumption | exact .refl
  refine Reach.step (State.modIoe_reach ..) rfl ?_
  first | assumption | exact .refl

theorem State.ioeRun_reach (V : List Part) (s : State) (e : Nat) (op : IoOp) (body : State → IoIssue → State)
    (hb : ∀ t i, Reach V t (body t i)) : Reach (.regs :: .ioes :: V) s (s.ioeRun e op body) := by
  unfold State.ioeRun
  split
  · split
    · exact ((State.ioeIssue_reach ..).mono (by simp +contextual)).trans ((hb _ _).mono fun p hp => by simp [hp])
    · exact .refl
  · exact .refl

abbrev State.ioeStart_parts : List Part :=
  [.regs, .ioes]
theorem State.ioeStart_reach (s : State) (e : Nat) : Reach State.ioeStart_parts s (State.ioeStart s e) := by
  unfold State.ioeStart
  extract_lets -underBinder -merge +onlyGivenNames s1
  have hs1 : Reach State.ioeStart_parts s s1 := by
    unfold s1
    refine Reach.step (State.setFld_reach ..) rfl ?_
    refine Reach.step (State.raise_reach ..) rfl ?_
    first | assumption | exact .refl
  refine Reach.step (State.modIoe_reach ..) rfl ?_
  refine Reach.step (State.setFld_reach ..) rfl ?_
  first | assumption | exact .refl

theorem State.ioeStopInj_reach (s : State) (e : Nat) : Reach [.regs, .ioes] s (State.ioeStopInj s e) := by
  unfold State.ioeStopInj
  split
  · first | assumption | exact .refl
  · refine Reach.ite ?_ ?_
    · refine Reach.step (State.raise_reach ..) rfl ?_
      refine Reach.step (State.ioeTaken_reach ..) rfl ?_
      first | assumption | exact .refl
    · refine Reach.step (State.modIoe_reach ..) rfl ?_
      first | assumption | exact .refl

abbrev State.ioeStop_parts : List Part :=
  [.regs, .ioes]
theorem State.ioeStop_reach (s : State) (e : Nat) (st : Nat) : Reach State.ioeStop_parts s (State.ioeStop s e st) := by
  unfold State.ioeStop
  extract_lets -underBinder -merge +onlyGivenNames s1
  have hs1 : Reach State.ioeStop_parts s s1 := by
    unfold s1
    refine Reach.step (State.setFld_reach ..) rfl ?_
    refine Reach.step (State.putFlag_reach ..) rfl ?_
    first | assumption | exact .refl
  refine Reach.step (State.ioeStopInj_reach ..) rfl ?_
  refine Reach.step (State.modIoe_reach ..) rfl ?_
  first | assumption | exact .refl

abbrev State.ioeReset_parts : List Part :=
  [.regs, .ioes]
theorem State.ioeReset_reach (s : State) (e : Nat) : Reach State.ioeReset_parts s (State.ioeReset s e) := by
  unfold State.ioeReset
  extract_lets -underBinder -merge +onlyGivenNames s1
  have hs1 : Reach State.ioeReset_parts s s1 := by
    unfold s1
    refine Reach.foldl _ _ (fun u2 y2 hu2 => ?_) ?_
    · refine Reach.step (State.setFld_reach ..) rfl ?_
      first | assumption | exact .refl
    · first | assumption | exact .refl
  refine Reach.step (State.setIoe_reach ..) rfl ?_
  refine Reach.step (State.setFld_reach ..) rfl ?_
  first | assumption | exact .refl

abbrev State.ioeInject_parts : List Part :=
  [.regs, .ioes]
theorem State.ioeInject_reach (s : State) (e : Nat) (w : Nat) : Reach State.ioeInject_parts s (State.ioeInject s e w) := by
  unfold State.ioeInject
  refine Reach.ite ?_ ?_
  · refine Reach.step (State.raise_reach ..) rfl ?_
    first | assumption | exact .refl
  · refine Reach.ite ?_ ?_
    · refine Reach.step (State.raise_reach ..) rfl ?_
      first | assumption | exact .refl
    · extract_lets -underBinder -merge +onlyGivenNames s1
      have hs1 : Reach State.ioeInject_parts s s1 := by
        unfold s1
        refine Reach.step (State.raise_reach ..) rfl ?_
        first | assumption | exact .refl
      refine Reach.step (State.modIoe_reach ..) rfl ?_
      first | assumption | exact .refl

theorem State.ioeRephase_reach (s : State) (e : Nat) : Reach [.ioes] s (State.ioeRephase s e) := by
  unfold State.ioeRephase
  refine Reach.step (State.modIoe_reach ..) rfl ?_
  first | assumption | exact .refl

theorem State.ioeGroupCmd_reach (s : State) (g : Nat) (start : Bool) (rephase : Bool) : Reach [.ioes, .regs] s (State.ioeGroupCmd s g start rephase) := by
  unfold State.ioeGroupCmd
  refine Reach.foldl _ _ (fun u1 y1 hu1 => ?_) ?_
  · refine Reach.ite ?_ ?_
    · refine Reach.ite ?_ ?_
      · refine Reach.step (State.ioeRephase_reach ..) rfl ?_
        first | assumption | exact .refl
      · first | assumption | exact .refl
    · refine Reach.ite ?_ ?_
      · refine Reach.step (State.ioeStart_reach ..) rfl ?_
        first | assumption | exact .refl
      · first | assumption | exact .refl
  · first | assumption | exact .refl

theorem State.ioePush_reach {s t : State} {e : Nat} (h : s.ioePush e = some t) : Reach [.ioes] s t := by
  unfold State.ioePush at h
  dsimp only at h
  split at h
  · exact Option.some.inj h ▸ State.setIoe_reach ..
  · cases h

theorem State.ioePull_reach {s t : State} {e : Nat} (h : s.ioePull e = some t) : Reach [.regs, .ioes] s t := by
  unfold State.ioePull at h
  dsimp only at h
  split at h
  · cases h
  · rw [← Option.some.inj h]
    refine Reach.step (State.setFld_reach ..) rfl ?_
    refine Reach.step (State.setFld_reach ..) rfl ?_
    exact Reach.step (State.setIoe_reach ..) rfl .refl

theorem State.qoutRead_reach (s : State) (e : Nat) : Reach [.regs, .ioes] s (State.qoutRead s e).1 := by
  unfold State.qoutRead
  extract_lets -underBinder -merge +onlyGivenNames x1
  split
  · refine Reach.fstMk ?_
    refine Reach.step (State.raise_reach ..) rfl ?_
    first | assumption | exact .refl
  · refine Reach.fstMk ?_
    refine Reach.step (State.setIoe_reach ..) rfl ?_
    first | assumption | exact .refl

theorem State.qinWrite_reach (s : State) (e : Nat) (v : Nat) : Reach [.ioes, .regs] s (State.qinWrite s e v) := by
  unfold State.qinWrite
  extract_lets -underBinder -merge +onlyGivenNames x1
  refine Reach.ite ?_ ?_
  · refine Reach.step (State.setIoe_reach ..) rfl ?_
    first | assumption | exact .refl
  · refine Reach.step (State.raise_reach ..) rfl ?_
    first | assumption | exact .refl

abbrev State.ioeCtrl_parts : List Part :=
  [.ioes, .regs]
theorem State.ioeCtrl_reach (s : State) (e : Nat) (v : Nat) : Reach State.ioeCtrl_parts s (State.ioeCtrl s e v) := by
  unfold State.ioeCtrl
  extract_lets -underBinder -merge +onlyGivenNames x1 x2 s3 s4
  have hs3 : Reach State.ioeCtrl_parts s s3 := by
    unfold s3
    refine Reach.ite ?_ ?_
    · refine Reach.step (State.modIoe_reach ..) rfl ?_
      refine Reach.step (State.setFld_reach ..) rfl ?_
      first | assumption | exact .refl
    · first | assumption | exact .refl
  have hs4 : Reach State.ioeCtrl_parts s s4 := by
    unfold s4
    refine Reach.step (State.setFld_reach ..) rfl ?_
    refine Reach.step (State.setFld_reach ..) rfl ?_
    first | assumption | exact .refl
  clear_value x1
  split
  · refine Reach.step (State.ioeStart_reach ..) rfl ?_
    first | assumption | exact .refl
  · refine Reach.step (State.ioeStop_reach ..) rfl ?_
    first | assumption | exact .refl
  · first | assumption | exact .refl

theorem State.gioCfg_reach {s t : State} {p v : Nat} (h : s.gioCfg p v = some t) : Reach [.regs, .gio] s t := by
  unfold State.gioCfg at h
  dsimp only at h
  split at h
  · cases h
  · have h5 : Reach [.regs, .gio] s (((((s.putFlag .GIO_CFG_OWNED p (bitN v 31)).setFld .GIO_CFG_ENGINE p (bitsN v 27 24)).setFld
        .GIO_CFG_PULL p (bitsN v 17 16)).setFld .GIO_CFG_OD p (bitsN v 15 15)).setFld .GIO_CFG_FILT p (bitsN v 7 0)) := by
      refine Reach.step (State.setFld_reach ..) rfl ?_
      refine Reach.step (State.setFld_reach ..) rfl ?_
      refine Reach.step (State.setFld_reach ..) rfl ?_
      refine Reach.step (State.setFld_reach ..) rfl ?_
      exact Reach.step (State.putFlag_reach ..) rfl .refl
    rw [← Option.some.inj h]
    exact Reach.ite (Reach.step (State.gioDrive_reach ..) rfl h5) h5

abbrev State.gioEdge_parts : List Part :=
  [.regs, .ioes]
theorem State.gioEdge_reach (s : State) (p : Nat) (level : Bool) (stamp : Nat) : Reach State.gioEdge_parts s (State.gioEdge s p level stamp) := by
  unfold State.gioEdge
  refine Reach.ite ?_ ?_
  · first | assumption | exact .refl
  · extract_lets -underBinder -merge +onlyGivenNames s1
    have hs1 : Reach State.gioEdge_parts s s1 := by
      unfold s1
      refine Reach.ite ?_ ?_
      · refine Reach.step (State.orFld_reach ..) rfl ?_
        first | assumption | exact .refl
      · refine Reach.step (State.clearBits_reach ..) rfl ?_
        first | assumption | exact .refl
    refine Reach.step (State.pinEdge_reach ..) rfl ?_
    first | assumption | exact .refl

abbrev State.pinAct_parts : List Part :=
  [.gio, .regs]
theorem State.pinAct_reach (s : State) (e : Nat) (w : Nat) : Reach State.pinAct_parts s (State.pinAct s e w) := by
  unfold State.pinAct
  refine Reach.ite ?_ ?_
  · refine Reach.step (State.gioDrive_reach ..) rfl ?_
    first | assumption | exact .refl
  · extract_lets -underBinder -merge +onlyGivenNames x1 s2
    have hs2 : Reach State.pinAct_parts s s2 := by
      unfold s2
      refine Reach.step (State.gioDrive_reach ..) rfl ?_
      first | assumption | exact .refl
    refine Reach.step (State.setFld_reach ..) rfl ?_
    refine Reach.step (State.setFld_reach ..) rfl ?_
    first | assumption | exact .refl

theorem State.ioeHold_reach (s : State) (i : IoIssue) (st : Nat) (acted : Bool) : Reach [.ioes, .regs] s (State.ioeHold s i st acted) := by
  unfold State.ioeHold
  refine Reach.step (State.modIoe_reach ..) rfl ?_
  refine Reach.step (State.setFld_reach ..) rfl ?_
  first | assumption | exact .refl

theorem State.pinBody_reach (s : State) (i : IoIssue) : Reach [.regs, .gio, .ioes] s (State.pinBody s i) := by
  unfold State.pinBody
  extract_lets -underBinder -merge +onlyGivenNames x1
  refine Reach.ite ?_ ?_
  · refine Reach.step (State.raise_reach ..) rfl ?_
    first | assumption | exact .refl
  · refine Reach.ite ?_ ?_
    · refine Reach.step (State.pinAct_reach ..) rfl ?_
      first | assumption | exact .refl
    · refine Reach.ite ?_ ?_
      · refine Reach.step (State.raise_reach ..) rfl ?_
        refine Reach.step (State.pinAct_reach ..) rfl ?_
        first | assumption | exact .refl
      · refine Reach.ite ?_ ?_
        · refine Reach.step (State.pinAct_reach ..) rfl ?_
          first | assumption | exact .refl
        · refine Reach.step (State.ioeHold_reach ..) rfl ?_
          first | assumption | exact .refl

theorem State.timedAction_reach (s : State) (e : Nat) : Reach [.gio, .regs, .ioes] s (State.timedAction s e) := by
  unfold State.timedAction
  extract_lets -underBinder -merge +onlyGivenNames x1
  split
  · first | assumption | exact .refl
  · refine Reach.ite ?_ ?_
    · refine Reach.step (State.pinAct_reach ..) rfl ?_
      refine Reach.step (State.setIoe_reach ..) rfl ?_
      first | assumption | exact .refl
    · first | assumption | exact .refl

theorem State.ioeMovBody_reach (s : State) (i : IoIssue) : Reach [.regs] s (State.ioeMovBody s i) := by
  unfold State.ioeMovBody
  extract_lets -underBinder -merge +onlyGivenNames x1 x2 x3
  refine Reach.step (State.setFld_reach ..) rfl ?_
  first | assumption | exact .refl

theorem State.ioeArith_reach (s : State) (i : IoIssue) (f : Nat → Nat → Nat) : Reach [.regs] s (State.ioeArith s i f) := by
  unfold State.ioeArith
  refine Reach.step (State.setFld_reach ..) rfl ?_
  first | assumption | exact .refl

theorem State.jmpCond_reach (s : State) (i : IoIssue) : Reach [.regs] s (State.jmpCond s i).1 := by
  unfold State.jmpCond
  extract_lets -underBinder -merge +onlyGivenNames x1 x2 x3 x4
  split
  · refine Reach.fstMk ?_
    first | assumption | exact .refl
  · refine Reach.fstMk ?_
    refine Reach.step (State.setFld_reach ..) rfl ?_
    first | assumption | exact .refl
  · refine Reach.fstMk ?_
    refine Reach.step (State.setFld_reach ..) rfl ?_
    first | assumption | exact .refl
  · refine Reach.fstMk ?_
    first | assumption | exact .refl
  · refine Reach.fstMk ?_
    first | assumption | exact .refl
  · refine Reach.fstMk ?_
    first | assumption | exact .refl
  · refine Reach.fstMk ?_
    first | assumption | exact .refl
  · refine Reach.fstMk ?_
    first | assumption | exact .refl
  · refine Reach.fstMk ?_
    first | assumption | exact .refl
  · refine Reach.fstMk ?_
    first | assumption | exact .refl
  · refine Reach.fstMk ?_
    first | assumption | exact .refl
  · refine Reach.fstMk ?_
    first | assumption | exact .refl
  · refine Reach.fstMk ?_
    first | assumption | exact .refl
  · refine Reach.fstMk ?_
    first | assumption | exact .refl
  · refine Reach.fstMk ?_
    first | assumption | exact .refl
  · refine Reach.fstMk ?_
    first | assumption | exact .refl

abbrev State.jmpBody_parts : List Part :=
  [.regs]
theorem State.jmpBody_reach (s : State) (i : IoIssue) : Reach State.jmpBody_parts s (State.jmpBody s i) := by
  unfold State.jmpBody
  extract_lets -underBinder -merge +onlyGivenNames p1
  have hp1 : Reach State.jmpBody_parts s p1.1 := by
    unfold p1
    refine Reach.step (State.jmpCond_reach ..) rfl ?_
    first | assumption | exact .refl
  refine Reach.ite ?_ ?_
  · refine Reach.step (State.setFld_reach ..) rfl ?_
    first | assumption | exact .refl
  · first | assumption | exact .refl

abbrev State.shinBody_parts : List Part :=
  [.regs]
theorem State.shinBody_reach (s : State) (i : IoIssue) : Reach State.shinBody_parts s (State.shinBody s i) := by
  unfold State.shinBody
  extract_lets -underBinder -merge +onlyGivenNames x1 x2 s3
  have hs3 : Reach State.shinBody_parts s s3 := by
    unfold s3
    refine Reach.step (State.setFld_reach ..) rfl ?_
    first | assumption | exact .refl
  refine Reach.step (State.setFld_reach ..) rfl ?_
  first | assumption | exact .refl

theorem State.ioeSlow_reach (s : State) (i : IoIssue) : Reach [.ioes] s (State.ioeSlow s i) := by
  unfold State.ioeSlow
  refine Reach.step (State.modIoe_reach ..) rfl ?_
  first | assumption | exact .refl

theorem State.measBody_reach (s : State) (i : IoIssue) : Reach [.ioes, .regs] s (State.measBody s i) := by
  unfold State.measBody
  extract_lets -underBinder -merge +onlyGivenNames x1 x2
  refine Reach.step (State.ioeSlow_reach ..) rfl ?_
  refine Reach.step (State.setIoe_reach ..) rfl ?_
  refine Reach.step (State.setFld_reach ..) rfl ?_
  first | assumption | exact .refl

theorem State.setuBody_reach (s : State) (i : IoIssue) : Reach [.ioes, .regs] s (State.setuBody s i) := by
  unfold State.setuBody
  extract_lets -underBinder -merge +onlyGivenNames x1 x2 x3
  refine Reach.step (State.ioeSlow_reach ..) rfl ?_
  refine Reach.step (State.setFld_reach ..) rfl ?_
  first | assumption | exact .refl

theorem State.crcBody_reach (s : State) (i : IoIssue) : Reach [.regs] s (State.crcBody s i) := by
  unfold State.crcBody
  extract_lets -underBinder -merge +onlyGivenNames x1 x2 x3 x4 x5
  refine Reach.step (State.setFld_reach ..) rfl ?_
  first | assumption | exact .refl

theorem State.pushBody_reach (s : State) (i : IoIssue) : Reach [.ioes, .regs] s (State.pushBody s i) := by
  unfold State.pushBody
  split
  · refine Reach.step (State.ioePush_reach ‹_›) rfl ?_
    first | assumption | exact .refl
  · refine Reach.ite ?_ ?_
    · refine Reach.step (State.ioeHold_reach ..) rfl ?_
      first | assumption | exact .refl
    · refine Reach.step (State.raise_reach ..) rfl ?_
      first | assumption | exact .refl

theorem State.pullBody_reach (s : State) (i : IoIssue) : Reach [.regs, .ioes] s (State.pullBody s i) := by
  unfold State.pullBody
  split
  · refine Reach.step (State.ioePull_reach ‹_›) rfl ?_
    first | assumption | exact .refl
  · refine Reach.ite ?_ ?_
    · refine Reach.step (State.ioeHold_reach ..) rfl ?_
      first | assumption | exact .refl
    · refine Reach.step (State.raise_reach ..) rfl ?_
      first | assumption | exact .refl

theorem State.postWord_reach (s : State) (e : Nat) (a : Nat) (v : Nat) : Reach [.dataIn, .mem] s (State.postWord s e a v) := by
  unfold State.postWord
  refine Reach.step (State.noteData_reach ..) rfl ?_
  refine Reach.step (State.setBytes_reach ..) rfl ?_
  first | assumption | exact .refl

abbrev State.postBody_parts : List Part :=
  [.regs, .dataIn, .mem]
theorem State.postBody_reach (s : State) (i : IoIssue) : Reach State.postBody_parts s (State.postBody s i) := by
  unfold State.postBody
  extract_lets -underBinder -merge +onlyGivenNames x1 x2 x3 s4 x5
  have hs4 : Reach State.postBody_parts s s4 := by
    unfold s4
    refine Reach.ite ?_ ?_
    · refine Reach.step (State.setFld_reach ..) rfl ?_
      first | assumption | exact .refl
    · first | assumption | exact .refl
  refine Reach.foldl _ _ (fun u6 y6 hu6 => ?_) ?_
  · refine Reach.ite ?_ ?_
    · refine Reach.step (State.postWord_reach ..) rfl ?_
      first | assumption | exact .refl
    · first | assumption | exact .refl
  · first | assumption | exact .refl

theorem State.waitOver_reach (s : State) (e : Nat) (timeout : Bool) : Reach [.regs] s (State.waitOver s e timeout) := by
  unfold State.waitOver
  refine Reach.step (State.putFlag_reach ..) rfl ?_
  first | assumption | exact .refl

theorem State.edgeTaken_reach (s : State) (e : Nat) (p : Nat) (stamp : Option Nat) : Reach [.regs, .ioes] s (State.edgeTaken s e p stamp) := by
  unfold State.edgeTaken
  refine Reach.step (State.waitOver_reach ..) rfl ?_
  refine Reach.step (State.modIoe_reach ..) rfl ?_
  first | assumption | exact .refl

theorem State.latchTake_reach {s t : State} {e a p : Nat} (h : s.latchTake e a p = some t) : Reach [.regs, .ioes] s t := by
  have hw : ∀ x, Reach [.regs, .ioes] s ((s.setIoe e x).waitOver e false) := fun x =>
    Reach.step (State.waitOver_reach ..) rfl (Reach.step (State.setIoe_reach ..) rfl .refl)
  unfold State.latchTake at h
  dsimp only at h
  split at h
  · cases h
  · split at h
    · rw [← Option.some.inj h]
      exact Reach.ite (hw _) (hw _)
    · exact Option.some.inj h ▸ hw _
    · exact Option.some.inj h ▸ hw _
    · cases h

theorem State.waitpBody_reach (s : State) (i : IoIssue) : Reach [.regs, .ioes] s (State.waitpBody s i) := by
  unfold State.waitpBody
  extract_lets -underBinder -merge +onlyGivenNames x1 x2 x3
  refine Reach.ite ?_ ?_
  · refine Reach.ite ?_ ?_
    · refine Reach.step (State.waitOver_reach ..) rfl ?_
      first | assumption | exact .refl
    · refine Reach.ite ?_ ?_
      · refine Reach.step (State.waitOver_reach ..) rfl ?_
        first | assumption | exact .refl
      · refine Reach.step (State.ioeHold_reach ..) rfl ?_
        first | assumption | exact .refl
  · split
    · refine Reach.step (State.latchTake_reach ‹_›) rfl ?_
      first | assumption | exact .refl
    · refine Reach.ite ?_ ?_
      · refine Reach.step (State.edgeTaken_reach ..) rfl ?_
        first | assumption | exact .refl
      · refine Reach.step (State.ioeHold_reach ..) rfl ?_
        first | assumption | exact .refl

theorem State.waitMet_reach {s t : State} {e w : Nat} (h : s.waitMet e w = some t) : Reach [.regs, .ioes] s t := by
  have hw : ∀ b, Reach [.regs, .ioes] s (s.waitOver e b) := fun b => Reach.step (State.waitOver_reach ..) rfl .refl
  unfold State.waitMet at h
  dsimp only at h
  split at h
  · split at h
    · cases h
    · rw [← Option.some.inj h]
      exact Reach.step (State.waitOver_reach ..) rfl (Reach.step (State.clearBits_reach ..) rfl .refl)
  · split at h
    · exact Option.some.inj h ▸ hw _
    · cases h
  · split at h
    · exact Option.some.inj h ▸ hw _
    · cases h
  · exact (State.ioePush_reach h).mono (by simp +contextual)
  · exact State.ioePull_reach h
  · cases h

theorem State.waitBody_reach (s : State) (i : IoIssue) : Reach [.ioes, .regs] s (State.waitBody s i) := by
  unfold State.waitBody
  split
  · refine Reach.step (State.waitMet_reach ‹_›) rfl ?_
    first | assumption | exact .refl
  · refine Reach.ite ?_ ?_
    · refine Reach.step (State.waitOver_reach ..) rfl ?_
      first | assumption | exact .refl
    · refine Reach.step (State.ioeHold_reach ..) rfl ?_
      first | assumption | exact .refl

theorem State.wakeAt_reach {s t : State} {e b : Nat} {c : IoeCur} (h : s.wakeAt e b c = some t) : Reach [.regs, .ioes] s t := by
  have hw : ∀ (u : State) x, Reach [.regs, .ioes] s u → Reach [.regs, .ioes] s (u.waitOver e x) := fun u x hu =>
    Reach.step (State.waitOver_reach ..) rfl hu
  unfold State.wakeAt at h
  dsimp only at h
  split at h
  · split at h
    · exact Option.some.inj h ▸ .refl
    · cases h
  · split at h
    · exact Option.some.inj h ▸ .refl
    · cases h
  · split at h
    · split at h
      · rw [← Option.some.inj h]
        exact Reach.ite (hw _ _ (Reach.step (State.modIoe_reach ..) rfl .refl)) (hw _ _ .refl)
      · cases h
    · split at h
      · rw [← Option.some.inj h]
        exact Reach.ite (Reach.step (State.edgeTaken_reach ..) rfl .refl) (hw _ _ .refl)
      · cases h
  · split at h
    · rename_i u hu
      exact Option.some.inj h ▸ State.waitMet_reach hu
    · split at h
      · exact Option.some.inj h ▸ hw _ _ .refl
      · cases h

theorem State.stepWake_reach (s : State) (e : Nat) : Reach [.ioes, .regs] s (State.stepWake s e) := by
  unfold State.stepWake
  split
  · split
    · refine Reach.step (State.modIoe_reach ..) rfl ?_
      refine Reach.step (State.setFld_reach ..) rfl ?_
      refine Reach.step (State.wakeAt_reach ‹_›) rfl ?_
      first | assumption | exact .refl
    · first | assumption | exact .refl
  · first | assumption | exact .refl

theorem State.haltBody_reach (s : State) (i : IoIssue) : Reach [.regs, .ioes] s (State.haltBody s i) := by
  unfold State.haltBody
  refine Reach.step (State.ioeStop_reach ..) rfl ?_
  first | assumption | exact .refl

abbrev State.ioeIllegal_parts : List Part :=
  [.ioes, .regs]
theorem State.ioeIllegal_reach (s : State) (e : Nat) : Reach State.ioeIllegal_parts s (State.ioeIllegal s e) := by
  unfold State.ioeIllegal
  split
  · first | assumption | exact .refl
  · refine Reach.ite ?_ ?_
    · first | assumption | exact .refl
    · extract_lets -underBinder -merge +onlyGivenNames s1
      have hs1 : Reach State.ioeIllegal_parts s s1 := by
        unfold s1
        refine Reach.ite ?_ ?_
        · refine Reach.step (State.ioeTaken_reach ..) rfl ?_
          first | assumption | exact .refl
        · first | assumption | exact .refl
      refine Reach.step (State.ioeStop_reach ..) rfl ?_
      refine Reach.step (State.raise_reach ..) rfl ?_
      first | assumption | exact .refl


/-! ### Pair.lean -/

theorem State.setPstate_reach (s : State) (st : Nat) : Reach [.regs] s (State.setPstate s st) := by
  unfold State.setPstate
  refine Reach.ite ?_ ?_
  · first | assumption | exact .refl
  · refine Reach.step (State.setFld_reach ..) rfl ?_
    first | assumption | exact .refl

theorem State.sendHb_reach (s : State) (rel : Bool) : Reach [.pair] s (State.sendHb s rel) := by
  unfold State.sendHb
  extract_lets -underBinder -merge +onlyGivenNames x1
  refine Reach.step (State.modPair_reach ..) rfl ?_
  refine Reach.step (State.sendFrame_reach ..) rfl ?_
  first | assumption | exact .refl

theorem State.hbSend_reach (s : State) : Reach [.pair] s (State.hbSend s) := by
  unfold State.hbSend
  refine Reach.ite ?_ ?_
  · refine Reach.step (State.sendHb_reach ..) rfl ?_
    first | assumption | exact .refl
  · first | assumption | exact .refl

abbrev State.recordTake_parts : List Part :=
  [.regs, .logNew]
theorem State.recordTake_reach (s : State) (took : Bool) (cause : Nat) : Reach State.recordTake_parts s (State.recordTake s took cause) := by
  unfold State.recordTake
  extract_lets -underBinder -merge +onlyGivenNames s1
  have hs1 : Reach State.recordTake_parts s s1 := by
    unfold s1
    refine Reach.step (State.setFld_reach ..) rfl ?_
    refine Reach.step (State.putFlag_reach ..) rfl ?_
    first | assumption | exact .refl
  refine Reach.step (State.log_reach ..) rfl ?_
  refine Reach.step (State.setFld_reach ..) rfl ?_
  first | assumption | exact .refl

abbrev State.takeToken_parts : List Part :=
  [.regs, .logNew, .chans, .pair]
theorem State.takeToken_reach (s : State) (cause : Nat) : Reach State.takeToken_parts s (State.takeToken s cause) := by
  unfold State.takeToken
  extract_lets -underBinder -merge +onlyGivenNames s1
  have hs1 : Reach State.takeToken_parts s s1 := by
    unfold s1
    refine Reach.step (State.raise_reach ..) rfl ?_
    refine Reach.step (State.recordTake_reach ..) rfl ?_
    first | assumption | exact .refl
  refine Reach.step (State.redrive_reach ..) rfl ?_
  refine Reach.step (State.setPstate_reach ..) rfl ?_
  refine Reach.step (State.modPair_reach ..) rfl ?_
  first | assumption | exact .refl

abbrev State.releaseToken_parts : List Part :=
  [.regs, .logNew, .chans, .pair]
theorem State.releaseToken_reach (s : State) (cause : Nat) (st : Nat) : Reach State.releaseToken_parts s (State.releaseToken s cause st) := by
  unfold State.releaseToken
  extract_lets -underBinder -merge +onlyGivenNames s1
  have hs1 : Reach State.releaseToken_parts s s1 := by
    unfold s1
    refine Reach.step (State.putFlag_reach ..) rfl ?_
    refine Reach.step (State.recordTake_reach ..) rfl ?_
    first | assumption | exact .refl
  refine Reach.step (State.redrive_reach ..) rfl ?_
  refine Reach.step (State.setPstate_reach ..) rfl ?_
  refine Reach.step (State.modPair_reach ..) rfl ?_
  first | assumption | exact .refl

abbrev State.pathRelease_parts : List Part :=
  [.pair, .regs, .logNew, .chans]
theorem State.pathRelease_reach (s : State) (cause : Nat) : Reach State.pathRelease_parts s (State.pathRelease s cause) := by
  unfold State.pathRelease
  extract_lets -underBinder -merge +onlyGivenNames s1
  have hs1 : Reach State.pathRelease_parts s s1 := by
    unfold s1
    refine Reach.step (State.hoAbort_reach ..) rfl ?_
    first | assumption | exact .refl
  refine Reach.ite ?_ ?_
  · extract_lets -underBinder -merge +onlyGivenNames s2
    have hs2 : Reach State.pathRelease_parts s s2 := by
      unfold s2
      refine Reach.step (State.pairEvt_reach ..) rfl ?_
      refine Reach.step (State.releaseToken_reach ..) rfl ?_
      first | assumption | exact .refl
    refine Reach.step (State.sendHb_reach ..) rfl ?_
    refine Reach.step (State.modPair_reach ..) rfl ?_
    first | assumption | exact .refl
  · refine Reach.step (State.modPair_reach ..) rfl ?_
    first | assumption | exact .refl

abbrev State.leadConflict_parts : List Part :=
  [.regs, .logNew, .chans, .pair]
theorem State.leadConflict_reach (s : State) : Reach State.leadConflict_parts s (State.leadConflict s) := by
  unfold State.leadConflict
  extract_lets -underBinder -merge +onlyGivenNames s1
  have hs1 : Reach State.leadConflict_parts s s1 := by
    unfold s1
    refine Reach.step (State.raise_reach ..) rfl ?_
    refine Reach.step (State.raise_reach ..) rfl ?_
    first | assumption | exact .refl
  refine Reach.ite ?_ ?_
  · refine Reach.step (State.pairEvt_reach ..) rfl ?_
    refine Reach.step (State.releaseToken_reach ..) rfl ?_
    refine Reach.step (State.hoAbort_reach ..) rfl ?_
    first | assumption | exact .refl
  · first | assumption | exact .refl

abbrev State.enterJoining_parts : List Part :=
  [.pair, .regs, .change, .doms, .logNew, .seqs, .chans, .hold3, .hold2, .pwms, .mem, .dataIn, .svcs, .basins,
   .power]
theorem State.enterJoining_reach (s : State) : Reach State.enterJoining_parts s (State.enterJoining s) := by
  unfold State.enterJoining
  extract_lets -underBinder -merge +onlyGivenNames s1 s2
  have hs1 : Reach State.enterJoining_parts s s1 := by
    unfold s1
    refine Reach.step (State.modPair_reach ..) rfl ?_
    refine Reach.step (State.setPstate_reach ..) rfl ?_
    first | assumption | exact .refl
  have hs2 : Reach State.enterJoining_parts s s2 := by
    unfold s2
    refine Reach.ite ?_ ?_
    · refine Reach.step (State.reachEpoch_reach ..) rfl ?_
      refine Reach.step (State.accept_reach ..) rfl ?_
      first | assumption | exact .refl
    · first | assumption | exact .refl
  refine Reach.step (State.sendReliable_reach ..) rfl ?_
  refine Reach.foldl _ _ (fun u3 y3 hu3 => ?_) ?_
  · refine Reach.step (State.resetSeq_reach ..) rfl ?_
    first | assumption | exact .refl
  · first | assumption | exact .refl

theorem State.tryJoin_reach (s : State) : Reach [.pair, .regs, .change, .doms, .logNew, .seqs, .chans, .hold3, .hold2, .pwms, .mem, .dataIn, .svcs, .basins, .power] s (State.tryJoin s) := by
  unfold State.tryJoin
  refine Reach.ite ?_ ?_
  · refine Reach.step (State.enterJoining_reach ..) rfl ?_
    first | assumption | exact .refl
  · first | assumption | exact .refl

theorem State.joinFail_reach (s : State) : Reach [.regs, .pair] s (State.joinFail s) := by
  unfold State.joinFail
  refine Reach.step (State.pairEvt_reach ..) rfl ?_
  refine Reach.step (State.modPair_reach ..) rfl ?_
  refine Reach.step (State.setPstate_reach ..) rfl ?_
  first | assumption | exact .refl

theorem State.toMatching_reach (s : State) (edge : Bool) : Reach [.pair, .regs] s (State.toMatching s edge) := by
  unfold State.toMatching
  refine Reach.step (State.modPair_reach ..) rfl ?_
  refine Reach.step (State.setPstate_reach ..) rfl ?_
  first | assumption | exact .refl

abbrev State.joinFollow_parts : List Part :=
  [.regs, .change, .doms, .logNew, .seqs, .chans, .hold3, .hold2, .pwms, .mem, .dataIn, .svcs, .pair, .basins,
   .power]
theorem State.joinFollow_reach (s : State) : Reach State.joinFollow_parts s (State.joinFollow s) := by
  unfold State.joinFollow
  split
  · first | assumption | exact .refl
  · refine Reach.ite ?_ ?_
    · extract_lets -underBinder -merge +onlyGivenNames s1
      have hs1 : Reach State.joinFollow_parts s s1 := by
        unfold s1
        refine Reach.ite ?_ ?_
        · first | assumption | exact .refl
        · refine Reach.step (State.reachEpoch_reach ..) rfl ?_
          refine Reach.step (State.accept_reach ..) rfl ?_
          first | assumption | exact .refl
      refine Reach.step (State.toMatching_reach ..) rfl ?_
      first | assumption | exact .refl
    · refine Reach.ite ?_ ?_
      · refine Reach.step (State.reachEpoch_reach ..) rfl ?_
        refine Reach.step (State.accept_reach ..) rfl ?_
        first | assumption | exact .refl
      · first | assumption | exact .refl

theorem State.aimAt_reach (s : State) (m : Nat) : Reach [.regs, .change, .doms, .logNew, .seqs, .chans, .hold3, .hold2, .pwms, .mem, .dataIn, .svcs, .pair, .basins, .power] s (State.aimAt s m) := by
  unfold State.aimAt
  refine Reach.ite ?_ ?_
  · refine Reach.step (State.joinFollow_reach ..) rfl ?_
    refine Reach.step (State.modPair_reach ..) rfl ?_
    first | assumption | exact .refl
  · first | assumption | exact .refl

theorem State.aimReport_reach (s : State) (m : Nat) : Reach [.pair, .regs, .change, .doms, .logNew, .seqs, .chans, .hold3, .hold2, .pwms, .mem, .dataIn, .svcs, .basins, .power] s (State.aimReport s m) := by
  unfold State.aimReport
  split
  · refine Reach.ite ?_ ?_
    · refine Reach.step (State.modPair_reach ..) rfl ?_
      first | assumption | exact .refl
    · first | assumption | exact .refl
  · refine Reach.step (State.aimAt_reach ..) rfl ?_
    first | assumption | exact .refl

theorem State.aimFrame_reach (s : State) (m : Nat) : Reach [.regs, .change, .doms, .logNew, .seqs, .chans, .hold3, .hold2, .pwms, .mem, .dataIn, .svcs, .pair, .basins, .power] s (State.aimFrame s m) := by
  unfold State.aimFrame
  refine Reach.step (State.aimAt_reach ..) rfl ?_
  refine Reach.step (State.modPair_reach ..) rfl ?_
  first | assumption | exact .refl

theorem State.joinBoundary_reach (s : State) (d : Nat) : Reach [.pair, .regs, .change, .doms, .logNew, .seqs, .chans, .hold3, .hold2, .pwms, .mem, .dataIn, .svcs, .basins, .power] s (State.joinBoundary s d) := by
  unfold State.joinBoundary
  refine Reach.ite ?_ ?_
  · first | assumption | exact .refl
  · refine Reach.ite ?_ ?_
    · split
      · first | assumption | exact .refl
      · refine Reach.ite ?_ ?_
        · first | assumption | exact .refl
        · refine Reach.ite ?_ ?_
          · refine Reach.step (State.toMatching_reach ..) rfl ?_
            first | assumption | exact .refl
          · refine Reach.ite ?_ ?_
            · refine Reach.step (State.toMatching_reach ..) rfl ?_
              refine Reach.step (State.reachEpoch_reach ..) rfl ?_
              refine Reach.step (State.accept_reach ..) rfl ?_
              first | assumption | exact .refl
            · refine Reach.ite ?_ ?_
              · refine Reach.step (State.toMatching_reach ..) rfl ?_
                refine Reach.step (State.requestClearing_reach ..) rfl ?_
                first | assumption | exact .refl
              · first | assumption | exact .refl
    · refine Reach.ite ?_ ?_
      · extract_lets -underBinder -merge +onlyGivenNames x1
        refine Reach.ite ?_ ?_
        · refine Reach.step (State.pairEvt_reach ..) rfl ?_
          refine Reach.step (State.modPair_reach ..) rfl ?_
          refine Reach.step (State.setPstate_reach ..) rfl ?_
          first | assumption | exact .refl
        · refine Reach.step (State.modPair_reach ..) rfl ?_
          first | assumption | exact .refl
      · first | assumption | exact .refl

abbrev State.refresh_parts : List Part :=
  [.regs, .den, .logNew, .chans, .pair, .change, .doms, .seqs, .hold3, .hold2, .pwms, .mem, .dataIn, .svcs,
   .basins, .power]
theorem State.refresh_reach (s : State) : Reach State.refresh_parts s (State.refresh s) := by
  unfold State.refresh
  extract_lets -underBinder -merge +onlyGivenNames x1
  refine Reach.ite ?_ ?_
  · extract_lets -underBinder -merge +onlyGivenNames s2
    have hs2 : Reach State.refresh_parts s s2 := by
      unfold s2
      refine Reach.step (State.setFld_reach ..) rfl ?_
      first | assumption | exact .refl
    refine Reach.ite ?_ ?_
    · refine Reach.write ?_ (by decide) (.den _)
      first | assumption | exact .refl
    · first | assumption | exact .refl
  · refine Reach.ite ?_ ?_
    · first | assumption | exact .refl
    · extract_lets -underBinder -merge +onlyGivenNames x0 s3 x4 x5 s6 s7
      have hs3 : Reach State.refresh_parts s s3 := by
        unfold s3
        refine Reach.step (State.bump_reach ..) rfl ?_
        refine Reach.write ?_ (by decide) (.power _)
        first | assumption | exact .refl
      have hs6 : Reach State.refresh_parts s s6 := by
        unfold s6
        refine Reach.write ?_ (by decide) (.den _)
        first | assumption | exact .refl
      have hs7 : Reach State.refresh_parts s s7 := by
        unfold s7
        refine Reach.ite ?_ ?_
        · refine Reach.step (State.takeToken_reach ..) rfl ?_
          first | assumption | exact .refl
        · refine Reach.ite ?_ ?_
          · first | assumption | exact .refl
          · refine Reach.step (State.redrive_reach ..) rfl ?_
            first | assumption | exact .refl
      refine Reach.step (State.tryJoin_reach ..) rfl ?_
      refine Reach.step (State.modPair_reach ..) rfl ?_
      first | assumption | exact .refl

theorem State.denOff_reach (s : State) : Reach [.den] s (State.denOff s) := by
  unfold State.denOff
  refine Reach.ite ?_ ?_
  · refine Reach.write ?_ (by decide) (.den _)
    first | assumption | exact .refl
  · first | assumption | exact .refl

theorem State.denStop_reach (s : State) : Reach [.den] s (State.denStop s) := by
  unfold State.denStop
  split
  · refine Reach.ite ?_ ?_
    · refine Reach.step (State.denOff_reach ..) rfl ?_
      first | assumption | exact .refl
    · first | assumption | exact .refl
  · first | assumption | exact .refl

theorem State.path7_reach (s : State) : Reach [.pair, .regs, .logNew, .chans, .change, .doms, .seqs, .hold3, .hold2, .pwms, .mem, .dataIn, .svcs, .basins, .power, .den] s (State.path7 s) := by
  unfold State.path7
  refine Reach.step (State.pathRelease_reach ..) rfl ?_
  refine Reach.step (State.spillInto_reach ..) rfl ?_
  refine Reach.write ?_ (by decide) (.den _)
  first | assumption | exact .refl

theorem State.denSilence_reach (s : State) : Reach [.pair, .regs, .logNew, .chans, .change, .doms, .seqs, .hold3, .hold2, .pwms, .mem, .dataIn, .svcs, .basins, .power, .den] s (State.denSilence s) := by
  unfold State.denSilence
  refine Reach.ite ?_ ?_
  · refine Reach.step (State.path7_reach ..) rfl ?_
    first | assumption | exact .refl
  · first | assumption | exact .refl

theorem State.leadForce_reach (s : State) : Reach [.pair] s (State.leadForce s) := by
  unfold State.leadForce
  refine Reach.ite ?_ ?_
  · refine Reach.step (State.modPair_reach ..) rfl ?_
    first | assumption | exact .refl
  · first | assumption | exact .refl

theorem State.oscLeave_reach (s : State) : Reach [.den, .power] s (State.oscLeave s) := by
  unfold State.oscLeave
  refine Reach.step (State.denOff_reach ..) rfl ?_
  refine Reach.write ?_ (by decide) (.power _)
  first | assumption | exact .refl

theorem State.hoRequest_reach (s : State) : Reach [.pair, .regs] s (State.hoRequest s) := by
  unfold State.hoRequest
  refine Reach.ite ?_ ?_
  · first | assumption | exact .refl
  · refine Reach.ite ?_ ?_
    · refine Reach.step (State.sendReliable_reach ..) rfl ?_
      refine Reach.step (State.modPair_reach ..) rfl ?_
      first | assumption | exact .refl
    · refine Reach.step (State.pairEvt_reach ..) rfl ?_
      first | assumption | exact .refl

abbrev State.rmgrSource_parts : List Part :=
  [.regs, .pair]
theorem State.rmgrSource_reach (s : State) (k : Nat) : Reach State.rmgrSource_parts s (State.rmgrSource s k) := by
  unfold State.rmgrSource
  refine Reach.ite ?_ ?_
  · extract_lets -underBinder -merge +onlyGivenNames s1
    have hs1 : Reach State.rmgrSource_parts s s1 := by
      unfold s1
      refine Reach.step (State.setFld_reach ..) rfl ?_
      first | assumption | exact .refl
    refine Reach.ite ?_ ?_
    · refine Reach.step (State.hoRequest_reach ..) rfl ?_
      first | assumption | exact .refl
    · first | assumption | exact .refl
  · first | assumption | exact .refl

abbrev State.hoRelease_parts : List Part :=
  [.pair, .regs, .logNew, .chans]
theorem State.hoRelease_reach (s : State) (cause : Nat) : Reach State.hoRelease_parts s (State.hoRelease s cause) := by
  unfold State.hoRelease
  extract_lets -underBinder -merge +onlyGivenNames s1 s2
  have hs1 : Reach State.hoRelease_parts s s1 := by
    unfold s1
    refine Reach.step (State.modPair_reach ..) rfl ?_
    first | assumption | exact .refl
  have hs2 : Reach State.hoRelease_parts s s2 := by
    unfold s2
    refine Reach.step (State.sendReliable_reach ..) rfl ?_
    first | assumption | exact .refl
  refine Reach.step (State.sendHb_reach ..) rfl ?_
  refine Reach.step (State.pairEvt_reach ..) rfl ?_
  refine Reach.step (State.releaseToken_reach ..) rfl ?_
  first | assumption | exact .refl

theorem State.idleInstant_reach (s : State) : Reach [.pair, .regs, .logNew, .chans] s (State.idleInstant s) := by
  unfold State.idleInstant
  split
  · refine Reach.ite ?_ ?_
    · refine Reach.step (State.hoRelease_reach ..) rfl ?_
      first | assumption | exact .refl
    · first | assumption | exact .refl
  · first | assumption | exact .refl

theorem State.idleExpiry_reach (s : State) : Reach [.pair, .regs, .logNew, .chans] s (State.idleExpiry s) := by
  unfold State.idleExpiry
  split
  · refine Reach.ite ?_ ?_
    · refine Reach.ite ?_ ?_
      · refine Reach.step (State.hoRelease_reach ..) rfl ?_
        first | assumption | exact .refl
      · refine Reach.step (State.hoAbort_reach ..) rfl ?_
        first | assumption | exact .refl
    · first | assumption | exact .refl
  · first | assumption | exact .refl

theorem State.resumeChannel_reach (s : State) (c : Nat) : Reach [.regs, .seqs, .chans] s (State.resumeChannel s c) := by
  unfold State.resumeChannel
  refine Reach.ite ?_ ?_
  · extract_lets -underBinder -merge +onlyGivenNames x1
    refine Reach.ite ?_ ?_
    · refine Reach.step (State.bump_reach ..) rfl ?_
      first | assumption | exact .refl
    · refine Reach.step (State.bump_reach ..) rfl ?_
      refine Reach.step (State.dropRefs_reach ..) rfl ?_
      refine Reach.step (State.clearChan_reach ..) rfl ?_
      first | assumption | exact .refl
  · first | assumption | exact .refl

abbrev State.takeOver_parts : List Part :=
  [.regs, .seqs, .chans, .logNew, .pair]
theorem State.takeOver_reach (s : State) (c : TakeCond) : Reach State.takeOver_parts s (State.takeOver s c) := by
  unfold State.takeOver
  extract_lets -underBinder -merge +onlyGivenNames s1 x2
  have hs1 : Reach State.takeOver_parts s s1 := by
    unfold s1
    refine Reach.ite ?_ ?_
    · refine Reach.step (State.putFlag_reach ..) rfl ?_
      first | assumption | exact .refl
    · refine Reach.step (State.putFlag_reach ..) rfl ?_
      first | assumption | exact .refl
  refine Reach.ite ?_ ?_
  · extract_lets -underBinder -merge +onlyGivenNames x3 s4
    have hs4 : Reach State.takeOver_parts s s4 := by
      unfold s4
      refine Reach.foldl _ _ (fun u5 y5 hu5 => ?_) ?_
      · refine Reach.step (State.resumeChannel_reach ..) rfl ?_
        first | assumption | exact .refl
      · refine Reach.step (State.takeToken_reach ..) rfl ?_
        first | assumption | exact .refl
    refine Reach.step (State.pairEvt_reach ..) rfl ?_
    first | assumption | exact .refl
  · first | assumption | exact .refl

abbrev State.startDecide_parts : List Part :=
  [.regs, .pair, .change, .doms, .logNew, .seqs, .chans, .hold3, .hold2, .pwms, .mem, .dataIn, .svcs, .basins,
   .power]
theorem State.startDecide_reach (s : State) (lead : Bool) (den : Bool) : Reach State.startDecide_parts s (State.startDecide s lead den) := by
  unfold State.startDecide
  extract_lets -underBinder -merge +onlyGivenNames s1
  have hs1 : Reach State.startDecide_parts s s1 := by
    unfold s1
    refine Reach.step (State.putFlag_reach ..) rfl ?_
    refine Reach.step (State.putFlag_reach ..) rfl ?_
    first | assumption | exact .refl
  refine Reach.ite ?_ ?_
  · refine Reach.ite ?_ ?_
    · refine Reach.ite ?_ ?_
      · refine Reach.step (State.enterJoining_reach ..) rfl ?_
        first | assumption | exact .refl
      · refine Reach.step (State.setPstate_reach ..) rfl ?_
        first | assumption | exact .refl
    · extract_lets -underBinder -merge +onlyGivenNames x2
      refine Reach.ite ?_ ?_
      · refine Reach.step (State.takeToken_reach ..) rfl ?_
        first | assumption | exact .refl
      · first | assumption | exact .refl
  · first | assumption | exact .refl

abbrev State.setPartner_parts : List Part :=
  [.regs]
theorem State.setPartner_reach (s : State) (v : Nat) : Reach State.setPartner_parts s (State.setPartner s v) := by
  unfold State.setPartner
  extract_lets -underBinder -merge +onlyGivenNames x1 s2
  have hs2 : Reach State.setPartner_parts s s2 := by
    unfold s2
    refine Reach.step (State.setFld_reach ..) rfl ?_
    first | assumption | exact .refl
  refine Reach.ite ?_ ?_
  · refine Reach.step (State.pairEvt_reach ..) rfl ?_
    first | assumption | exact .refl
  · first | assumption | exact .refl

theorem State.takeAck_reach (s : State) (ack : Nat) : Reach [.pair] s (State.takeAck s ack) := by
  unfold State.takeAck
  extract_lets -underBinder -merge +onlyGivenNames x1 x2 x3
  refine Reach.ite ?_ ?_
  · extract_lets -underBinder -merge +onlyGivenNames x4
    refine Reach.foldl _ _ (fun u5 y5 hu5 => ?_) ?_
    · refine Reach.step (State.sendFrame_reach ..) rfl ?_
      first | assumption | exact .refl
    · refine Reach.step (State.modPair_reach ..) rfl ?_
      first | assumption | exact .refl
  · first | assumption | exact .refl

abbrev State.heartbeat_parts : List Part :=
  [.pair, .regs, .change, .doms, .logNew, .seqs, .chans, .hold3, .hold2, .pwms, .mem, .dataIn, .svcs, .basins,
   .power]
theorem State.heartbeat_reach (s : State) (flags : Nat) (ack : Nat) (state : Nat) : Reach State.heartbeat_parts s (State.heartbeat s flags ack state) := by
  unfold State.heartbeat
  extract_lets -underBinder -merge +onlyGivenNames x1 x2 s3 s4 s5 s6 s7
  have hs3 : Reach State.heartbeat_parts s s3 := by
    unfold s3
    refine Reach.step (State.modPair_reach ..) rfl ?_
    first | assumption | exact .refl
  have hs4 : Reach State.heartbeat_parts s s4 := by
    unfold s4
    refine Reach.step (State.setPartner_reach ..) rfl ?_
    first | assumption | exact .refl
  have hs5 : Reach State.heartbeat_parts s s5 := by
    unfold s5
    refine Reach.ite ?_ ?_
    · refine Reach.step (State.pairEvt_reach ..) rfl ?_
      refine Reach.step (State.modPair_reach ..) rfl ?_
      refine Reach.step (State.raise_reach ..) rfl ?_
      first | assumption | exact .refl
    · first | assumption | exact .refl
  have hs6 : Reach State.heartbeat_parts s s6 := by
    unfold s6
    refine Reach.step (State.takeAck_reach ..) rfl ?_
    first | assumption | exact .refl
  have hs7 : Reach State.heartbeat_parts s s7 := by
    unfold s7
    refine Reach.ite ?_ ?_
    · refine Reach.step (State.hoAbort_reach ..) rfl ?_
      first | assumption | exact .refl
    · first | assumption | exact .refl
  refine Reach.step (State.tryJoin_reach ..) rfl ?_
  refine Reach.step (State.aimReport_reach ..) rfl ?_
  first | assumption | exact .refl

theorem State.hbMiss_reach (s : State) : Reach [.pair, .regs] s (State.hbMiss s) := by
  unfold State.hbMiss
  extract_lets -underBinder -merge +onlyGivenNames x1
  refine Reach.ite ?_ ?_
  · refine Reach.step (State.modPair_reach ..) rfl ?_
    refine Reach.step (State.bump_reach ..) rfl ?_
    first | assumption | exact .refl
  · first | assumption | exact .refl

abbrev State.linkLost_parts : List Part :=
  [.pair, .regs]
theorem State.linkLost_reach (s : State) : Reach State.linkLost_parts s (State.linkLost s) := by
  unfold State.linkLost
  extract_lets -underBinder -merge +onlyGivenNames s1 s2 x3
  have hs1 : Reach State.linkLost_parts s s1 := by
    unfold s1
    refine Reach.step (State.hoAbort_reach ..) rfl ?_
    refine Reach.step (State.pairEvt_reach ..) rfl ?_
    refine Reach.step (State.putFlag_reach ..) rfl ?_
    first | assumption | exact .refl
  have hs2 : Reach State.linkLost_parts s s2 := by
    unfold s2
    refine Reach.step (State.modPair_reach ..) rfl ?_
    first | assumption | exact .refl
  refine Reach.ite ?_ ?_
  · refine Reach.ite ?_ ?_
    · refine Reach.step (State.modPair_reach ..) rfl ?_
      refine Reach.step (State.joinFail_reach ..) rfl ?_
      first | assumption | exact .refl
    · refine Reach.step (State.setPstate_reach ..) rfl ?_
      first | assumption | exact .refl
  · first | assumption | exact .refl

abbrev State.linkDown_parts : List Part :=
  [.regs, .pair]
theorem State.linkDown_reach (s : State) : Reach State.linkDown_parts s (State.linkDown s) := by
  unfold State.linkDown
  refine Reach.ite ?_ ?_
  · first | assumption | exact .refl
  · extract_lets -underBinder -merge +onlyGivenNames s1
    have hs1 : Reach State.linkDown_parts s s1 := by
      unfold s1
      refine Reach.step (State.setPartner_reach ..) rfl ?_
      first | assumption | exact .refl
    refine Reach.ite ?_ ?_
    · refine Reach.step (State.linkLost_reach ..) rfl ?_
      first | assumption | exact .refl
    · first | assumption | exact .refl

theorem State.linkRetry_reach (s : State) : Reach [.regs, .pair] s (State.linkRetry s) := by
  unfold State.linkRetry
  refine Reach.ite ?_ ?_
  · extract_lets -underBinder -merge +onlyGivenNames x1
    refine Reach.step (State.bumpBy_reach ..) rfl ?_
    refine Reach.foldl _ _ (fun u2 y2 hu2 => ?_) ?_
    · refine Reach.step (State.sendFrame_reach ..) rfl ?_
      first | assumption | exact .refl
    · refine Reach.step (State.modPair_reach ..) rfl ?_
      first | assumption | exact .refl
  · first | assumption | exact .refl

theorem State.linkDiscard_reach (s : State) : Reach [.pair, .regs] s (State.linkDiscard s) := by
  unfold State.linkDiscard
  refine Reach.step (State.modPair_reach ..) rfl ?_
  refine Reach.step (State.bump_reach ..) rfl ?_
  first | assumption | exact .refl

theorem State.reliable_reach (V : List Part) (s : State) (q : Nat) (f : State → State)
    (hf : ∀ t, Reach V t (f t)) : Reach (.pair :: V) s (s.reliable q f) := by
  unfold State.reliable
  split
  · exact ((State.modPair_reach ..).mono (by simp +contextual)).trans ((hf _).mono fun p hp => by simp [hp])
  · exact .refl

abbrev State.modeFrame_parts : List Part :=
  [.regs, .change, .doms, .logNew, .seqs, .chans, .hold3, .hold2, .pwms, .mem, .dataIn, .svcs, .pair, .basins,
   .power, .auxOff, .gio]
theorem State.modeFrame_reach (s : State) (target : Nat) (cause : Nat) (d : Nat) (imm : Bool) (angle : Nat) : Reach State.modeFrame_parts s (State.modeFrame s target cause d imm angle) := by
  unfold State.modeFrame
  refine Reach.ite ?_ ?_
  · refine Reach.step (State.aimFrame_reach ..) rfl ?_
    first | assumption | exact .refl
  · refine Reach.ite ?_ ?_
    · refine Reach.ite ?_ ?_
      · refine Reach.step (State.acceptDormant_reach ..) rfl ?_
        first | assumption | exact .refl
      · refine Reach.ite ?_ ?_
        · extract_lets -underBinder -merge +onlyGivenNames x1 x2 s3
          have hs3 : Reach State.modeFrame_parts s s3 := by
            unfold s3
            refine Reach.ite ?_ ?_
            · refine Reach.step (State.spill_reach ..) rfl ?_
              first | assumption | exact .refl
            · first | assumption | exact .refl
          refine Reach.step (State.reachEpoch_reach ..) rfl ?_
          refine Reach.step (State.accept_reach ..) rfl ?_
          first | assumption | exact .refl
        · refine Reach.step (State.epochLost_reach ..) rfl ?_
          refine Reach.step (State.accept_reach ..) rfl ?_
          first | assumption | exact .refl
    · first | assumption | exact .refl

theorem State.tokenOffer_reach (s : State) : Reach [.pair] s (State.tokenOffer s) := by
  unfold State.tokenOffer
  refine Reach.ite ?_ ?_
  · refine Reach.step (State.sendReliable_reach ..) rfl ?_
    refine Reach.step (State.modPair_reach ..) rfl ?_
    first | assumption | exact .refl
  · refine Reach.step (State.sendReliable_reach ..) rfl ?_
    first | assumption | exact .refl

theorem State.tokenAccept_reach (s : State) : Reach [.pair] s (State.tokenAccept s) := by
  unfold State.tokenAccept
  refine Reach.step (State.modPair_reach ..) rfl ?_
  first | assumption | exact .refl

theorem State.tokenRefuse_reach (s : State) : Reach [.regs, .pair] s (State.tokenRefuse s) := by
  unfold State.tokenRefuse
  refine Reach.ite ?_ ?_
  · refine Reach.step (State.pairEvt_reach ..) rfl ?_
    refine Reach.step (State.modPair_reach ..) rfl ?_
    first | assumption | exact .refl
  · first | assumption | exact .refl

theorem State.tokenAbort_reach (s : State) : Reach [.pair] s (State.tokenAbort s) := by
  unfold State.tokenAbort
  refine Reach.step (State.modPair_reach ..) rfl ?_
  first | assumption | exact .refl

theorem State.joinStart_reach (s : State) : Reach [.regs, .pair] s (State.joinStart s) := by
  unfold State.joinStart
  refine Reach.ite ?_ ?_
  · refine Reach.step (State.setFld_reach ..) rfl ?_
    refine Reach.step (State.modPair_reach ..) rfl ?_
    first | assumption | exact .refl
  · first | assumption | exact .refl

abbrev State.joinRunSeq_parts : List Part :=
  [.seqs]
theorem State.joinRunSeq_reach (s : State) (n : Nat) : Reach State.joinRunSeq_parts s (State.joinRunSeq s n) := by
  unfold State.joinRunSeq
  split
  · extract_lets -underBinder -merge +onlyGivenNames s1
    have hs1 : Reach State.joinRunSeq_parts s s1 := by
      unfold s1
      refine Reach.step (State.modSeq_reach _ _ _ (fun q h => ?_)) rfl ?_
      · first | exact h | (simp_all [Seq.ok, Tab.rising, Tab.every]; done)
      · first | assumption | exact .refl
    refine Reach.ite ?_ ?_
    · refine Reach.step (State.startSeq_reach ..) rfl ?_
      first | assumption | exact .refl
    · first | assumption | exact .refl
  · first | assumption | exact .refl

abbrev State.joinEnd_parts : List Part :=
  [.seqs, .regs, .change, .doms, .logNew, .chans, .hold3, .hold2, .pwms, .mem, .dataIn, .svcs, .pair, .basins,
   .power]
theorem State.joinEnd_reach (s : State) (len : Nat) (crc : Nat) : Reach State.joinEnd_parts s (State.joinEnd s len crc) := by
  unfold State.joinEnd
  refine Reach.ite ?_ ?_
  · refine Reach.ite ?_ ?_
    · extract_lets -underBinder -merge +onlyGivenNames s1
      have hs1 : Reach State.joinEnd_parts s s1 := by
        unfold s1
        refine Reach.foldl _ _ (fun u2 y2 hu2 => ?_) ?_
        · refine Reach.step (State.joinRunSeq_reach ..) rfl ?_
          first | assumption | exact .refl
        · first | assumption | exact .refl
      refine Reach.step (State.joinFollow_reach ..) rfl ?_
      refine Reach.step (State.modPair_reach ..) rfl ?_
      first | assumption | exact .refl
    · refine Reach.step (State.joinFail_reach ..) rfl ?_
      first | assumption | exact .refl
  · first | assumption | exact .refl

theorem State.joinAborted_reach (s : State) : Reach [.regs, .pair] s (State.joinAborted s) := by
  unfold State.joinAborted
  refine Reach.ite ?_ ?_
  · refine Reach.step (State.joinFail_reach ..) rfl ?_
    first | assumption | exact .refl
  · first | assumption | exact .refl

theorem State.joinAbortCmd_reach (s : State) : Reach [.regs, .pair] s (State.joinAbortCmd s) := by
  unfold State.joinAbortCmd
  refine Reach.ite ?_ ?_
  · refine Reach.step (State.joinAborted_reach ..) rfl ?_
    refine Reach.step (State.sendReliable_reach ..) rfl ?_
    first | assumption | exact .refl
  · first | assumption | exact .refl

theorem State.presentMake_reach (s : State) : Reach [.chans, .pair, .regs] s (State.presentMake s) := by
  unfold State.presentMake
  refine Reach.step (State.redrive_reach ..) rfl ?_
  refine Reach.step (State.modPair_reach ..) rfl ?_
  refine Reach.step (State.raise_reach ..) rfl ?_
  first | assumption | exact .refl

theorem State.presentBreak_reach (s : State) : Reach [.pair, .regs, .logNew, .chans, .change, .doms, .seqs, .hold3, .hold2, .pwms, .mem, .dataIn, .svcs, .basins, .power] s (State.presentBreak s) := by
  unfold State.presentBreak
  refine Reach.ite ?_ ?_
  · refine Reach.step (State.pathRelease_reach ..) rfl ?_
    refine Reach.step (State.spillInto_reach ..) rfl ?_
    refine Reach.step (State.putFlag_reach ..) rfl ?_
    first | assumption | exact .refl
  · refine Reach.step (State.putFlag_reach ..) rfl ?_
    first | assumption | exact .refl


/-! ### Reset.lean -/

theorem State.functionReset_reach (s : State) (rs : List Reg) : Reach [.regs] s (State.functionReset s rs) := by
  unfold State.functionReset
  refine Reach.step (State.resetKeys_reach ..) rfl ?_
  first | assumption | exact .refl

theorem State.resetTarget_reach (s : State) (k : Nat) : Reach [.regs] s (State.resetTarget s k) := by
  unfold State.resetTarget
  refine Reach.ite ?_ ?_
  · refine Reach.step (State.setFld_reach ..) rfl ?_
    refine Reach.step (State.setFld_reach ..) rfl ?_
    refine Reach.step (State.setFld_reach ..) rfl ?_
    first | assumption | exact .refl
  · first | assumption | exact .refl

abbrev State.resetF0_parts : List Part :=
  [.regs, .dmas]
theorem State.resetF0_reach (s : State) : Reach State.resetF0_parts s (State.resetF0 s) := by
  unfold State.resetF0
  extract_lets -underBinder -merge +onlyGivenNames s1 s2 s3 s4
  have hs1 : Reach State.resetF0_parts s s1 := by
    unfold s1
    refine Reach.step (State.functionReset_reach ..) rfl ?_
    first | assumption | exact .refl
  have hs2 : Reach State.resetF0_parts s s2 := by
    unfold s2
    refine Reach.step (State.functionReset_reach ..) rfl ?_
    first | assumption | exact .refl
  have hs3 : Reach State.resetF0_parts s s3 := by
    unfold s3
    refine Reach.foldl _ _ (fun u5 y5 hu5 => ?_) ?_
    · refine Reach.step (State.resetTarget_reach ..) rfl ?_
      first | assumption | exact .refl
    · first | assumption | exact .refl
  have hs4 : Reach State.resetF0_parts s s4 := by
    unfold s4
    refine Reach.step (State.functionReset_reach ..) rfl ?_
    first | assumption | exact .refl
  refine Reach.write ?_ (by decide) (.dmas [] fun _ => rfl)
  first | assumption | exact .refl

theorem State.clearData_reach (s : State) (n : Nat) : Reach [.mem, .dataIn] s (State.clearData s n) := by
  unfold State.clearData
  refine Reach.step (State.modeWord_reach ..) rfl ?_
  refine Reach.step (State.clearMem_reach ..) rfl ?_
  first | assumption | exact .refl

/-- What is left of the channels' records keeps its form. -/
theorem Chan.atReset_canonical {t : Tab Chan} (h : Tab.canonical {} t = true) :
    Tab.canonical {} (t.filterMap fun e => (Chan.atReset e.2).map fun x => (e.1, x)) = true := by
  obtain ⟨h1, -⟩ := Bool.and_eq_true_iff.1 h
  refine Bool.and_eq_true_iff.2 ⟨Tab.rising_filterMap _ h1, List.all_eq_true.2 fun e he => ?_⟩
  obtain ⟨y, -, hy⟩ := List.mem_filterMap.1 he
  obtain ⟨z, hz, rfl⟩ := Option.map_eq_some_iff.1 hy
  unfold Chan.atReset at hz
  dsimp only at hz
  split at hz
  · cases hz
  · rename_i hne
    simpa [← Option.some.inj hz] using hne

abbrev State.resetF1_parts : List Part :=
  [.seqs, .regs, .change, .chans, .mem, .dataIn, .armAt, .doms, .svcs, .logNew, .hold3, .hold2, .pwms, .pair,
   .basins, .power]
theorem State.resetSeqs_reach (t : State) : Reach State.resetF1_parts t ((upto 24).foldl State.resetSeq t) :=
  Reach.foldl _ _ (fun _ _ h => Reach.step (State.resetSeq_reach ..) rfl h) .refl

theorem State.dropSlots_reach (t : State) :
    Reach State.resetF1_parts t ((upto 24).foldl (fun t n => t.modSeq n fun q => { q with slots := [] }) t) :=
  Reach.foldl _ _ (fun _ _ h => Reach.step (State.modSeq_reach _ _ _ fun _ h =>
    (Seq.ok_iff _).2 ⟨((Seq.ok_iff _).1 h).1, ((Seq.ok_iff _).1 h).2.1, rfl, ((Seq.ok_iff _).1 h).2.2.2⟩) rfl h) .refl

theorem State.resetF1Tables_reach (t : State) : Reach State.resetF1_parts t
    { t with doms := [], armAt := [], svcs := []
             chans := t.chans.filterMap fun e => (Chan.atReset e.2).map fun x => (e.1, x) } := by
  have w1 := Reach.write (W := State.resetF1_parts) (s := t) .refl (p := .armAt) (by decide) (.armAt [] fun _ => rfl)
  have w2 := Reach.write w1 (p := .doms) (by decide) (.doms [] fun _ => rfl)
  have w3 := Reach.write w2 (p := .chans) (by decide) (.chans _ Chan.atReset_canonical)
  exact .write w3 (by decide) (.svcs [] fun _ => rfl)

theorem State.entryPcs_reach (t : State) :
    Reach State.resetF1_parts t ((upto 24).foldl (fun t n => t.modSeq n fun q => { q with pc := t.entry n q.bank }) t) :=
  Reach.foldl _ _ (fun _ _ h => Reach.step (State.modSeq_reach _ _ _ fun _ h => h) rfl h) .refl

theorem State.clearAllData_reach (t : State) : Reach State.resetF1_parts t ((upto 24).foldl State.clearData t) :=
  Reach.foldl _ _ (fun _ _ h => Reach.step (State.clearData_reach ..) rfl h) .refl

theorem State.settleDoms_reach (t : State) : Reach State.resetF1_parts t ((upto 4).foldl State.modeSettleDom t) :=
  Reach.foldl _ _ (fun _ _ h => Reach.step (State.modeSettleDom_reach ..) rfl h) .refl

theorem State.resetF1_reach (s : State) : Reach State.resetF1_parts s (State.resetF1 s) := by
  unfold State.resetF1
  extract_lets s1 s2 s3 s4 s5 s6
  have h1 : Reach State.resetF1_parts s s1 := State.resetSeqs_reach _
  clear_value s1
  have h2 : Reach State.resetF1_parts s s2 := h1.trans (State.dropSlots_reach _)
  clear_value s2
  have h3 : Reach State.resetF1_parts s s3 := Reach.step (State.functionReset_reach ..) rfl h2
  clear_value s3
  have h4 : Reach State.resetF1_parts s s4 := h3.trans (State.resetF1Tables_reach _)
  clear_value s4
  have h5 : Reach State.resetF1_parts s s5 := h4.trans (State.entryPcs_reach _)
  clear_value s5
  have h6 : Reach State.resetF1_parts s s6 := h5.trans (State.clearAllData_reach _)
  clear_value s6
  exact Reach.step (State.epochLost_reach ..) rfl (Reach.step (State.redrive_reach ..) rfl (h6.trans (State.settleDoms_reach _)))

abbrev State.resetF2_parts : List Part :=
  [.regs, .adcs, .settle, .basins, .trkLatch, .feeds]
theorem State.resetF2_reach (s : State) : Reach State.resetF2_parts s (State.resetF2 s) := by
  unfold State.resetF2
  extract_lets -underBinder -merge +onlyGivenNames s1
  have hs1 : Reach State.resetF2_parts s s1 := by
    unfold s1
    refine Reach.step (State.functionReset_reach ..) rfl ?_
    first | assumption | exact .refl
  clear_value s1
  have w20 : Reach State.resetF2_parts s (s1) := by
    first | assumption | exact .refl
  have w21 := Reach.write w20 (p := .adcs) (by decide) (.adcs [] fun _ => rfl)
  have w22 := Reach.write w21 (p := .settle) (by decide) (.settle [] fun _ => rfl)
  have w23 := Reach.write w22 (p := .basins) (by decide) (.basins [] fun _ => rfl)
  have w24 := Reach.write w23 (p := .trkLatch) (by decide) (.trkLatch [] fun _ => rfl)
  exact .write w24 (by decide) (.feeds [] fun _ => rfl)

abbrev State.resetF3_parts : List Part :=
  [.regs, .ioes, .trips, .cmps, .pwms, .gio]
theorem State.resetF3_reach (s : State) : Reach State.resetF3_parts s (State.resetF3 s) := by
  unfold State.resetF3
  extract_lets -underBinder -merge +onlyGivenNames s1 s2 s3
  have hs1 : Reach State.resetF3_parts s s1 := by
    unfold s1
    refine Reach.foldl _ _ (fun u4 y4 hu4 => ?_) ?_
    · refine Reach.step (State.ioeReset_reach ..) rfl ?_
      first | assumption | exact .refl
    · first | assumption | exact .refl
  have hs2 : Reach State.resetF3_parts s s2 := by
    unfold s2
    refine Reach.step (State.functionReset_reach ..) rfl ?_
    first | assumption | exact .refl
  have hs3 : Reach State.resetF3_parts s s3 := by
    unfold s3
    refine Reach.step (State.tripRefreshAll_reach ..) rfl ?_
    clear_value s2
    have w50 : Reach State.resetF3_parts s (s2) := by
      first | assumption | exact .refl
    have w51 := Reach.write w50 (p := .cmps) (by decide) (.cmps [] fun _ => rfl)
    have w52 := Reach.write w51 (p := .pwms) (by decide) (.pwms [] fun _ => rfl)
    exact .write w52 (by decide) (.gio [] fun _ => rfl)
  refine Reach.ite ?_ ?_
  · refine Reach.step (State.pwmHold_reach ..) rfl ?_
    first | assumption | exact .refl
  · first | assumption | exact .refl

theorem State.powerOn_reach (s : State) (straps : Nat) : Reach Part.all s (s.powerOn straps) :=
  Reach.step (State.setFld_reach ..) rfl (.fresh .refl fun _ h => h)


/-! ### Boundary.lean -/

abbrev State.countCycle_parts : List Part :=
  [.regs]
theorem State.countCycle_reach (s : State) (d : Nat) : Reach State.countCycle_parts s (State.countCycle s d) := by
  unfold State.countCycle
  extract_lets -underBinder -merge +onlyGivenNames x1 s2
  have hs2 : Reach State.countCycle_parts s s2 := by
    unfold s2
    refine Reach.step (State.setFld_reach ..) rfl ?_
    first | assumption | exact .refl
  refine Reach.ite ?_ ?_
  · refine Reach.step (State.raise_reach ..) rfl ?_
    first | assumption | exact .refl
  · first | assumption | exact .refl

theorem State.swapsAt_reach (s : State) (d : Nat) : Reach [.seqs, .regs] s (State.swapsAt s d) := by
  unfold State.swapsAt
  refine Reach.foldl _ _ (fun u1 y1 hu1 => ?_) ?_
  · refine Reach.ite ?_ ?_
    · refine Reach.step (State.swapBoundary_reach ..) rfl ?_
      first | assumption | exact .refl
    · first | assumption | exact .refl
  · first | assumption | exact .refl

abbrev State.cycleBoundary_parts : List Part :=
  [.regs, .doms, .weightSwap, .change, .pair, .logNew, .seqs, .chans, .hold3, .hold2, .pwms, .mem, .dataIn, .svcs,
   .basins, .power]
theorem State.cycleBoundary_reach (s : State) (d : Nat) : Reach State.cycleBoundary_parts s (State.cycleBoundary s d) := by
  unfold State.cycleBoundary
  refine Reach.ite ?_ ?_
  · extract_lets -underBinder -merge +onlyGivenNames s1 s2 s3
    have hs1 : Reach State.cycleBoundary_parts s s1 := by
      unfold s1
      refine Reach.step (State.countCycle_reach ..) rfl ?_
      refine Reach.step (State.modDom_reach ..) rfl ?_
      first | assumption | exact .refl
    have hs2 : Reach State.cycleBoundary_parts s s2 := by
      unfold s2
      refine Reach.step (State.weightBoundary_reach ..) rfl ?_
      refine Reach.step (State.tclBoundary_reach ..) rfl ?_
      first | assumption | exact .refl
    have hs3 : Reach State.cycleBoundary_parts s s3 := by
      unfold s3
      refine Reach.step (State.modeCount_reach ..) rfl ?_
      refine Reach.step (State.joinBoundary_reach ..) rfl ?_
      first | assumption | exact .refl
    refine Reach.step (State.swapsAt_reach ..) rfl ?_
    refine Reach.step (State.modeBoundary_reach ..) rfl ?_
    first | assumption | exact .refl
  · first | assumption | exact .refl

end Sys2Proof.Machine
end

