-- ==== Sys2Proof/Laws/ReachAccess.lean ====
section
/-! SUPPORT. One lemma per operation: what accesses, DMA, the endpoint, the monitor port, power and time write. -/

namespace Sys2Proof.Machine

/-! ### Supplies.lean -/

theorem State.supOn_reach (s : State) (n : Nat) : Reach [.regs] s (State.supOn s n) := by
  unfold State.supOn
  refine Reach.step (State.clearBits_reach ..) rfl ?_
  refine Reach.step (State.clearBits_reach ..) rfl ?_
  refine Reach.step (State.orFld_reach ..) rfl ?_
  first | assumption | exact .refl

abbrev State.supCfg_parts : List Part :=
  [.regs]
theorem State.supCfg_reach (s : State) (v : Nat) : Reach State.supCfg_parts s (State.supCfg s v) := by
  unfold State.supCfg
  extract_lets -underBinder -merge +onlyGivenNames x1 s2
  have hs2 : Reach State.supCfg_parts s s2 := by
    unfold s2
    refine Reach.step (State.setFld_reach ..) rfl ?_
    refine Reach.step (State.setFld_reach ..) rfl ?_
    first | assumption | exact .refl
  refine Reach.foldl _ _ (fun u3 y3 hu3 => ?_) ?_
  · refine Reach.ite ?_ ?_
    · refine Reach.ite ?_ ?_
      · first | assumption | exact .refl
      · refine Reach.step (State.supOn_reach ..) rfl ?_
        first | assumption | exact .refl
    · refine Reach.step (State.supOff_reach ..) rfl ?_
      first | assumption | exact .refl
  · first | assumption | exact .refl

abbrev State.supOverload_parts : List Part :=
  [.regs, .power]
theorem State.supOverload_reach (s : State) (n : Nat) : Reach State.supOverload_parts s (State.supOverload s n) := by
  unfold State.supOverload
  refine Reach.ite ?_ ?_
  · extract_lets -underBinder -merge +onlyGivenNames s1
    have hs1 : Reach State.supOverload_parts s s1 := by
      unfold s1
      refine Reach.step (State.clearBits_reach ..) rfl ?_
      refine Reach.step (State.orFld_reach ..) rfl ?_
      first | assumption | exact .refl
    refine Reach.write ?_ (by decide) (.power _)
    first | assumption | exact .refl
  · first | assumption | exact .refl

abbrev State.supTrip_parts : List Part :=
  [.regs, .power]
theorem State.supTrip_reach (s : State) (n : Nat) : Reach State.supTrip_parts s (State.supTrip s n) := by
  unfold State.supTrip
  refine Reach.ite ?_ ?_
  · extract_lets -underBinder -merge +onlyGivenNames s1 s2
    have hs1 : Reach State.supTrip_parts s s1 := by
      unfold s1
      refine Reach.step (State.orFld_reach ..) rfl ?_
      refine Reach.step (State.clearBits_reach ..) rfl ?_
      first | assumption | exact .refl
    have hs2 : Reach State.supTrip_parts s s2 := by
      unfold s2
      refine Reach.step (State.orFld_reach ..) rfl ?_
      first | assumption | exact .refl
    refine Reach.write ?_ (by decide) (.power _)
    first | assumption | exact .refl
  · first | assumption | exact .refl

theorem State.supRetry_reach (s : State) (n : Nat) : Reach [.regs] s (State.supRetry s n) := by
  unfold State.supRetry
  refine Reach.ite ?_ ?_
  · refine Reach.step (State.supOn_reach ..) rfl ?_
    first | assumption | exact .refl
  · first | assumption | exact .refl

theorem State.supEnd_reach (s : State) (n : Nat) : Reach [.regs] s (State.supEnd s n) := by
  unfold State.supEnd
  refine Reach.ite ?_ ?_
  · refine Reach.step (State.supOn_reach ..) rfl ?_
    first | assumption | exact .refl
  · first | assumption | exact .refl


/-! ### DmaChannels.lean -/

theorem State.modDma_reach (s : State) (c : Nat) (f : Dma → Dma) : Reach [.dmas] s (State.modDma s c f) := by
  unfold State.modDma
  refine Reach.step (State.setDma_reach ..) rfl ?_
  first | assumption | exact .refl

theorem State.putDmaState_reach (s : State) (c : Nat) (v : Nat) : Reach [.regs] s (State.putDmaState s c v) := by
  unfold State.putDmaState
  refine Reach.step (State.setFld_reach ..) rfl ?_
  first | assumption | exact .refl

theorem State.dmaAbort_reach (s : State) (c : Nat) : Reach [.regs, .dmas] s (State.dmaAbort s c) := by
  unfold State.dmaAbort
  extract_lets -underBinder -merge +onlyGivenNames x1
  refine Reach.ite ?_ ?_
  · refine Reach.step (State.putDmaState_reach ..) rfl ?_
    refine Reach.step (State.putFlag_reach ..) rfl ?_
    first | assumption | exact .refl
  · refine Reach.step (State.putDmaState_reach ..) rfl ?_
    refine Reach.step (State.setDma_reach ..) rfl ?_
    first | assumption | exact .refl

abbrev State.dmaCfg_parts : List Part :=
  [.regs, .mspi, .dmas]
theorem State.dmaCfg_reach (s : State) (src : Nat) (off : Nat) (be : Nat) (c : Nat) (v : Nat) : Reach State.dmaCfg_parts s (State.dmaCfg s src off be c v) := by
  unfold State.dmaCfg
  extract_lets -underBinder -merge +onlyGivenNames x1 x2 x3 x4 x5 x6 s7 s8 s9 s10
  have hs7 : Reach State.dmaCfg_parts s s7 := by
    unfold s7
    refine Reach.ite ?_ ?_
    · first | assumption | exact .refl
    · refine Reach.step (State.setFld_reach ..) rfl ?_
      refine Reach.step (State.setFld_reach ..) rfl ?_
      refine Reach.step (State.setFld_reach ..) rfl ?_
      first | assumption | exact .refl
  have hs8 : Reach State.dmaCfg_parts s s8 := by
    unfold s8
    refine Reach.ite ?_ ?_
    · refine Reach.step (State.raise_reach ..) rfl ?_
      first | assumption | exact .refl
    · refine Reach.step (State.setFld_reach ..) rfl ?_
      first | assumption | exact .refl
  have hs9 : Reach State.dmaCfg_parts s s9 := by
    unfold s9
    refine Reach.ite ?_ ?_
    · refine Reach.step (State.accessErr_reach ..) rfl ?_
      first | assumption | exact .refl
    · refine Reach.ite ?_ ?_
      · refine Reach.step (State.accessErr_reach ..) rfl ?_
        first | assumption | exact .refl
      · first | assumption | exact .refl
  have hs10 : Reach State.dmaCfg_parts s s10 := by
    unfold s10
    refine Reach.step (State.setFld_reach ..) rfl ?_
    first | assumption | exact .refl
  clear_value x1
  split
  · refine Reach.ite ?_ ?_
    · refine Reach.step (State.raise_reach ..) rfl ?_
      first | assumption | exact .refl
    · extract_lets -underBinder -merge +onlyGivenNames s11
      have hs11 : Reach State.dmaCfg_parts s s11 := by
        unfold s11
        refine Reach.step (State.raise_reach ..) rfl ?_
        first | assumption | exact .refl
      refine Reach.ite ?_ ?_
      · first | assumption | exact .refl
      · refine Reach.step (State.putDmaState_reach ..) rfl ?_
        first | assumption | exact .refl
  · refine Reach.step (State.dmaAbort_reach ..) rfl ?_
    refine Reach.step (State.putFlag_reach ..) rfl ?_
    first | assumption | exact .refl
  · first | assumption | exact .refl

abbrev State.dmaCmd_parts : List Part :=
  [.regs, .dmas, .mspi]
theorem State.dmaCmd_reach (s : State) (src : Nat) (off : Nat) (be : Nat) (c : Nat) (v : Nat) : Reach State.dmaCmd_parts s (State.dmaCmd s src off be c v) := by
  unfold State.dmaCmd
  extract_lets -underBinder -merge +onlyGivenNames s1
  have hs1 : Reach State.dmaCmd_parts s s1 := by
    unfold s1
    refine Reach.ite ?_ ?_
    · refine Reach.step (State.dmaAbort_reach ..) rfl ?_
      first | assumption | exact .refl
    · first | assumption | exact .refl
  refine Reach.ite ?_ ?_
  · refine Reach.ite ?_ ?_
    · refine Reach.step (State.accessErr_reach ..) rfl ?_
      first | assumption | exact .refl
    · refine Reach.step (State.setFld_reach ..) rfl ?_
      first | assumption | exact .refl
  · first | assumption | exact .refl

theorem State.dmaTail_reach (s : State) (src : Nat) (off : Nat) (be : Nat) (c : Nat) (v : Nat) : Reach [.mspi, .regs] s (State.dmaTail s src off be c v) := by
  unfold State.dmaTail
  refine Reach.ite ?_ ?_
  · refine Reach.step (State.accessErr_reach ..) rfl ?_
    first | assumption | exact .refl
  · refine Reach.step (State.setFld_reach ..) rfl ?_
    first | assumption | exact .refl

theorem State.dmaRd_reach (s : State) (src : Nat) (off : Nat) (be : Nat) (c : Nat) (v : Nat) : Reach [.mspi, .regs] s (State.dmaRd s src off be c v) := by
  unfold State.dmaRd
  refine Reach.ite ?_ ?_
  · refine Reach.step (State.accessErr_reach ..) rfl ?_
    first | assumption | exact .refl
  · refine Reach.step (State.setFld_reach ..) rfl ?_
    first | assumption | exact .refl


/-! ### Access.lean -/

theorem State.forward_reach (s : State) (src : Nat) (off : Nat) (be : Nat) (v : Nat) : Reach [.pair] s (State.forward s src off be v) := by
  unfold State.forward
  refine Reach.ite ?_ ?_
  · refine Reach.step (State.sendReliable_reach ..) rfl ?_
    first | assumption | exact .refl
  · first | assumption | exact .refl

theorem State.publish_reach (s : State) (src : Nat) (tok : Nat) : Reach [.pair, .regs] s (State.publish s src tok) := by
  unfold State.publish
  refine Reach.step (State.forward_reach ..) rfl ?_
  refine Reach.step (State.fenceToken_reach ..) rfl ?_
  first | assumption | exact .refl

theorem State.restart_reach (s : State) (r : Reg) (i : Nat) : Reach [.regs] s (State.restart s r i) := by
  unfold State.restart
  refine Reach.foldl _ _ (fun u1 y1 hu1 => ?_) ?_
  · refine Reach.step (State.setFld_reach ..) rfl ?_
    first | assumption | exact .refl
  · first | assumption | exact .refl

abbrev State.readEffect_parts : List Part :=
  [.regs, .seqs, .basins, .trkLatch, .feeds, .ioes]
theorem State.readEffect_reach (s : State) (src : Nat) (a : RegAt) : Reach State.readEffect_parts s (State.readEffect s src a) := by
  unfold State.readEffect
  extract_lets -underBinder -merge +onlyGivenNames s1
  have hs1 : Reach State.readEffect_parts s s1 := by
    unfold s1
    refine Reach.step (State.restart_reach ..) rfl ?_
    first | assumption | exact .refl
  split
  · refine Reach.step (State.modSeq_reach _ _ _ (fun q h => ?_)) rfl ?_
    · first | exact h | (simp_all [Seq.ok, Tab.rising, Tab.every]; done)
    · first | assumption | exact .refl
  · refine Reach.step (State.modSeq_reach _ _ _ (fun q h => ?_)) rfl ?_
    · first | exact h | (simp_all [Seq.ok, Tab.rising, Tab.every]; done)
    · first | assumption | exact .refl
  · refine Reach.step (State.setFld_reach ..) rfl ?_
    first | assumption | exact .refl
  · refine Reach.ite ?_ ?_
    · refine Reach.step (State.readBegin_reach ..) rfl ?_
      first | assumption | exact .refl
    · first | assumption | exact .refl
  · refine Reach.step (State.readEnd_reach ..) rfl ?_
    first | assumption | exact .refl
  · refine Reach.step (State.trkRead_reach ..) rfl ?_
    first | assumption | exact .refl
  · refine Reach.ite ?_ ?_
    · refine Reach.step (State.feedHigh_reach ..) rfl ?_
      first | assumption | exact .refl
    · refine Reach.step (State.feedLow_reach ..) rfl ?_
      first | assumption | exact .refl
  · refine Reach.step (State.qoutRead_reach ..) rfl ?_
    first | assumption | exact .refl
  · first | assumption | exact .refl

abbrev State.readReg_parts : List Part :=
  [.mspi, .regs, .latched, .seqs, .basins, .trkLatch, .feeds, .ioes]
theorem State.readReg_reach (s : State) (src : Nat) (off : Nat) (be : Nat) (a : RegAt) : Reach State.readReg_parts s (State.readReg s src off be a).1 := by
  unfold State.readReg
  extract_lets -underBinder -merge +onlyGivenNames x1
  split
  · refine Reach.fstMk ?_
    refine Reach.step (State.accessErr_reach ..) rfl ?_
    first | assumption | exact .refl
  · extract_lets -underBinder -merge +onlyGivenNames x2 x3 x4 x5 s6 s7
    have hs6 : Reach State.readReg_parts s s6 := by
      unfold s6
      refine Reach.ite ?_ ?_
      · refine Reach.step (State.accessErr_reach ..) rfl ?_
        first | assumption | exact .refl
      · first | assumption | exact .refl
    have hs7 : Reach State.readReg_parts s s7 := by
      unfold s7
      refine Reach.ite ?_ ?_
      · refine Reach.write ?_ (by decide) (.latched _ (by first | exact fun h => Tab.rising_put _ _ h | exact fun h => h))
        first | assumption | exact .refl
      · first | assumption | exact .refl
    refine Reach.fstMk ?_
    refine Reach.step (State.readEffect_reach ..) rfl ?_
    first | assumption | exact .refl

abbrev State.busRead_parts : List Part :=
  [.mspi, .regs, .latched, .seqs, .basins, .trkLatch, .feeds, .ioes]
theorem State.busRead_reach (s : State) (src : Nat) (off : Nat) (be : Nat) : Reach State.busRead_parts s (State.busRead s src off be).1 := by
  unfold State.busRead
  split
  · refine Reach.fstMk ?_
    first | assumption | exact .refl
  · split
    · refine Reach.fstMk ?_
      refine Reach.step (State.accessErr_reach ..) rfl ?_
      first | assumption | exact .refl
    · split
      · extract_lets -underBinder -merge +onlyGivenNames p1
        have hp1 : Reach State.busRead_parts s p1.1 := by
          unfold p1
          refine Reach.step (State.readReg_reach ..) rfl ?_
          first | assumption | exact .refl
        refine Reach.fstMk ?_
        first | assumption | exact .refl
      · refine Reach.fstMk ?_
        first | assumption | exact .refl
      · refine Reach.fstMk ?_
        refine Reach.step (State.accessErr_reach ..) rfl ?_
        first | assumption | exact .refl

theorem State.memRefused_reach (s : State) (x : MemAt) : Reach [.regs] s (State.memRefused s x) := by
  unfold State.memRefused
  split
  · refine Reach.step (State.raise_reach ..) rfl ?_
    first | assumption | exact .refl
  · refine Reach.step (State.raise_reach ..) rfl ?_
    first | assumption | exact .refl
  · first | assumption | exact .refl

theorem State.mapmWrite_reach (s : State) : Reach [.mapm] s (State.mapmWrite s) := by
  unfold State.mapmWrite
  extract_lets -underBinder -merge +onlyGivenNames x1
  refine Reach.ite ?_ ?_
  · first | assumption | exact .refl
  · refine Reach.write ?_ (by decide) (.mapm _)
    first | assumption | exact .refl

theorem State.memWritten_reach (s : State) (off : Nat) (be : Nat) (x : MemAt) : Reach [.doms, .progErr, .mapm, .dataIn] s (State.memWritten s off be x) := by
  unfold State.memWritten
  split
  · refine Reach.step (State.modDom_reach ..) rfl ?_
    first | assumption | exact .refl
  · refine Reach.step (State.modDom_reach ..) rfl ?_
    first | assumption | exact .refl
  · refine Reach.write ?_ (by decide) (.progErr _ (by first | exact fun h => Tab.rising_put _ _ h | exact fun h => h))
    first | assumption | exact .refl
  · refine Reach.step (State.mapmWrite_reach ..) rfl ?_
    first | assumption | exact .refl
  · refine Reach.step (State.noteData_reach ..) rfl ?_
    first | assumption | exact .refl
  · first | assumption | exact .refl

theorem State.writeMem_reach (s : State) (src : Nat) (off : Nat) (be : Nat) (v : Nat) (m : MemAt) : Reach [.mspi, .regs, .doms, .progErr, .mapm, .dataIn, .mem] s (State.writeMem s src off be v m) := by
  unfold State.writeMem
  refine Reach.ite ?_ ?_
  · refine Reach.step (State.accessErr_reach ..) rfl ?_
    first | assumption | exact .refl
  · refine Reach.ite ?_ ?_
    · refine Reach.step (State.memWritten_reach ..) rfl ?_
      refine Reach.step (State.setBytes_reach ..) rfl ?_
      first | assumption | exact .refl
    · refine Reach.step (State.accessErr_reach ..) rfl ?_
      refine Reach.step (State.memRefused_reach ..) rfl ?_
      first | assumption | exact .refl

theorem State.writeFld_reach (s : State) (i : Nat) (v : Nat) (f : Fld) : Reach [.regs] s (State.writeFld s i v f) := by
  unfold State.writeFld
  extract_lets -underBinder -merge +onlyGivenNames x1
  split
  · refine Reach.step (State.setFld_reach ..) rfl ?_
    first | assumption | exact .refl
  · refine Reach.ite ?_ ?_
    · refine Reach.step (State.setFld_reach ..) rfl ?_
      first | assumption | exact .refl
    · first | assumption | exact .refl
  · refine Reach.step (State.clearBits_reach ..) rfl ?_
    first | assumption | exact .refl
  · refine Reach.step (State.orFld_reach ..) rfl ?_
    first | assumption | exact .refl
  · first | assumption | exact .refl

abbrev State.writeFields_parts : List Part :=
  [.regs, .mspi]
theorem State.writeFields_reach (s : State) (src : Nat) (off : Nat) (be : Nat) (r : Reg) (i : Nat) (v : Nat) : Reach State.writeFields_parts s (State.writeFields s src off be r i v) := by
  unfold State.writeFields
  extract_lets -underBinder -merge +onlyGivenNames s1
  have hs1 : Reach State.writeFields_parts s s1 := by
    unfold s1
    refine Reach.foldl _ _ (fun u2 y2 hu2 => ?_) ?_
    · refine Reach.step (State.writeFld_reach ..) rfl ?_
      first | assumption | exact .refl
    · first | assumption | exact .refl
  refine Reach.ite ?_ ?_
  · refine Reach.step (State.accessErr_reach ..) rfl ?_
    first | assumption | exact .refl
  · first | assumption | exact .refl

theorem State.writeLocked_reach (s : State) (src : Nat) (off : Nat) (be : Nat) (r : Reg) (i : Nat) (v : Nat) : Reach [.mspi, .regs] s (State.writeLocked s src off be r i v) := by
  unfold State.writeLocked
  refine Reach.ite ?_ ?_
  · refine Reach.step (State.accessErr_reach ..) rfl ?_
    first | assumption | exact .refl
  · refine Reach.step (State.writeFields_reach ..) rfl ?_
    first | assumption | exact .refl

theorem State.clearAccess_reach (s : State) : Reach [.regs] s (State.clearAccess s) := by
  unfold State.clearAccess
  refine Reach.foldl _ _ (fun u1 y1 hu1 => ?_) ?_
  · refine Reach.step (State.setFld_reach ..) rfl ?_
    first | assumption | exact .refl
  · first | assumption | exact .refl

theorem State.elogRead_reach (s : State) (src : Nat) (off : Nat) (be : Nat) (v : Nat) : Reach [.regs, .mspi, .lostOwed] s (State.elogRead s src off be v) := by
  unfold State.elogRead
  extract_lets -underBinder -merge +onlyGivenNames x1
  refine Reach.ite ?_ ?_
  · extract_lets s2
    have hs2 : Reach [.regs, .mspi, .lostOwed] s s2 := Reach.step (State.setFld_reach ..) rfl .refl
    exact Reach.ite (Reach.write hs2 (by decide) (.lostOwed _)) hs2
  · refine Reach.step (State.accessErr_reach ..) rfl ?_
    first | assumption | exact .refl

theorem State.tclRestart_reach (s : State) (d : Nat) : Reach [.doms, .regs] s (State.tclRestart s d) := by
  unfold State.tclRestart
  refine Reach.step (State.modLearn_reach ..) rfl ?_
  refine Reach.step (State.setFld_reach ..) rfl ?_
  first | assumption | exact .refl

theorem State.writeMapReg_reach (s : State) (src : Nat) (off : Nat) (be : Nat) (r : Reg) (d : Nat) (v : Nat) : Reach [.doms, .regs, .mspi] s (State.writeMapReg s src off be r d v) := by
  unfold State.writeMapReg
  refine Reach.ite ?_ ?_
  · refine Reach.step (State.modDom_reach ..) rfl ?_
    refine Reach.step (State.writeFields_reach ..) rfl ?_
    first | assumption | exact .refl
  · refine Reach.step (State.accessErr_reach ..) rfl ?_
    first | assumption | exact .refl

abbrev State.writeDomReg_parts : List Part :=
  [.regs, .mspi, .doms]
theorem State.writeDomReg_reach (s : State) (src : Nat) (off : Nat) (be : Nat) (r : Reg) (d : Nat) (v : Nat) : Reach State.writeDomReg_parts s (State.writeDomReg s src off be r d v) := by
  unfold State.writeDomReg
  extract_lets -underBinder -merge +onlyGivenNames s1
  have hs1 : Reach State.writeDomReg_parts s s1 := by
    unfold s1
    refine Reach.step (State.writeFields_reach ..) rfl ?_
    first | assumption | exact .refl
  refine Reach.ite ?_ ?_
  · refine Reach.step (State.modDom_reach ..) rfl ?_
    first | assumption | exact .refl
  · first | assumption | exact .refl

abbrev State.writeF1_parts : List Part :=
  [.regs, .mspi, .doms, .seqs, .change, .chans, .mem, .dataIn, .svcs, .logNew, .pair, .hold3, .hold2, .basins,
   .pwms, .power]
theorem State.writeF1_reach (s : State) (src : Nat) (off : Nat) (be : Nat) (r : Reg) (i : Nat) (v : Nat) : Reach State.writeF1_parts s (State.writeF1 s src off be r i v) := by
  unfold State.writeF1
  split
  · refine Reach.step (State.writeDomReg_reach ..) rfl ?_
    first | assumption | exact .refl
  · refine Reach.step (State.writeDomReg_reach ..) rfl ?_
    first | assumption | exact .refl
  · refine Reach.step (State.writeMapReg_reach ..) rfl ?_
    first | assumption | exact .refl
  · refine Reach.step (State.writeMapReg_reach ..) rfl ?_
    first | assumption | exact .refl
  · extract_lets -underBinder -merge +onlyGivenNames s1
    have hs1 : Reach State.writeF1_parts s s1 := by
      unfold s1
      refine Reach.ite ?_ ?_
      · refine Reach.step (State.desyncCmd_reach ..) rfl ?_
        first | assumption | exact .refl
      · first | assumption | exact .refl
    refine Reach.ite ?_ ?_
    · refine Reach.step (State.reseedCmd_reach ..) rfl ?_
      first | assumption | exact .refl
    · first | assumption | exact .refl
  · refine Reach.step (State.learnCfg_reach ..) rfl ?_
    refine Reach.step (State.writeFields_reach ..) rfl ?_
    first | assumption | exact .refl
  · extract_lets -underBinder -merge +onlyGivenNames s2
    have hs2 : Reach State.writeF1_parts s s2 := by
      unfold s2
      refine Reach.ite ?_ ?_
      · refine Reach.step (State.tclSwapReq_reach ..) rfl ?_
        first | assumption | exact .refl
      · first | assumption | exact .refl
    refine Reach.ite ?_ ?_
    · refine Reach.step (State.tclRestart_reach ..) rfl ?_
      first | assumption | exact .refl
    · first | assumption | exact .refl
  · refine Reach.step (State.redrive_reach ..) rfl ?_
    refine Reach.step (State.modeSettle_reach ..) rfl ?_
    refine Reach.step (State.swapSettle_reach ..) rfl ?_
    refine Reach.ite ?_ ?_
    · refine Reach.step (State.writeFields_reach ..) rfl ?_
      first | assumption | exact .refl
    · refine Reach.step (State.rebound_reach ..) rfl ?_
      refine Reach.step (State.writeFields_reach ..) rfl ?_
      first | assumption | exact .refl
  · refine Reach.step (State.redrive_reach ..) rfl ?_
    refine Reach.step (State.writeFields_reach ..) rfl ?_
    first | assumption | exact .refl
  · refine Reach.step (State.seqCmd_reach ..) rfl ?_
    first | assumption | exact .refl
  · refine Reach.ite ?_ ?_
    · refine Reach.step (State.swapReq_reach ..) rfl ?_
      first | assumption | exact .refl
    · first | assumption | exact .refl
  · refine Reach.step (State.orFld_reach ..) rfl ?_
    first | assumption | exact .refl
  · refine Reach.step (State.ownerWrite_reach ..) rfl ?_
    first | assumption | exact .refl
  · refine Reach.step (State.svcRearm_reach ..) rfl ?_
    refine Reach.step (State.writeFields_reach ..) rfl ?_
    first | assumption | exact .refl
  · refine Reach.step (State.svcRearm_reach ..) rfl ?_
    refine Reach.step (State.writeFields_reach ..) rfl ?_
    first | assumption | exact .refl
  · refine Reach.step (State.writeFields_reach ..) rfl ?_
    first | assumption | exact .refl

abbrev State.writeF2_parts : List Part :=
  [.mspi, .regs, .adcs, .settle, .basins]
theorem State.writeF2_reach (s : State) (src : Nat) (off : Nat) (be : Nat) (r : Reg) (i : Nat) (v : Nat) : Reach State.writeF2_parts s (State.writeF2 s src off be r i v) := by
  unfold State.writeF2
  split
  · refine Reach.step (State.adcCfg_reach ..) rfl ?_
    first | assumption | exact .refl
  · extract_lets -underBinder -merge +onlyGivenNames s1 s2
    have hs1 : Reach State.writeF2_parts s s1 := by
      unfold s1
      refine Reach.ite ?_ ?_
      · refine Reach.step (State.adcCommit_reach ..) rfl ?_
        first | assumption | exact .refl
      · first | assumption | exact .refl
    have hs2 : Reach State.writeF2_parts s s2 := by
      unfold s2
      refine Reach.ite ?_ ?_
      · refine Reach.step (State.adcCal_reach ..) rfl ?_
        first | assumption | exact .refl
      · first | assumption | exact .refl
    refine Reach.ite ?_ ?_
    · refine Reach.step (State.adcFltReset_reach ..) rfl ?_
      first | assumption | exact .refl
    · first | assumption | exact .refl
  · refine Reach.step (State.ainCfg_reach ..) rfl ?_
    first | assumption | exact .refl
  · refine Reach.step (State.basCfg_reach ..) rfl ?_
    first | assumption | exact .refl
  · refine Reach.step (State.basCmd_reach ..) rfl ?_
    first | assumption | exact .refl
  · refine Reach.step (State.trkCfg_reach ..) rfl ?_
    first | assumption | exact .refl
  · refine Reach.ite ?_ ?_
    · refine Reach.step (State.wtSwap_reach ..) rfl ?_
      first | assumption | exact .refl
    · first | assumption | exact .refl
  · refine Reach.step (State.writeFields_reach ..) rfl ?_
    first | assumption | exact .refl

abbrev State.writeF3_parts : List Part :=
  [.mspi, .regs, .ioes, .trips, .cmps, .pwms, .gio]
theorem State.writeF3_reach (s : State) (src off be : Nat) (r : Reg) (i v : Nat) :
    Reach State.writeF3_parts s (s.writeF3 src off be r i v) := by
  have wf : ∀ r, Reach State.writeF3_parts s ((s.shadowNote i).writeFields src off be r i v) := fun _ =>
    Reach.step (State.writeFields_reach ..) rfl (Reach.step (State.shadowNote_reach ..) rfl .refl)
  unfold State.writeF3
  split
  · exact Reach.step (State.cmpCfg_reach ..) rfl .refl
  · exact Reach.step (State.cmpDac_reach ..) rfl .refl
  · exact Reach.step (State.cmpRoute_reach ..) rfl .refl
  · exact Reach.step (State.pwmCtrl_reach ..) rfl .refl
  · exact wf _
  · exact wf _
  · exact wf _
  · exact wf _
  · exact wf _
  · exact wf _
  · exact Reach.step (State.pwmForce_reach ..) rfl .refl
  · exact Reach.step (State.pwmOutcfg_reach ..) rfl .refl
  · extract_lets s1
    have h1 : Reach State.writeF3_parts s s1 := Reach.ite (Reach.step (State.pwmTrip_reach ..) rfl .refl) .refl
    exact Reach.ite (Reach.step (State.tripClear_reach ..) rfl h1) h1
  · exact Reach.step (State.pwmRestart_reach ..) rfl .refl
  · exact Reach.step (State.tripRefresh_reach ..) rfl (Reach.step (State.writeFields_reach ..) rfl .refl)
  · exact Reach.step (State.ioeCtrl_reach ..) rfl .refl
  · exact Reach.ite (Reach.step (State.ioeReset_reach ..) rfl .refl) .refl
  · exact Reach.step (State.ioeInject_reach ..) rfl .refl
  · exact Reach.step (State.orFld_reach ..) rfl .refl
  · exact Reach.step (State.qinWrite_reach ..) rfl .refl
  · cases hg : s.gioCfg i v with
    | none => exact Reach.step (State.accessErr_reach ..) rfl .refl
    | some t => exact Reach.step (State.gioCfg_reach hg) rfl .refl
  · exact Reach.step (State.ioeGroupCmd_reach ..) rfl .refl
  · exact Reach.step (State.writeFields_reach ..) rfl .refl

abbrev State.writeF0_parts : List Part :=
  [.logNew, .regs, .change, .doms, .seqs, .chans, .hold3, .hold2, .pwms, .mem, .dataIn, .svcs, .pair, .basins,
   .power, .auxOff, .gio, .mspi, .dmas, .lostOwed]
theorem State.writeF0_reach (s : State) (src : Nat) (off : Nat) (be : Nat) (r : Reg) (i : Nat) (v : Nat) : Reach State.writeF0_parts s (State.writeF0 s src off be r i v) := by
  unfold State.writeF0
  split
  · refine Reach.step (State.hostMode_reach ..) rfl ?_
    first | assumption | exact .refl
  · refine Reach.step (State.tgtWrite_reach ..) rfl ?_
    first | assumption | exact .refl
  · refine Reach.step (State.orFld_reach ..) rfl ?_
    first | assumption | exact .refl
  · refine Reach.step (State.dmaCfg_reach ..) rfl ?_
    first | assumption | exact .refl
  · refine Reach.step (State.dmaCmd_reach ..) rfl ?_
    first | assumption | exact .refl
  · refine Reach.step (State.writeLocked_reach ..) rfl ?_
    first | assumption | exact .refl
  · refine Reach.step (State.writeLocked_reach ..) rfl ?_
    first | assumption | exact .refl
  · refine Reach.step (State.dmaTail_reach ..) rfl ?_
    first | assumption | exact .refl
  · refine Reach.step (State.writeLocked_reach ..) rfl ?_
    first | assumption | exact .refl
  · refine Reach.step (State.writeLocked_reach ..) rfl ?_
    first | assumption | exact .refl
  · refine Reach.step (State.dmaRd_reach ..) rfl ?_
    first | assumption | exact .refl
  · refine Reach.step (State.writeLocked_reach ..) rfl ?_
    first | assumption | exact .refl
  · refine Reach.ite ?_ ?_
    · refine Reach.step (State.clearAccess_reach ..) rfl ?_
      first | assumption | exact .refl
    · first | assumption | exact .refl
  · refine Reach.step (State.publish_reach ..) rfl ?_
    first | assumption | exact .refl
  · extract_lets -underBinder -merge +onlyGivenNames s1
    have hs1 : Reach State.writeF0_parts s s1 := by
      unfold s1
      refine Reach.ite ?_ ?_
      · refine Reach.ite ?_ ?_
        · refine Reach.step (State.accessErr_reach ..) rfl ?_
          refine Reach.step (State.hoRequest_reach ..) rfl ?_
          first | assumption | exact .refl
        · refine Reach.step (State.hoRequest_reach ..) rfl ?_
          first | assumption | exact .refl
      · first | assumption | exact .refl
    refine Reach.ite ?_ ?_
    · refine Reach.step (State.joinAbortCmd_reach ..) rfl ?_
      first | assumption | exact .refl
    · first | assumption | exact .refl
  · refine Reach.step (State.supCfg_reach ..) rfl ?_
    first | assumption | exact .refl
  · refine Reach.step (State.elogRead_reach ..) rfl ?_
    first | assumption | exact .refl
  · refine Reach.step (State.writeFields_reach ..) rfl ?_
    first | assumption | exact .refl

theorem State.writeReg_reach (s : State) (src : Nat) (off : Nat) (be : Nat) (r : Reg) (i : Nat) (v : Nat) : Reach [.logNew, .regs, .change, .doms, .seqs, .chans, .hold3, .hold2, .pwms, .mem, .dataIn, .svcs, .pair, .basins, .power, .auxOff, .gio, .mspi, .dmas, .adcs, .settle, .ioes, .trips, .cmps, .lostOwed] s (State.writeReg s src off be r i v) := by
  unfold State.writeReg
  split
  · refine Reach.step (State.writeF0_reach ..) rfl ?_
    first | assumption | exact .refl
  · refine Reach.step (State.writeF1_reach ..) rfl ?_
    first | assumption | exact .refl
  · refine Reach.step (State.writeF2_reach ..) rfl ?_
    first | assumption | exact .refl
  · refine Reach.step (State.writeF3_reach ..) rfl ?_
    first | assumption | exact .refl

theorem State.writeWord_reach (s : State) (src : Nat) (off : Nat) (be : Nat) (v : Nat) (a : RegAt) : Reach [.mspi, .regs, .logNew, .change, .doms, .seqs, .chans, .hold3, .hold2, .pwms, .mem, .dataIn, .svcs, .pair, .basins, .power, .auxOff, .gio, .dmas, .adcs, .settle, .ioes, .trips, .cmps, .heldLow, .lostOwed] s (State.writeWord s src off be v a) := by
  unfold State.writeWord
  refine Reach.ite ?_ ?_
  · refine Reach.step (State.accessErr_reach ..) rfl ?_
    first | assumption | exact .refl
  · refine Reach.ite ?_ ?_
    · extract_lets -underBinder -merge +onlyGivenNames x1
      refine Reach.ite ?_ ?_
      · extract_lets -underBinder -merge +onlyGivenNames x2
        refine Reach.step (State.writeReg_reach ..) rfl ?_
        first | assumption | exact .refl
      · refine Reach.ite ?_ ?_
        · refine Reach.write ?_ (by decide) (.heldLow _ (by first | exact fun h => Tab.rising_put _ _ h | exact fun h => h))
          first | assumption | exact .refl
        · split
          · refine Reach.ite ?_ ?_
            · refine Reach.step (State.writeReg_reach ..) rfl ?_
              refine Reach.write ?_ (by decide) (.heldLow _ (by first | exact fun h => Tab.rising_put _ _ h | exact fun h => h))
              first | assumption | exact .refl
            · refine Reach.step (State.writeReg_reach ..) rfl ?_
              first | assumption | exact .refl
          · refine Reach.step (State.writeReg_reach ..) rfl ?_
            first | assumption | exact .refl
    · refine Reach.step (State.writeReg_reach ..) rfl ?_
      first | assumption | exact .refl

theorem State.busStore_reach (s : State) (src : Nat) (off : Nat) (be : Nat) (v : Nat) (own : Bool) : Reach [.mspi, .regs, .logNew, .change, .doms, .seqs, .chans, .hold3, .hold2, .pwms, .mem, .dataIn, .svcs, .pair, .basins, .power, .auxOff, .gio, .dmas, .adcs, .settle, .ioes, .trips, .cmps, .heldLow, .lostOwed, .progErr, .mapm] s (State.busStore s src off be v own) := by
  unfold State.busStore
  refine Reach.ite ?_ ?_
  · first | assumption | exact .refl
  · refine Reach.ite ?_ ?_
    · refine Reach.step (State.accessErr_reach ..) rfl ?_
      first | assumption | exact .refl
    · refine Reach.ite ?_ ?_
      · refine Reach.step (State.accessErr_reach ..) rfl ?_
        first | assumption | exact .refl
      · split
        · refine Reach.step (State.writeWord_reach ..) rfl ?_
          first | assumption | exact .refl
        · refine Reach.step (State.writeMem_reach ..) rfl ?_
          first | assumption | exact .refl
        · refine Reach.step (State.accessErr_reach ..) rfl ?_
          first | assumption | exact .refl

abbrev State.busWrite_parts : List Part :=
  [.mspi, .regs, .logNew, .change, .doms, .seqs, .chans, .hold3, .hold2, .pwms, .mem, .dataIn, .svcs, .pair,
   .basins, .power, .auxOff, .gio, .dmas, .adcs, .settle, .ioes, .trips, .cmps, .heldLow, .lostOwed, .progErr, .mapm]
theorem State.busWrite_reach (s : State) (src : Nat) (off : Nat) (be : Nat) (v : Nat) : Reach State.busWrite_parts s (State.busWrite s src off be v) := by
  unfold State.busWrite
  extract_lets -underBinder -merge +onlyGivenNames s1
  have hs1 : Reach State.busWrite_parts s s1 := by
    unfold s1
    refine Reach.step (State.busStore_reach ..) rfl ?_
    first | assumption | exact .refl
  refine Reach.ite ?_ ?_
  · refine Reach.ite ?_ ?_
    · refine Reach.step (State.forward_reach ..) rfl ?_
      first | assumption | exact .refl
    · first | assumption | exact .refl
  · first | assumption | exact .refl

theorem State.busWords_reach (s : State) (src off : Nat) (ws : List (Nat × Nat)) :
    Reach State.busWrite_parts s (s.busWords src off ws) := by
  induction ws generalizing s off with
  | nil => exact .refl
  | cons w r ih => exact (State.busWrite_reach ..).trans (ih _ _)

theorem State.busWriteWide_reach (s : State) (src : Nat) (off : Nat) (be : Nat) (v : Nat) (rest : List (Nat × Nat)) : Reach [.mspi, .regs, .logNew, .change, .doms, .seqs, .chans, .hold3, .hold2, .pwms, .mem, .dataIn, .svcs, .pair, .basins, .power, .auxOff, .gio, .dmas, .adcs, .settle, .ioes, .trips, .cmps, .heldLow, .lostOwed, .progErr, .mapm] s (State.busWriteWide s src off be v rest) := by
  unfold State.busWriteWide
  refine Reach.ite ?_ ?_
  · refine Reach.step (State.busWrite_reach ..) rfl ?_
    first | assumption | exact .refl
  · refine Reach.ite ?_ ?_
    · first | assumption | exact .refl
    · refine Reach.ite ?_ ?_
      · refine Reach.step (State.accessErr_reach ..) rfl ?_
        first | assumption | exact .refl
      · refine Reach.step (State.busWords_reach ..) rfl ?_
        first | assumption | exact .refl

theorem State.busReads_reach (s : State) (src off : Nat) (bes : List Nat) :
    Reach State.busRead_parts s (s.busReads src off bes).1 := by
  induction bes generalizing s off with
  | nil => exact .refl
  | cons w r ih => exact (State.busRead_reach ..).trans (ih _ _)

abbrev State.busReadWide_parts : List Part :=
  [.mspi, .regs, .latched, .seqs, .basins, .trkLatch, .feeds, .ioes]
theorem State.busReadWide_reach (s : State) (src : Nat) (off : Nat) (be : Nat) (rest : List Nat) : Reach State.busReadWide_parts s (State.busReadWide s src off be rest).1 := by
  unfold State.busReadWide
  split
  · refine Reach.step (State.busRead_reach ..) rfl ?_
    first | assumption | exact .refl
  · split
    · refine Reach.fstMk ?_
      first | assumption | exact .refl
    · split
      · refine Reach.fstMk ?_
        refine Reach.step (State.accessErr_reach ..) rfl ?_
        first | assumption | exact .refl
      · extract_lets -underBinder -merge +onlyGivenNames p1
        have hp1 : Reach State.busReadWide_parts s p1.1 := by
          unfold p1
          refine Reach.step (State.busReads_reach ..) rfl ?_
          first | assumption | exact .refl
        refine Reach.fstMk ?_
        first | assumption | exact .refl


/-! ### Dma.lean -/

theorem State.bmeOff_reach (s : State) : Reach [.regs] s (State.bmeOff s) := by
  unfold State.bmeOff
  refine Reach.step (State.raise_reach ..) rfl ?_
  first | assumption | exact .refl

theorem State.postWords_reach (s : State) (c addr : Nat) (ns : Bool) (ws : List Nat) (n : Nat) :
    Reach [.pcie] s (s.postWords c addr ns ws n) := by
  induction n generalizing s addr ws with
  | zero => exact .refl
  | succ n ih =>
    unfold State.postWords
    refine Reach.ite .refl ?_
    extract_lets k
    exact (State.emit_reach ..).trans (ih _ _ _)

theorem State.dmaWrote_reach (s : State) (c : Nat) (n : Nat) : Reach [.dmas, .regs] s (State.dmaWrote s c n) := by
  unfold State.dmaWrote
  refine Reach.step (State.modDma_reach ..) rfl ?_
  refine Reach.step (State.bumpBy_reach ..) rfl ?_
  first | assumption | exact .refl

abbrev State.dmaStop_parts : List Part :=
  [.regs, .dmas]
theorem State.dmaStop_reach (s : State) (c : Nat) (r : Nat) : Reach State.dmaStop_parts s (State.dmaStop s c r) := by
  unfold State.dmaStop
  extract_lets -underBinder -merge +onlyGivenNames s1
  have hs1 : Reach State.dmaStop_parts s s1 := by
    unfold s1
    refine Reach.step (State.setFld_reach ..) rfl ?_
    refine Reach.step (State.raise_reach ..) rfl ?_
    first | assumption | exact .refl
  refine Reach.step (State.setDma_reach ..) rfl ?_
  refine Reach.step (State.putDmaState_reach ..) rfl ?_
  refine Reach.step (State.putFlag_reach ..) rfl ?_
  first | assumption | exact .refl

theorem State.dmaStatus_reach (s : State) (c : Nat) (r : Nat) (off : Nat) : Reach [.pcie] s (State.dmaStatus s c r off) := by
  unfold State.dmaStatus
  extract_lets -underBinder -merge +onlyGivenNames x1
  refine Reach.ite ?_ ?_
  · refine Reach.step (State.emit_reach ..) rfl ?_
    first | assumption | exact .refl
  · first | assumption | exact .refl

abbrev State.dmaConclude_parts : List Part :=
  [.pcie, .regs, .pair, .dmas]
theorem State.dmaConclude_reach (s : State) (c : Nat) (r : Nat) (off : Nat) : Reach State.dmaConclude_parts s (State.dmaConclude s c r off) := by
  unfold State.dmaConclude
  extract_lets -underBinder -merge +onlyGivenNames x1 s2 s3
  have hs2 : Reach State.dmaConclude_parts s s2 := by
    unfold s2
    refine Reach.step (State.dmaStatus_reach ..) rfl ?_
    first | assumption | exact .refl
  have hs3 : Reach State.dmaConclude_parts s s3 := by
    unfold s3
    refine Reach.ite ?_ ?_
    · refine Reach.step (State.raise_reach ..) rfl ?_
      first | assumption | exact .refl
    · first | assumption | exact .refl
  refine Reach.ite ?_ ?_
  · extract_lets -underBinder -merge +onlyGivenNames s4 s5
    have hs4 : Reach State.dmaConclude_parts s s4 := by
      unfold s4
      refine Reach.ite ?_ ?_
      · refine Reach.step (State.publish_reach ..) rfl ?_
        first | assumption | exact .refl
      · first | assumption | exact .refl
    have hs5 : Reach State.dmaConclude_parts s s5 := by
      unfold s5
      refine Reach.step (State.setFld_reach ..) rfl ?_
      first | assumption | exact .refl
    refine Reach.step (State.putDmaState_reach ..) rfl ?_
    refine Reach.step (State.setDma_reach ..) rfl ?_
    refine Reach.step (State.bump_reach ..) rfl ?_
    first | assumption | exact .refl
  · refine Reach.step (State.dmaStop_reach ..) rfl ?_
    first | assumption | exact .refl

abbrev State.readUnit_parts : List Part :=
  [.mspi, .regs, .latched, .seqs, .basins, .trkLatch, .feeds, .ioes]
theorem State.readUnit_reach (s : State) (src : Nat) (off : Nat) : Reach State.readUnit_parts s (State.readUnit s src off).1 := by
  unfold State.readUnit
  extract_lets -underBinder -merge +onlyGivenNames p1 p2
  have hp1 : Reach State.readUnit_parts s p1.1 := by
    unfold p1
    refine Reach.step (State.busRead_reach ..) rfl ?_
    first | assumption | exact .refl
  have hp2 : Reach State.readUnit_parts s p2.1 := by
    unfold p2
    refine Reach.step (State.busRead_reach ..) rfl ?_
    first | assumption | exact .refl
  refine Reach.fstMk ?_
  first | assumption | exact .refl

theorem State.readUnits_reach (s : State) (src off n : Nat) :
    Reach State.readUnit_parts s (s.readUnits src off n).1 := by
  induction n generalizing s off with
  | zero => exact .refl
  | succ n ih =>
    unfold State.readUnits
    exact (State.readUnit_reach ..).trans (ih _ _)

abbrev State.dmaRead_parts : List Part :=
  [.mspi, .regs, .latched, .seqs, .basins, .trkLatch, .feeds, .ioes, .dmas, .pcie]
theorem State.dmaRead_reach (s : State) (c : Nat) : Reach State.dmaRead_parts s (State.dmaRead s c) := by
  unfold State.dmaRead
  split
  · first | assumption | exact .refl
  · refine Reach.ite ?_ ?_
    · extract_lets -underBinder -merge +onlyGivenNames p1
      have hp1 : Reach State.dmaRead_parts s p1.1 := by
        unfold p1
        refine Reach.step (State.readUnits_reach ..) rfl ?_
        first | assumption | exact .refl
      refine Reach.step (State.modDma_reach ..) rfl ?_
      first | assumption | exact .refl
    · extract_lets -underBinder -merge +onlyGivenNames x2 s3
      have hs3 : Reach State.dmaRead_parts s s3 := by
        unfold s3
        refine Reach.ite ?_ ?_
        · refine Reach.step (State.putDmaState_reach ..) rfl ?_
          first | assumption | exact .refl
        · first | assumption | exact .refl
      refine Reach.step (State.modDma_reach ..) rfl ?_
      refine Reach.step (State.emit_reach ..) rfl ?_
      first | assumption | exact .refl

theorem State.writeWords_reach (s : State) (src off : Nat) (ws : List Nat) :
    Reach State.busWrite_parts s (s.writeWords src off ws) := by
  induction ws generalizing s off with
  | nil => exact .refl
  | cons w r ih => exact (State.busWrite_reach ..).trans (ih _ _)

abbrev State.dmaPut_parts : List Part :=
  [.mspi, .regs, .logNew, .change, .doms, .seqs, .chans, .hold3, .hold2, .pwms, .mem, .dataIn, .svcs, .pair,
   .basins, .power, .auxOff, .gio, .dmas, .adcs, .settle, .ioes, .trips, .cmps, .heldLow, .lostOwed, .progErr, .mapm, .pcie]
theorem State.dmaPut_reach (s : State) (c : Nat) (ws : List Nat) : Reach State.dmaPut_parts s (State.dmaPut s c ws) := by
  unfold State.dmaPut
  extract_lets -underBinder -merge +onlyGivenNames x1 s2
  have hs2 : Reach State.dmaPut_parts s s2 := by
    unfold s2
    refine Reach.ite ?_ ?_
    · refine Reach.step (State.writeWords_reach ..) rfl ?_
      first | assumption | exact .refl
    · refine Reach.step (State.emit_reach ..) rfl ?_
      first | assumption | exact .refl
  refine Reach.step (State.dmaWrote_reach ..) rfl ?_
  first | assumption | exact .refl

theorem State.dmaWrite_reach (s : State) (c : Nat) : Reach [.regs, .dmas, .pcie, .pair, .mspi, .logNew, .change, .doms, .seqs, .chans, .hold3, .hold2, .pwms, .mem, .dataIn, .svcs, .basins, .power, .auxOff, .gio, .adcs, .settle, .ioes, .trips, .cmps, .heldLow, .lostOwed, .progErr, .mapm] s (State.dmaWrite s c) := by
  unfold State.dmaWrite
  extract_lets -underBinder -merge +onlyGivenNames x1
  split
  · refine Reach.ite ?_ ?_
    · refine Reach.step (State.dmaStop_reach ..) rfl ?_
      first | assumption | exact .refl
    · refine Reach.step (State.dmaConclude_reach ..) rfl ?_
      first | assumption | exact .refl
  · refine Reach.ite ?_ ?_
    · refine Reach.step (State.setDma_reach ..) rfl ?_
      first | assumption | exact .refl
    · refine Reach.ite ?_ ?_
      · refine Reach.step (State.dmaPut_reach ..) rfl ?_
        first | assumption | exact .refl
      · refine Reach.ite ?_ ?_
        · extract_lets -underBinder -merge +onlyGivenNames x2 x3
          refine Reach.step (State.modDma_reach ..) rfl ?_
          refine Reach.step (State.dmaPut_reach ..) rfl ?_
          first | assumption | exact .refl
        · refine Reach.step (State.setDma_reach ..) rfl ?_
          first | assumption | exact .refl

abbrev State.dmaTurns_parts : List Part :=
  [.mspi, .regs, .latched, .seqs, .basins, .trkLatch, .feeds, .ioes, .dmas, .pcie, .pair, .logNew, .change, .doms,
   .chans, .hold3, .hold2, .pwms, .mem, .dataIn, .svcs, .power, .auxOff, .gio, .adcs, .settle, .trips, .cmps,
   .heldLow, .lostOwed, .progErr, .mapm]
theorem State.dmaTurns_reach (s : State) (n : Nat) : Reach State.dmaTurns_parts s (s.dmaTurns n) := by
  have rd : ∀ {u t : State} c, Reach State.dmaTurns_parts u t → Reach State.dmaTurns_parts u
      ((t.modPcie fun p => { p with readTurn := (c + 1) % 16 }).dmaRead c) := fun c h =>
    Reach.step (State.dmaRead_reach ..) rfl (Reach.step (State.modPcie_reach _ _ fun h => h) rfl h)
  have wr : ∀ {u t : State} c, Reach State.dmaTurns_parts u t → Reach State.dmaTurns_parts u
      ((t.modPcie fun p => { p with writeTurn := (c + 1) % 16 }).dmaWrite c) := fun c h =>
    Reach.step (State.dmaWrite_reach ..) rfl (Reach.step (State.modPcie_reach _ _ fun h => h) rfl h)
  induction n generalizing s with
  | zero => exact .refl
  | succ n ih =>
    unfold State.dmaTurns
    extract_lets r s1
    clear_value r
    have h1 : Reach State.dmaTurns_parts s s1 := by
      unfold s1
      split
      · exact rd _ .refl
      · exact .refl
    clear_value s1
    split
    · exact (wr _ h1).trans (ih _)
    · exact h1.trans (ih _)
    · exact h1

abbrev State.dmaPump_parts : List Part :=
  [.mspi, .regs, .latched, .seqs, .basins, .trkLatch, .feeds, .ioes, .dmas, .pcie, .pair, .logNew, .change, .doms,
   .chans, .hold3, .hold2, .pwms, .mem, .dataIn, .svcs, .power, .auxOff, .gio, .adcs, .settle, .trips, .cmps,
   .heldLow, .lostOwed, .progErr, .mapm]
theorem State.dmaPump_reach (s : State) : Reach State.dmaPump_parts s (State.dmaPump s) := by
  unfold State.dmaPump
  refine Reach.ite ?_ ?_
  · extract_lets -underBinder -merge +onlyGivenNames s1
    have hs1 : Reach State.dmaPump_parts s s1 := by
      unfold s1
      refine Reach.step (State.dmaTurns_reach ..) rfl ?_
      first | assumption | exact .refl
    refine Reach.ite ?_ ?_
    · refine Reach.step (State.bmeOff_reach ..) rfl ?_
      first | assumption | exact .refl
    · first | assumption | exact .refl
  · first | assumption | exact .refl

theorem State.readFailed_reach (s : State) (c : Nat) (tag : Nat) : Reach [.dmas] s (State.readFailed s c tag) := by
  unfold State.readFailed
  refine Reach.step (State.modDma_reach ..) rfl ?_
  first | assumption | exact .refl

abbrev State.fetched_parts : List Part :=
  [.regs, .dmas]
theorem State.fetched_reach (s : State) (c : Nat) (ws : List Nat) : Reach State.fetched_parts s (State.fetched s c ws) := by
  unfold State.fetched
  extract_lets -underBinder -merge +onlyGivenNames s1
  have hs1 : Reach State.fetched_parts s s1 := by
    unfold s1
    refine Reach.step (State.putDmaState_reach ..) rfl ?_
    refine Reach.step (State.setDma_reach ..) rfl ?_
    first | assumption | exact .refl
  split
  · refine Reach.step (State.modDma_reach ..) rfl ?_
    first | assumption | exact .refl
  · first | assumption | exact .refl

theorem State.readDone_reach (s : State) (c : Nat) (q : DmaReq) (ws : List Nat) : Reach [.dmas, .regs] s (State.readDone s c q ws) := by
  unfold State.readDone
  refine Reach.ite ?_ ?_
  · refine Reach.step (State.modDma_reach ..) rfl ?_
    first | assumption | exact .refl
  · refine Reach.ite ?_ ?_
    · refine Reach.step (State.fetched_reach ..) rfl ?_
      first | assumption | exact .refl
    · refine Reach.step (State.modDma_reach ..) rfl ?_
      first | assumption | exact .refl

theorem State.dmaCompletion_reach (s : State) (c : Nat) (tag : Nat) (data : Option (List Byte)) : Reach [.dmas, .regs] s (State.dmaCompletion s c tag data) := by
  unfold State.dmaCompletion
  split
  · first | assumption | exact .refl
  · refine Reach.ite ?_ ?_
    · refine Reach.step (State.readDone_reach ..) rfl ?_
      first | assumption | exact .refl
    · first | assumption | exact .refl
  · refine Reach.step (State.readFailed_reach ..) rfl ?_
    first | assumption | exact .refl

theorem State.dmaTimeout_reach (s : State) (c : Nat) : Reach [.dmas] s (State.dmaTimeout s c) := by
  unfold State.dmaTimeout
  split
  · refine Reach.ite ?_ ?_
    · refine Reach.step (State.readFailed_reach ..) rfl ?_
      first | assumption | exact .refl
    · first | assumption | exact .refl
  · first | assumption | exact .refl

theorem State.dmaLost_reach (s : State) : Reach [.dmas] s (State.dmaLost s) := by
  unfold State.dmaLost
  refine Reach.foldl _ _ (fun u1 y1 hu1 => ?_) ?_
  · refine Reach.foldl _ _ (fun u2 y2 hu2 => ?_) ?_
    · refine Reach.step (State.readFailed_reach ..) rfl ?_
      first | assumption | exact .refl
    · first | assumption | exact .refl
  · first | assumption | exact .refl

abbrev State.feedTransfer_parts : List Part :=
  [.regs, .mspi, .latched, .seqs, .basins, .trkLatch, .feeds, .ioes, .pcie]
theorem State.feedTransfer_reach (s : State) (c : Nat) : Reach State.feedTransfer_parts s (State.feedTransfer s c) := by
  unfold State.feedTransfer
  extract_lets -underBinder -merge +onlyGivenNames x1 x2 x3
  refine Reach.ite ?_ ?_
  · first | assumption | exact .refl
  · refine Reach.ite ?_ ?_
    · first | assumption | exact .refl
    · refine Reach.ite ?_ ?_
      · refine Reach.step (State.bmeOff_reach ..) rfl ?_
        first | assumption | exact .refl
      · extract_lets -underBinder -merge +onlyGivenNames p4 p5 s6 s7
        have hp4 : Reach State.feedTransfer_parts s p4.1 := by
          unfold p4
          refine Reach.step (State.readUnits_reach ..) rfl ?_
          first | assumption | exact .refl
        have hp5 : Reach State.feedTransfer_parts s p5.1 := by
          unfold p5
          refine Reach.step (State.readUnits_reach ..) rfl ?_
          first | assumption | exact .refl
        have hs6 : Reach State.feedTransfer_parts s s6 := by
          unfold s6
          refine Reach.step (State.postWords_reach ..) rfl ?_
          first | assumption | exact .refl
        have hs7 : Reach State.feedTransfer_parts s s7 := by
          unfold s7
          refine Reach.step (State.setFld_reach ..) rfl ?_
          refine Reach.step (State.bump_reach ..) rfl ?_
          refine Reach.step (State.bumpBy_reach ..) rfl ?_
          first | assumption | exact .refl
        refine Reach.ite ?_ ?_
        · refine Reach.step (State.emit_reach ..) rfl ?_
          first | assumption | exact .refl
        · first | assumption | exact .refl


/-! ### Pcie.lean -/

theorem State.respond_reach (s : State) (r : Resp) : Reach [.resp] s (State.respond s r) := by
  unfold State.respond
  refine Reach.write ?_ (by decide) (.resp _)
  first | assumption | exact .refl

theorem State.aer_reach (s : State) (f : Nat) (bit : Nat) (hdr : List Nat) : Reach [.pcie] s (State.aer s f bit hdr) := by
  unfold State.aer
  refine Reach.step (State.modFn_reach ..) rfl ?_
  first | assumption | exact .refl

theorem State.poisoned_reach (s : State) (f : Nat) (off : Nat) (n : Nat) : Reach [.pcie] s (State.poisoned s f off n) := by
  unfold State.poisoned
  refine Reach.step (State.aer_reach ..) rfl ?_
  first | assumption | exact .refl

abbrev State.foreign_parts : List Part :=
  [.regs, .pcie, .resp]
theorem State.foreign_reach (s : State) (f : Nat) (off : Nat) (wr : Bool) (n : Nat) : Reach State.foreign_parts s (State.foreign s f off wr n) := by
  unfold State.foreign
  extract_lets -underBinder -merge +onlyGivenNames s1 s2 s3
  have hs1 : Reach State.foreign_parts s s1 := by
    unfold s1
    refine Reach.step (State.bump_reach ..) rfl ?_
    first | assumption | exact .refl
  have hs2 : Reach State.foreign_parts s s2 := by
    unfold s2
    refine Reach.ite ?_ ?_
    · first | assumption | exact .refl
    · refine Reach.step (State.setFld_reach ..) rfl ?_
      refine Reach.step (State.setFld_reach ..) rfl ?_
      refine Reach.step (State.putFlag_reach ..) rfl ?_
      first | assumption | exact .refl
  have hs3 : Reach State.foreign_parts s s3 := by
    unfold s3
    refine Reach.step (State.raise_reach ..) rfl ?_
    first | assumption | exact .refl
  refine Reach.ite ?_ ?_
  · refine Reach.step (State.aer_reach ..) rfl ?_
    first | assumption | exact .refl
  · refine Reach.step (State.respond_reach ..) rfl ?_
    first | assumption | exact .refl

theorem State.foreignAccess_reach (s : State) (f : Nat) (off : Nat) (wr : Bool) : Reach [.regs, .pcie, .resp] s (State.foreignAccess s f off wr) := by
  unfold State.foreignAccess
  refine Reach.ite ?_ ?_
  · first | assumption | exact .refl
  · refine Reach.step (State.foreign_reach ..) rfl ?_
    first | assumption | exact .refl

theorem State.windowRead_reach (s : State) (f : Nat) (off : Nat) (be : Nat) : Reach [.mspi, .regs, .latched] s (State.windowRead s f off be).1 := by
  unfold State.windowRead
  extract_lets -underBinder -merge +onlyGivenNames x1
  split
  · refine Reach.fstMk ?_
    first | assumption | exact .refl
  · split
    · refine Reach.fstMk ?_
      first | assumption | exact .refl
    · split
      · refine Reach.fstMk ?_
        refine Reach.step (State.accessErr_reach ..) rfl ?_
        first | assumption | exact .refl
      · split
        · refine Reach.fstMk ?_
          refine Reach.ite ?_ ?_
          · refine Reach.write ?_ (by decide) (.latched _ (by first | exact fun h => Tab.rising_put _ _ h | exact fun h => h))
            first | assumption | exact .refl
          · first | assumption | exact .refl
        · split
          · split
            · split
              · refine Reach.fstMk ?_
                first | assumption | exact .refl
              · refine Reach.fstMk ?_
                refine Reach.step (State.accessErr_reach ..) rfl ?_
                first | assumption | exact .refl
            · refine Reach.fstMk ?_
              refine Reach.step (State.accessErr_reach ..) rfl ?_
              first | assumption | exact .refl
          · split
            · refine Reach.fstMk ?_
              refine Reach.step (State.accessErr_reach ..) rfl ?_
              first | assumption | exact .refl
            · refine Reach.fstMk ?_
              first | assumption | exact .refl

abbrev State.windowReadWide_parts : List Part :=
  [.mspi, .regs, .latched]
theorem State.windowReadWide_reach (s : State) (f : Nat) (off : Nat) (be : Nat) (rest : List Nat) : Reach State.windowReadWide_parts s (State.windowReadWide s f off be rest).1 := by
  unfold State.windowReadWide
  split
  · refine Reach.step (State.windowRead_reach ..) rfl ?_
    first | assumption | exact .refl
  · split
    · refine Reach.fstMk ?_
      refine Reach.step (State.accessErr_reach ..) rfl ?_
      first | assumption | exact .refl
    · extract_lets -underBinder -merge +onlyGivenNames p1 p2
      have hp1 : Reach State.windowReadWide_parts s p1.1 := by
        unfold p1
        refine Reach.step (State.windowRead_reach ..) rfl ?_
        first | assumption | exact .refl
      have hp2 : Reach State.windowReadWide_parts s p2.1 := by
        unfold p2
        refine Reach.step (State.windowRead_reach ..) rfl ?_
        first | assumption | exact .refl
      refine Reach.fstMk ?_
      first | assumption | exact .refl

theorem State.tableWrite_reach (s : State) (f : Nat) (off : Nat) (be : Nat) (v : Nat) : Reach [.pcie] s (State.tableWrite s f off be v) := by
  unfold State.tableWrite
  extract_lets -underBinder -merge +onlyGivenNames x1 x2
  refine Reach.step (State.modFn_reach ..) rfl ?_
  first | assumption | exact .refl

theorem State.windowWrite_reach (s : State) (f : Nat) (off : Nat) (be : Nat) (v : Nat) : Reach [.pcie, .mspi, .regs, .pair] s (State.windowWrite s f off be v) := by
  unfold State.windowWrite
  refine Reach.ite ?_ ?_
  · first | assumption | exact .refl
  · refine Reach.ite ?_ ?_
    · refine Reach.step (State.tableWrite_reach ..) rfl ?_
      first | assumption | exact .refl
    · refine Reach.ite ?_ ?_
      · first | assumption | exact .refl
      · refine Reach.ite ?_ ?_
        · refine Reach.step (State.accessErr_reach ..) rfl ?_
          first | assumption | exact .refl
        · refine Reach.ite ?_ ?_
          · refine Reach.ite ?_ ?_
            · refine Reach.step (State.eoi_reach ..) rfl ?_
              first | assumption | exact .refl
            · refine Reach.step (State.accessErr_reach ..) rfl ?_
              first | assumption | exact .refl
          · refine Reach.ite ?_ ?_
            · refine Reach.ite ?_ ?_
              · refine Reach.step (State.publish_reach ..) rfl ?_
                first | assumption | exact .refl
              · refine Reach.step (State.accessErr_reach ..) rfl ?_
                first | assumption | exact .refl
            · first | assumption | exact .refl

theorem State.windowWriteWide_reach (s : State) (f : Nat) (off : Nat) (be : Nat) (v : Nat) (rest : List (Nat × Nat)) : Reach [.pcie, .mspi, .regs, .pair] s (State.windowWriteWide s f off be v rest) := by
  unfold State.windowWriteWide
  split
  · refine Reach.step (State.windowWrite_reach ..) rfl ?_
    first | assumption | exact .refl
  · refine Reach.ite ?_ ?_
    · refine Reach.step (State.accessErr_reach ..) rfl ?_
      first | assumption | exact .refl
    · refine Reach.step (State.windowWrite_reach ..) rfl ?_
      refine Reach.step (State.windowWrite_reach ..) rfl ?_
      first | assumption | exact .refl

theorem State.flrDone_reach (s : State) (f : Nat) : Reach [.regs] s (State.flrDone s f) := by
  unfold State.flrDone
  refine Reach.step (State.orFld_reach ..) rfl ?_
  refine Reach.step (State.clearBits_reach ..) rfl ?_
  first | assumption | exact .refl

theorem State.flrPath4_reach (s : State) : Reach [.regs, .change, .doms, .logNew, .seqs, .chans, .hold3, .hold2, .pwms, .mem, .dataIn, .svcs, .pair, .basins, .power, .pcie] s (State.flrPath4 s) := by
  unfold State.flrPath4
  refine Reach.step (State.spillInto_reach ..) rfl ?_
  refine Reach.step (State.modPcie_reach _ _ (fun h => ?_)) rfl ?_
  · first | (dsimp only; with_reducible exact h) | rfl
  · refine Reach.step (State.putFlag_reach ..) rfl ?_
    first | assumption | exact .refl

abbrev State.flr_parts : List Part :=
  [.pcie, .regs, .dmas, .pair, .change, .doms, .logNew, .seqs, .chans, .hold3, .hold2, .pwms, .mem, .dataIn,
   .svcs, .basins, .power, .adcs, .settle, .trkLatch, .feeds, .ioes, .trips, .cmps, .gio]
theorem State.flr_reach (s : State) (f : Nat) : Reach State.flr_parts s (State.flr s f) := by
  unfold State.flr
  extract_lets -underBinder -merge +onlyGivenNames x1 s2
  have hs2 : Reach State.flr_parts s s2 := by
    unfold s2
    refine Reach.step (State.modPcie_reach _ _ (fun h => ?_)) rfl ?_
    · first | (dsimp only; with_reducible exact h) | rfl
    · refine Reach.step (State.resetFnConfig_reach ..) rfl ?_
      first | assumption | exact .refl
  refine Reach.ite ?_ ?_
  · first | assumption | exact .refl
  · extract_lets -underBinder -merge +onlyGivenNames s3
    have hs3 : Reach State.flr_parts s s3 := by
      unfold s3
      refine Reach.step (State.orFld_reach ..) rfl ?_
      first | assumption | exact .refl
    split
    · refine Reach.step (State.flrDone_reach ..) rfl ?_
      refine Reach.step (State.resetF0_reach ..) rfl ?_
      first | assumption | exact .refl
    · extract_lets -underBinder -merge +onlyGivenNames s4
      have hs4 : Reach State.flr_parts s s4 := by
        unfold s4
        refine Reach.step (State.modPcie_reach _ _ (fun h => ?_)) rfl ?_
        · first | (dsimp only; with_reducible exact h) | rfl
        · first | assumption | exact .refl
      refine Reach.ite ?_ ?_
      · refine Reach.step (State.hoRequest_reach ..) rfl ?_
        refine Reach.step (State.modPcie_reach _ _ (fun h => ?_)) rfl ?_
        · first | (dsimp only; with_reducible exact h) | rfl
        · refine Reach.step (State.raise_reach ..) rfl ?_
          first | assumption | exact .refl
      · refine Reach.step (State.flrPath4_reach ..) rfl ?_
        first | assumption | exact .refl
    · refine Reach.step (State.flrDone_reach ..) rfl ?_
      refine Reach.step (State.resetF2_reach ..) rfl ?_
      first | assumption | exact .refl
    · refine Reach.step (State.flrDone_reach ..) rfl ?_
      refine Reach.step (State.resetF3_reach ..) rfl ?_
      first | assumption | exact .refl

theorem State.f1Clear_reach (t : State) : Reach [.pcie] t (t.modPcie fun p => { p with f1At := none }) :=
  State.modPcie_reach _ _ fun h => h

theorem State.f1Finish_reach (s : State) : Reach [.regs, .pcie, .seqs, .change, .chans, .mem, .dataIn, .armAt, .doms, .svcs, .logNew, .hold3, .hold2, .pwms,
   .pair, .basins, .power] s (State.f1Finish s) := by
  unfold State.f1Finish
  refine Reach.ite ?_ .refl
  refine Reach.step (State.flrDone_reach ..) rfl ?_
  refine Reach.step (State.f1Clear_reach _) rfl ?_
  exact Reach.step (State.resetF1_reach ..) rfl .refl

theorem State.f1BlockReset_reach (s : State) : Reach [.regs, .pcie, .seqs, .change, .chans, .mem, .dataIn, .armAt, .doms, .svcs, .logNew, .hold3, .hold2, .pwms, .pair, .basins, .power] s (State.f1BlockReset s) := by
  unfold State.f1BlockReset
  refine Reach.ite ?_ ?_
  · split
    · refine Reach.ite ?_ ?_
      · first | assumption | exact .refl
      · refine Reach.step (State.f1Finish_reach ..) rfl ?_
        refine Reach.step (State.setPstate_reach ..) rfl ?_
        refine Reach.step (State.flrPath4_reach ..) rfl ?_
        first | assumption | exact .refl
    · refine Reach.step (State.f1Finish_reach ..) rfl ?_
      first | assumption | exact .refl
  · first | assumption | exact .refl

theorem State.hoFallback_reach (s : State) : Reach [.regs, .change, .doms, .logNew, .seqs, .chans, .hold3, .hold2, .pwms, .mem, .dataIn, .svcs, .pair, .basins, .power, .pcie] s (State.hoFallback s) := by
  unfold State.hoFallback
  split
  · refine Reach.ite ?_ ?_
    · refine Reach.step (State.flrPath4_reach ..) rfl ?_
      refine Reach.step (State.raise_reach ..) rfl ?_
      refine Reach.step (State.hoAbort_reach ..) rfl ?_
      first | assumption | exact .refl
    · first | assumption | exact .refl
  · first | assumption | exact .refl

abbrev State.cfgWrite_parts : List Part :=
  [.pcie, .regs, .dmas, .pair, .change, .doms, .logNew, .seqs, .chans, .hold3, .hold2, .pwms, .mem, .dataIn,
   .svcs, .basins, .power, .adcs, .settle, .trkLatch, .feeds, .ioes, .trips, .cmps, .gio]
theorem State.cfgWrite_reach (s : State) (f : Nat) (off : Nat) (be : Nat) (v : Nat) : Reach State.cfgWrite_parts s (State.cfgWrite s f off be v) := by
  unfold State.cfgWrite
  extract_lets -underBinder -merge +onlyGivenNames x1
  split
  · refine Reach.step (State.modFn_reach ..) rfl ?_
    first | assumption | exact .refl
  · refine Reach.step (State.modFn_reach ..) rfl ?_
    first | assumption | exact .refl
  · refine Reach.step (State.modFn_reach ..) rfl ?_
    first | assumption | exact .refl
  · split
    · refine Reach.step (State.modFn_reach ..) rfl ?_
      first | assumption | exact .refl
    · refine Reach.step (State.modFn_reach ..) rfl ?_
      first | assumption | exact .refl
    · first | assumption | exact .refl
  · refine Reach.step (State.modFn_reach ..) rfl ?_
    first | assumption | exact .refl
  · extract_lets -underBinder -merge +onlyGivenNames s2
    have hs2 : Reach State.cfgWrite_parts s s2 := by
      unfold s2
      refine Reach.step (State.modFn_reach ..) rfl ?_
      first | assumption | exact .refl
    refine Reach.ite ?_ ?_
    · refine Reach.step (State.flr_reach ..) rfl ?_
      first | assumption | exact .refl
    · first | assumption | exact .refl
  · refine Reach.step (State.modFn_reach ..) rfl ?_
    first | assumption | exact .refl
  · refine Reach.step (State.modFn_reach ..) rfl ?_
    first | assumption | exact .refl
  · refine Reach.step (State.modFn_reach ..) rfl ?_
    first | assumption | exact .refl
  · refine Reach.step (State.modFn_reach ..) rfl ?_
    first | assumption | exact .refl
  · first | assumption | exact .refl

theorem State.keepAerr_reach (s : State) (b : Bool) : Reach [.mspi] s (State.keepAerr s b) := by
  unfold State.keepAerr
  refine Reach.write ?_ (by decide) (.mspi _)
  first | assumption | exact .refl

abbrev State.hostWrite_parts : List Part :=
  [.resp, .pcie, .mspi, .regs, .logNew, .change, .doms, .seqs, .chans, .hold3, .hold2, .pwms, .mem, .dataIn,
   .svcs, .pair, .basins, .power, .auxOff, .gio, .dmas, .adcs, .settle, .ioes, .trips, .cmps, .heldLow, .lostOwed, .progErr,
   .mapm, .trkLatch, .feeds]
theorem State.hostWrite_reach (s : State) (src : Src) (space : Space) (off : Nat) (be : Nat) (v : Nat) (rest : List (Nat × Nat)) (bad : Bool) : Reach State.hostWrite_parts s (State.hostWrite s src space off be v rest bad) := by
  unfold State.hostWrite
  extract_lets -underBinder -merge +onlyGivenNames s1
  have hs1 : Reach State.hostWrite_parts s s1 := by
    unfold s1
    refine Reach.step (State.respond_reach ..) rfl ?_
    first | assumption | exact .refl
  split
  · refine Reach.ite ?_ ?_
    · refine Reach.ite ?_ ?_
      · refine Reach.step (State.poisoned_reach ..) rfl ?_
        first | assumption | exact .refl
      · refine Reach.step (State.busWriteWide_reach ..) rfl ?_
        first | assumption | exact .refl
    · refine Reach.step (State.foreign_reach ..) rfl ?_
      first | assumption | exact .refl
  · refine Reach.ite ?_ ?_
    · refine Reach.ite ?_ ?_
      · refine Reach.step (State.poisoned_reach ..) rfl ?_
        first | assumption | exact .refl
      · refine Reach.step (State.windowWriteWide_reach ..) rfl ?_
        first | assumption | exact .refl
    · refine Reach.step (State.foreign_reach ..) rfl ?_
      first | assumption | exact .refl
  · refine Reach.ite ?_ ?_
    · refine Reach.step (State.respond_reach ..) rfl ?_
      first | assumption | exact .refl
    · refine Reach.step (State.cfgWrite_reach ..) rfl ?_
      first | assumption | exact .refl
  · refine Reach.step (State.keepAerr_reach ..) rfl ?_
    refine Reach.step (State.busWriteWide_reach ..) rfl ?_
    first | assumption | exact .refl
  · first | assumption | exact .refl

theorem State.completed_reach (r : State × Option Nat) : Reach [.resp] r.1 (State.completed r) := State.respond_reach ..
abbrev State.hostRead_parts : List Part :=
  [.regs, .pcie, .resp, .mspi, .latched, .seqs, .basins, .trkLatch, .feeds, .ioes]
theorem State.hostRead_reach (s : State) (src : Src) (space : Space) (off be : Nat) (rest : List Nat) :
    Reach State.hostRead_parts s (s.hostRead src space off be rest) := by
  have hc : ∀ (u : State) (r : State × Option Nat), Reach State.hostRead_parts u r.1 → Reach State.hostRead_parts u (State.completed r) :=
    fun _ _ h => Reach.step (State.completed_reach _) rfl h
  have hb : ∀ k, Reach State.hostRead_parts s (s.busReadWide k off be rest).1 := fun _ =>
    Reach.step (State.busReadWide_reach ..) rfl .refl
  unfold State.hostRead
  split
  · exact Reach.ite (hc _ _ (hb _)) (Reach.step (State.foreign_reach ..) rfl .refl)
  · exact Reach.ite (hc _ _ (Reach.step (State.windowReadWide_reach ..) rfl .refl)) (Reach.step (State.foreign_reach ..) rfl .refl)
  · exact Reach.ite (Reach.step (State.respond_reach ..) rfl .refl) (Reach.step (State.respond_reach ..) rfl .refl)
  · exact Reach.step (State.keepAerr_reach ..) rfl (hc _ _ (hb _))
  · exact .refl

theorem State.hostStore_reach (s : State) (src : Src) (r : Reg) (i : Nat) (v : Nat) : Reach [.mspi, .regs, .latched, .seqs, .basins, .trkLatch, .feeds, .ioes, .dmas, .pcie, .pair, .logNew, .change, .doms, .chans, .hold3, .hold2, .pwms, .mem, .dataIn, .svcs, .power, .auxOff, .gio, .adcs, .settle, .trips, .cmps, .heldLow, .lostOwed, .progErr, .mapm, .resp] s (State.hostStore s src r i v) := by
  unfold State.hostStore
  refine Reach.step (State.dmaPump_reach ..) rfl ?_
  refine Reach.step (State.hostWrite_reach ..) rfl ?_
  first | assumption | exact .refl

theorem State.hostMem_reach (s : State) (src : Src) (off : Nat) (be : Nat) (v : Nat) : Reach [.mspi, .regs, .latched, .seqs, .basins, .trkLatch, .feeds, .ioes, .dmas, .pcie, .pair, .logNew, .change, .doms, .chans, .hold3, .hold2, .pwms, .mem, .dataIn, .svcs, .power, .auxOff, .gio, .adcs, .settle, .trips, .cmps, .heldLow, .lostOwed, .progErr, .mapm, .resp] s (State.hostMem s src off be v) := by
  unfold State.hostMem
  refine Reach.step (State.dmaPump_reach ..) rfl ?_
  refine Reach.step (State.hostWrite_reach ..) rfl ?_
  first | assumption | exact .refl

theorem State.hostPut_reach (s : State) (src : Src) (space : Space) (off : Nat) (be : Nat) (v : Nat) (rest : List (Nat × Nat)) (bad : Bool) : Reach [.mspi, .regs, .latched, .seqs, .basins, .trkLatch, .feeds, .ioes, .dmas, .pcie, .pair, .logNew, .change, .doms, .chans, .hold3, .hold2, .pwms, .mem, .dataIn, .svcs, .power, .auxOff, .gio, .adcs, .settle, .trips, .cmps, .heldLow, .lostOwed, .progErr, .mapm, .resp] s (State.hostPut s src space off be v rest bad) := by
  unfold State.hostPut
  refine Reach.step (State.dmaPump_reach ..) rfl ?_
  refine Reach.step (State.hostWrite_reach ..) rfl ?_
  first | assumption | exact .refl

theorem State.hostGet_reach (s : State) (src : Src) (space : Space) (off : Nat) (be : Nat) (rest : List Nat) : Reach [.mspi, .regs, .latched, .seqs, .basins, .trkLatch, .feeds, .ioes, .dmas, .pcie, .pair, .logNew, .change, .doms, .chans, .hold3, .hold2, .pwms, .mem, .dataIn, .svcs, .power, .auxOff, .gio, .adcs, .settle, .trips, .cmps, .heldLow, .lostOwed, .progErr, .mapm, .resp] s (State.hostGet s src space off be rest) := by
  unfold State.hostGet
  refine Reach.step (State.dmaPump_reach ..) rfl ?_
  refine Reach.step (State.hostRead_reach ..) rfl ?_
  first | assumption | exact .refl

theorem State.hostLoad_reach (s : State) (src : Src) (r : Reg) (i : Nat) (word : Nat) : Reach [.mspi, .regs, .latched, .seqs, .basins, .trkLatch, .feeds, .ioes, .dmas, .pcie, .pair, .logNew, .change, .doms, .chans, .hold3, .hold2, .pwms, .mem, .dataIn, .svcs, .power, .auxOff, .gio, .adcs, .settle, .trips, .cmps, .heldLow, .lostOwed, .progErr, .mapm, .resp] s (State.hostLoad s src r i word) := by
  unfold State.hostLoad
  refine Reach.step (State.hostGet_reach ..) rfl ?_
  first | assumption | exact .refl

theorem State.fenceCmd_reach (s : State) (src : Src) (tok : Nat) : Reach [.resp, .pcie, .mspi, .regs, .logNew, .change, .doms, .seqs, .chans, .hold3, .hold2, .pwms, .mem, .dataIn, .svcs, .pair, .basins, .power, .auxOff, .gio, .dmas, .adcs, .settle, .ioes, .trips, .cmps, .heldLow, .lostOwed, .progErr, .mapm, .trkLatch, .feeds] s (State.fenceCmd s src tok) := by
  unfold State.fenceCmd
  split
  · refine Reach.ite ?_ ?_
    · refine Reach.step (State.hostWrite_reach ..) rfl ?_
      first | assumption | exact .refl
    · refine Reach.step (State.hostWrite_reach ..) rfl ?_
      first | assumption | exact .refl
  · refine Reach.step (State.hostWrite_reach ..) rfl ?_
    first | assumption | exact .refl

theorem State.clkSelect_reach (s : State) : Reach [.regs] s (State.clkSelect s) := by
  unfold State.clkSelect
  extract_lets -underBinder -merge +onlyGivenNames x1
  refine Reach.step (State.putFlag_reach ..) rfl ?_
  first | assumption | exact .refl

abbrev State.linkGone_parts : List Part :=
  [.regs]
theorem State.linkGone_reach (s : State) : Reach State.linkGone_parts s (State.linkGone s) := by
  unfold State.linkGone
  extract_lets -underBinder -merge +onlyGivenNames s1
  have hs1 : Reach State.linkGone_parts s s1 := by
    unfold s1
    refine Reach.ite ?_ ?_
    · refine Reach.step (State.raise_reach ..) rfl ?_
      first | assumption | exact .refl
    · first | assumption | exact .refl
  refine Reach.step (State.setFld_reach ..) rfl ?_
  refine Reach.step (State.setFld_reach ..) rfl ?_
  refine Reach.step (State.putFlag_reach ..) rfl ?_
  first | assumption | exact .refl

abbrev State.conventional_parts : List Part :=
  [.regs, .dmas, .pcie]
theorem State.conventional_reach (s : State) (cause : ConvReset) : Reach State.conventional_parts s (State.conventional s cause) := by
  unfold State.conventional
  extract_lets -underBinder -merge +onlyGivenNames s1
  have hs1 : Reach State.conventional_parts s s1 := by
    unfold s1
    refine Reach.step (State.clkSelect_reach ..) rfl ?_
    refine Reach.step (State.dmaLost_reach ..) rfl ?_
    refine Reach.step (State.modPcie_reach _ _ (fun h => ?_)) rfl ?_
    · first | (dsimp only; with_reducible exact h) | rfl
    · refine Reach.step (State.linkGone_reach ..) rfl ?_
      first | assumption | exact .refl
  split
  · refine Reach.step (State.modPcie_reach _ _ (fun h => ?_)) rfl ?_
    · first | (dsimp only; with_reducible exact h) | rfl
    · first | assumption | exact .refl
  · first | assumption | exact .refl

theorem State.linkTrained_reach (s : State) (speed : Nat) (width : Nat) : Reach [.regs] s (State.linkTrained s speed width) := by
  unfold State.linkTrained
  refine Reach.ite ?_ ?_
  · first | assumption | exact .refl
  · refine Reach.step (State.raise_reach ..) rfl ?_
    refine Reach.step (State.setFld_reach ..) rfl ?_
    refine Reach.step (State.setFld_reach ..) rfl ?_
    refine Reach.step (State.raise_reach ..) rfl ?_
    first | assumption | exact .refl

theorem State.perstOff_reach (s : State) : Reach [.regs, .pcie] s (State.perstOff s) := by
  unfold State.perstOff
  refine Reach.ite ?_ ?_
  · refine Reach.step (State.clkSelect_reach ..) rfl ?_
    refine Reach.step (State.modPcie_reach _ _ (fun h => ?_)) rfl ?_
    · first | (dsimp only; with_reducible exact h) | rfl
    · first | assumption | exact .refl
  · first | assumption | exact .refl

theorem State.retryEnd_reach (s : State) : Reach [.pcie] s (State.retryEnd s) := by
  unfold State.retryEnd
  refine Reach.ite ?_ ?_
  · refine Reach.step (State.modPcie_reach _ _ (fun h => ?_)) rfl ?_
    · first | (dsimp only; with_reducible exact h) | rfl
    · first | assumption | exact .refl
  · first | assumption | exact .refl

theorem State.unmask_reach (s : State) (f : Nat) (c : SendCond) : Reach [.pcie] s (State.unmask s f c) := by
  unfold State.unmask
  refine Reach.step (State.modFn_reach ..) rfl ?_
  first | assumption | exact .refl


/-! ### Mspi.lean -/

theorem State.modMspi_reach (s : State) (g : Mspi → Mspi) : Reach [.mspi] s (State.modMspi s g) := by
  unfold State.modMspi
  refine Reach.write ?_ (by decide) (.mspi _)
  first | assumption | exact .refl

theorem State.selFall_reach (s : State) (bits : Nat) : Reach [.mspi] s (State.selFall s bits) := by
  unfold State.selFall
  extract_lets -underBinder -merge +onlyGivenNames x1
  refine Reach.step (State.modMspi_reach ..) rfl ?_
  first | assumption | exact .refl

theorem State.mspiRun_reach (V : List Part) (s : State) (bits : Nat) (g : State → State)
    (hg : ∀ t, Reach V t (g t)) : Reach (.mspi :: V) s (s.mspiRun bits g) := by
  unfold State.mspiRun
  split
  · exact ((State.selFall_reach ..).mono (by simp +contextual)).trans ((hg _).mono fun p hp => by simp [hp])
  · exact (State.modMspi_reach ..).mono (by simp +contextual)

theorem State.mspiNopFrame_reach (s : State) : Reach [.mspi] s (State.mspiNopFrame s) := by
  unfold State.mspiNopFrame
  refine Reach.step (State.modMspi_reach ..) rfl ?_
  first | assumption | exact .refl

abbrev State.mspiReadFrame_parts : List Part :=
  [.mspi, .regs, .latched, .seqs, .basins, .trkLatch, .feeds, .ioes]
theorem State.mspiReadFrame_reach (s : State) (addr : Nat) : Reach State.mspiReadFrame_parts s (State.mspiReadFrame s addr) := by
  unfold State.mspiReadFrame
  extract_lets -underBinder -merge +onlyGivenNames p1
  have hp1 : Reach State.mspiReadFrame_parts s p1.1 := by
    unfold p1
    refine Reach.step (State.busRead_reach ..) rfl ?_
    first | assumption | exact .refl
  refine Reach.step (State.modMspi_reach ..) rfl ?_
  first | assumption | exact .refl

abbrev State.mspiWriteFrame_parts : List Part :=
  [.mspi, .regs, .latched, .seqs, .basins, .trkLatch, .feeds, .ioes, .dmas, .pcie, .pair, .logNew, .change, .doms,
   .chans, .hold3, .hold2, .pwms, .mem, .dataIn, .svcs, .power, .auxOff, .gio, .adcs, .settle, .trips, .cmps,
   .heldLow, .lostOwed, .progErr, .mapm]
theorem State.mspiWriteFrame_reach (s : State) (addr : Nat) (v : Nat) : Reach State.mspiWriteFrame_parts s (State.mspiWriteFrame s addr v) := by
  unfold State.mspiWriteFrame
  extract_lets -underBinder -merge +onlyGivenNames s1 x2 x3
  have hs1 : Reach State.mspiWriteFrame_parts s s1 := by
    unfold s1
    refine Reach.step (State.dmaPump_reach ..) rfl ?_
    refine Reach.step (State.busWrite_reach ..) rfl ?_
    first | assumption | exact .refl
  refine Reach.step (State.modMspi_reach ..) rfl ?_
  first | assumption | exact .refl

theorem State.mspiClearFrame_reach (s : State) : Reach [.mspi, .regs, .change, .doms, .logNew, .seqs, .chans, .hold3, .hold2, .pwms, .mem, .dataIn, .svcs, .pair, .basins, .power] s (State.mspiClearFrame s) := by
  unfold State.mspiClearFrame
  refine Reach.step (State.modMspi_reach ..) rfl ?_
  refine Reach.step (State.requestClearing_reach ..) rfl ?_
  first | assumption | exact .refl

theorem State.mspiBadCmd_reach (s : State) (cmd : Nat) (addr : Nat) (v : Nat) : Reach [.mspi, .regs] s (State.mspiBadCmd s cmd addr v) := by
  unfold State.mspiBadCmd
  refine Reach.ite ?_ ?_
  · first | assumption | exact .refl
  · refine Reach.step (State.modMspi_reach ..) rfl ?_
    refine Reach.step (State.bump_reach ..) rfl ?_
    first | assumption | exact .refl

theorem State.mspiDiscard_reach (s : State) (cause : Nat) : Reach [.mspi, .regs] s (State.mspiDiscard s cause) := by
  unfold State.mspiDiscard
  refine Reach.step (State.modMspi_reach ..) rfl ?_
  refine Reach.step (State.setFld_reach ..) rfl ?_
  refine Reach.step (State.bump_reach ..) rfl ?_
  first | assumption | exact .refl

theorem State.mspiDiscardFrame_reach (s : State) (bits : Nat) (frame : Nat) (early : Bool) : Reach [.mspi, .regs] s (State.mspiDiscardFrame s bits frame early) := by
  unfold State.mspiDiscardFrame
  refine Reach.ite ?_ ?_
  · refine Reach.ite ?_ ?_
    · refine Reach.step (State.mspiDiscard_reach ..) rfl ?_
      refine Reach.step (State.modMspi_reach ..) rfl ?_
      first | assumption | exact .refl
    · refine Reach.step (State.modMspi_reach ..) rfl ?_
      first | assumption | exact .refl
  · refine Reach.ite ?_ ?_
    · first | assumption | exact .refl
    · refine Reach.step (State.mspiRun_reach [.mspi, .regs] _ _ _ (fun t1 => ?_)) rfl ?_
      · refine Reach.step (State.mspiDiscard_reach ..) rfl ?_
        first | assumption | exact .refl
      · first | assumption | exact .refl


/-! ### PairLink.lean -/

theorem State.writeFrame_reach (s : State) (src : Nat) (off : Nat) (be : Nat) (v : Nat) : Reach [.regs, .mspi, .latched, .seqs, .basins, .trkLatch, .feeds, .ioes, .dmas, .pcie, .pair, .logNew, .change, .doms, .chans, .hold3, .hold2, .pwms, .mem, .dataIn, .svcs, .power, .auxOff, .gio, .adcs, .settle, .trips, .cmps, .heldLow, .lostOwed, .progErr, .mapm] s (State.writeFrame s src off be v) := by
  unfold State.writeFrame
  refine Reach.ite ?_ ?_
  · refine Reach.ite ?_ ?_
    · refine Reach.step (State.fenceToken_reach ..) rfl ?_
      first | assumption | exact .refl
    · refine Reach.step (State.keepAerr_reach ..) rfl ?_
      refine Reach.step (State.dmaPump_reach ..) rfl ?_
      refine Reach.step (State.busStore_reach ..) rfl ?_
      first | assumption | exact .refl
  · first | assumption | exact .refl

theorem State.bulkOut_reach (s : State) (off : Nat) (data : List Nat) : Reach [.pair] s (State.bulkOut s off data) := by
  unfold State.bulkOut
  refine Reach.step (State.sendReliable_reach ..) rfl ?_
  first | assumption | exact .refl

theorem State.bulkMem_reach (p : State × Nat × Nat) (r : Nat × Nat) : Reach [.pair] p.1 (State.bulkMem p r).1 := by
  unfold State.bulkMem
  exact Reach.foldlFst _ _ (fun _ _ h => Reach.step (State.bulkOut_reach ..) rfl h) .refl

theorem State.bulkRegs_reach (p : State × Nat × Nat) (r : Nat × Nat) : Reach [.pair] p.1 (State.bulkRegs p r).1 := by
  unfold State.bulkRegs
  refine Reach.foldlFst _ _ (fun q k h => ?_) .refl
  dsimp only
  split
  · exact Reach.step (State.bulkOut_reach ..) rfl h
  · exact h

theorem State.joinAnswer_reach (s : State) : Reach [.pair, .regs] s s.joinAnswer := by
  unfold State.joinAnswer
  refine Reach.ite ?_ .refl
  extract_lets s1 p
  have h1 : Reach [.pair, .regs] s s1 := Reach.step (State.sendReliable_reach ..) rfl .refl
  have hp : Reach [.pair, .regs] s p.1 := by
    refine Reach.foldlFst _ _ (fun q r h => Reach.step (State.bulkRegs_reach ..) rfl h) ?_
    exact Reach.foldlFst _ _ (fun q r h => Reach.step (State.bulkMem_reach ..) rfl h) h1
  exact Reach.step (State.sendReliable_reach ..) rfl (Reach.step (State.setFld_reach ..) rfl hp)

theorem State.joinAdc_reach (s : State) (off : Nat) (k : Nat) (v : Nat) : Reach [.mspi, .regs, .adcs] s (State.joinAdc s off k v) := by
  unfold State.joinAdc
  refine Reach.step (State.adcCfg_reach ..) rfl ?_
  refine Reach.step (State.adcCfg_reach ..) rfl ?_
  first | assumption | exact .refl

abbrev State.joinBas_parts : List Part :=
  [.regs, .basins]
theorem State.joinBas_reach (s : State) (k : Nat) (v : Nat) : Reach State.joinBas_parts s (State.joinBas s k v) := by
  unfold State.joinBas
  extract_lets -underBinder -merge +onlyGivenNames s1
  have hs1 : Reach State.joinBas_parts s s1 := by
    unfold s1
    refine Reach.foldl _ _ (fun u2 y2 hu2 => ?_) ?_
    · refine Reach.step (State.setFld_reach ..) rfl ?_
      first | assumption | exact .refl
    · refine Reach.step (State.basAbort_reach ..) rfl ?_
      first | assumption | exact .refl
  refine Reach.step (State.modBasin_reach ..) rfl ?_
  refine Reach.step (State.putFlag_reach ..) rfl ?_
  first | assumption | exact .refl

theorem State.joinOwner_reach (s : State) (c : Nat) (v : Nat) : Reach [.chans, .regs] s (State.joinOwner s c v) := by
  unfold State.joinOwner
  refine Reach.step (State.redriveChan_reach ..) rfl ?_
  refine Reach.step (State.setFld_reach ..) rfl ?_
  refine Reach.step (State.setFld_reach ..) rfl ?_
  first | assumption | exact .refl

theorem State.joinFields_reach (s : State) (r : Reg) (i : Nat) (v : Nat) : Reach [.regs] s (State.joinFields s r i v) := by
  unfold State.joinFields
  refine Reach.foldl _ _ (fun u1 y1 hu1 => ?_) ?_
  · refine Reach.step (State.setFld_reach ..) rfl ?_
    first | assumption | exact .refl
  · first | assumption | exact .refl

theorem State.joinReg_reach (s : State) (a : RegAt) (off : Nat) (w : Nat) : Reach [.pair, .mspi, .regs, .adcs, .basins, .chans, .logNew, .change, .doms, .seqs, .hold3, .hold2, .pwms, .mem, .dataIn, .svcs, .power, .auxOff, .gio, .dmas, .settle, .ioes, .trips, .cmps, .lostOwed] s (State.joinReg s a off w) := by
  unfold State.joinReg
  refine Reach.ite ?_ ?_
  · refine Reach.step (State.modPair_reach ..) rfl ?_
    first | assumption | exact .refl
  · refine Reach.ite ?_ ?_
    · extract_lets -underBinder -merge +onlyGivenNames x1 x2
      split
      · refine Reach.step (State.joinAdc_reach ..) rfl ?_
        first | assumption | exact .refl
      · refine Reach.step (State.joinBas_reach ..) rfl ?_
        first | assumption | exact .refl
      · refine Reach.step (State.joinOwner_reach ..) rfl ?_
        first | assumption | exact .refl
      · refine Reach.step (State.writeReg_reach ..) rfl ?_
        refine Reach.ite ?_ ?_
        · first | assumption | exact .refl
        · refine Reach.step (State.joinFields_reach ..) rfl ?_
          first | assumption | exact .refl
    · first | assumption | exact .refl

theorem State.joinStore_reach (s : State) (off : Nat) (w : Nat) : Reach [.pair, .mspi, .regs, .adcs, .basins, .chans, .logNew, .change, .doms, .seqs, .hold3, .hold2, .pwms, .mem, .dataIn, .svcs, .power, .auxOff, .gio, .dmas, .settle, .ioes, .trips, .cmps, .progErr, .mapm, .lostOwed] s (State.joinStore s off w) := by
  unfold State.joinStore
  split
  · refine Reach.step (State.joinReg_reach ..) rfl ?_
    first | assumption | exact .refl
  · refine Reach.step (State.memWritten_reach ..) rfl ?_
    refine Reach.step (State.setWord_reach ..) rfl ?_
    first | assumption | exact .refl
  · first | assumption | exact .refl

theorem State.joinWords_reach (s : State) (off : Nat) (ws : List Nat) : Reach [.pair, .mspi, .regs, .adcs, .basins, .chans, .logNew, .change, .doms, .seqs, .hold3, .hold2, .pwms, .mem, .dataIn, .svcs, .power, .auxOff, .gio, .dmas, .settle, .ioes, .trips, .cmps, .progErr, .mapm, .lostOwed] s (State.joinWords s off ws) := by
  unfold State.joinWords
  refine Reach.foldlFst _ _ (fun u1 y1 hu1 => ?_) ?_
  · refine Reach.fstMk ?_
    refine Reach.step (State.joinStore_reach ..) rfl ?_
    first | assumption | exact .refl
  · refine Reach.fstMk ?_
    first | assumption | exact .refl

abbrev State.bulkIn_parts : List Part :=
  [.pair, .mspi, .regs, .adcs, .basins, .chans, .logNew, .change, .doms, .seqs, .hold3, .hold2, .pwms, .mem,
   .dataIn, .svcs, .power, .auxOff, .gio, .dmas, .settle, .ioes, .trips, .cmps, .progErr, .mapm, .lostOwed]
theorem State.bulkIn_reach (s : State) (off : Nat) (data : List Byte) : Reach State.bulkIn_parts s (State.bulkIn s off data) := by
  unfold State.bulkIn
  refine Reach.ite ?_ ?_
  · extract_lets -underBinder -merge +onlyGivenNames s1
    have hs1 : Reach State.bulkIn_parts s s1 := by
      unfold s1
      refine Reach.step (State.modPair_reach ..) rfl ?_
      refine Reach.step (State.joinWords_reach ..) rfl ?_
      first | assumption | exact .refl
    refine Reach.step (State.setFld_reach ..) rfl ?_
    first | assumption | exact .refl
  · first | assumption | exact .refl


/-! ### Power.lean -/

theorem State.modPower_reach (s : State) (g : Power → Power) : Reach [.power] s (State.modPower s g) := by
  unfold State.modPower
  refine Reach.write ?_ (by decide) (.power _)
  first | assumption | exact .refl

theorem State.porAssert_reach (s : State) : Reach [.power, .tnow, .wsNs, .regs, .mem, .progErr, .resp, .latched, .heldLow, .logNew, .lostOwed, .armAt, .doms, .seqs, .mapm, .dataIn, .chans, .svcs, .change, .adcs, .settle, .basins, .trkLatch, .feeds, .weightSwap, .hold3, .hold2, .cmps, .trips, .pwms, .auxOff, .clkStopAt, .ioes, .gio, .dmas, .pcie, .mspi, .den, .pair] s (State.porAssert s) := by
  unfold State.porAssert
  refine Reach.step (State.modPower_reach ..) rfl ?_
  refine Reach.step (State.powerOn_reach ..) rfl ?_
  first | assumption | exact .refl

theorem State.resumeSeq_reach (s : State) (n : Nat) : Reach [.seqs] s (State.resumeSeq s n) := by
  unfold State.resumeSeq
  extract_lets -underBinder -merge +onlyGivenNames x1
  exact Reach.step (State.modSeq_reach _ _ _ fun q h => by
    rw [Seq.ok_iff] at h ⊢
    exact ⟨h.1, h.2.1, h.2.2.1, Tab.rising_map (· + x1) h.2.2.2⟩) rfl .refl

abbrev State.clockFail_parts : List Part :=
  [.power, .clkStopAt, .pwms, .den]
theorem State.clockFail_reach (s : State) (c : FailCode) : Reach State.clockFail_parts s (State.clockFail s c) := by
  unfold State.clockFail
  refine Reach.ite ?_ ?_
  · refine Reach.step (State.modPower_reach ..) rfl ?_
    first | assumption | exact .refl
  · extract_lets -underBinder -merge +onlyGivenNames s1 s2
    have hs1 : Reach State.clockFail_parts s s1 := by
      unfold s1
      refine Reach.ite ?_ ?_
      · first | assumption | exact .refl
      · refine Reach.write ?_ (by decide) (.clkStopAt _)
        first | assumption | exact .refl
    have hs2 : Reach State.clockFail_parts s s2 := by
      unfold s2
      refine Reach.ite ?_ ?_
      · refine Reach.step (State.pwmHold_reach ..) rfl ?_
        first | assumption | exact .refl
      · first | assumption | exact .refl
    refine Reach.step (State.denOff_reach ..) rfl ?_
    refine Reach.step (State.modPower_reach ..) rfl ?_
    first | assumption | exact .refl

abbrev State.clockRecover_parts : List Part :=
  [.power, .seqs, .pwms, .regs, .logNew, .den, .pair, .chans, .change, .doms, .hold3, .hold2, .mem, .dataIn,
   .svcs, .basins]
theorem State.clockRecover_reach (s : State) : Reach State.clockRecover_parts s (State.clockRecover s) := by
  unfold State.clockRecover
  refine Reach.ite ?_ ?_
  · extract_lets -underBinder -merge +onlyGivenNames x1 s2 s3 s4 s5 s6 x7 s8
    have hs2 : Reach State.clockRecover_parts s s2 := by
      unfold s2
      refine Reach.step (State.modPower_reach ..) rfl ?_
      first | assumption | exact .refl
    have hs3 : Reach State.clockRecover_parts s s3 := by
      unfold s3
      refine Reach.ite ?_ ?_
      · refine Reach.foldl _ _ (fun u9 y9 hu9 => ?_) ?_
        · refine Reach.step (State.resumeSeq_reach ..) rfl ?_
          first | assumption | exact .refl
        · first | assumption | exact .refl
      · first | assumption | exact .refl
    have hs4 : Reach State.clockRecover_parts s s4 := by
      unfold s4
      refine Reach.ite ?_ ?_
      · refine Reach.step (State.pwmResume_reach ..) rfl ?_
        first | assumption | exact .refl
      · first | assumption | exact .refl
    have hs5 : Reach State.clockRecover_parts s s5 := by
      unfold s5
      refine Reach.step (State.raise_reach ..) rfl ?_
      refine Reach.step (State.setFld_reach ..) rfl ?_
      first | assumption | exact .refl
    have hs6 : Reach State.clockRecover_parts s s6 := by
      unfold s6
      refine Reach.step (State.log_reach ..) rfl ?_
      first | assumption | exact .refl
    have hs8 : Reach State.clockRecover_parts s s8 := by
      unfold s8
      refine Reach.write ?_ (by decide) (.den _)
      first | assumption | exact .refl
    refine Reach.ite ?_ ?_
    · first | assumption | exact .refl
    · refine Reach.step (State.path7_reach ..) rfl ?_
      first | assumption | exact .refl
  · first | assumption | exact .refl

abbrev State.dormantDone_parts : List Part :=
  [.regs, .dmas, .pcie, .change, .power]
theorem State.dormantDone_reach (s : State) : Reach State.dormantDone_parts s (State.dormantDone s) := by
  unfold State.dormantDone
  refine Reach.ite ?_ ?_
  · extract_lets -underBinder -merge +onlyGivenNames s1 s2 s3 s4
    have hs1 : Reach State.dormantDone_parts s s1 := by
      unfold s1
      refine Reach.step (State.conventional_reach ..) rfl ?_
      first | assumption | exact .refl
    have hs2 : Reach State.dormantDone_parts s s2 := by
      unfold s2
      refine Reach.write ?_ (by decide) (.change _)
      first | assumption | exact .refl
    have hs3 : Reach State.dormantDone_parts s s3 := by
      unfold s3
      refine Reach.step (State.setFld_reach ..) rfl ?_
      refine Reach.step (State.setFld_reach ..) rfl ?_
      first | assumption | exact .refl
    have hs4 : Reach State.dormantDone_parts s s4 := by
      unfold s4
      refine Reach.step (State.putFlag_reach ..) rfl ?_
      refine Reach.step (State.putFlag_reach ..) rfl ?_
      first | assumption | exact .refl
    refine Reach.step (State.modPower_reach ..) rfl ?_
    first | assumption | exact .refl
  · first | assumption | exact .refl

theorem State.wake_reach (s : State) (enabled : Bool) (w : Wake) : Reach [.power] s (State.wake s enabled w) := by
  unfold State.wake
  extract_lets -underBinder -merge +onlyGivenNames x1
  refine Reach.ite ?_ ?_
  · refine Reach.step (State.modPower_reach ..) rfl ?_
    first | assumption | exact .refl
  · first | assumption | exact .refl

theorem State.wakeWheel_reach (s : State) (w : Nat) : Reach [.power] s (State.wakeWheel s w) := by
  unfold State.wakeWheel
  refine Reach.step (State.wake_reach ..) rfl ?_
  first | assumption | exact .refl

theorem State.wakePin_reach (s : State) : Reach [.power] s (State.wakePin s) := by
  unfold State.wakePin
  refine Reach.step (State.wake_reach ..) rfl ?_
  first | assumption | exact .refl

theorem State.wakeTimer_reach (s : State) : Reach [.power] s (State.wakeTimer s) := by
  unfold State.wakeTimer
  refine Reach.step (State.wake_reach ..) rfl ?_
  first | assumption | exact .refl

theorem State.woken_reach (s : State) (w : Wake) : Reach Part.all s (s.woken w) := by
  unfold State.woken
  extract_lets -underBinder -merge +onlyGivenNames p b t1 _ t2 t3 t4
  have h1 : Reach Part.all s t1 := by
    have w0 : Reach Part.all s b := State.powerOn_reach ..
    unfold t1
    clear_value b
    have w1 := Reach.write w0 (p := .wsNs) (by decide) (.wsNs s.wsNs)
    have w2 := Reach.write w1 (p := .tnow) (by decide) (.tnow (s.keptTnow % 2 ^ 64) fun _ => Nat.mod_lt _ (Nat.two_pow_pos 64))
    have w3 := Reach.write w2 (p := .power) (by decide) (.power { p with
      clocks := true, forced := false, wake := none, during := false, released := s.wsNs, overAt := [], offAt := [] })
    exact w3
  clear_value t1
  have h2 : Reach Part.all s t2 := .write h1 (p := .pcie) (by decide) (.pcie _ fun h => h)
  clear_value t2
  have h3 : Reach Part.all s t3 := Reach.step (State.modPair_reach ..) rfl (Reach.step (State.putFlag_reach ..) rfl h2)
  clear_value t3
  refine Reach.step (State.raise_reach ..) rfl (Reach.step (State.setFld_reach ..) rfl ?_)
  refine Reach.step (State.putFlag_reach ..) rfl (Reach.step (State.setFld_reach ..) rfl ?_)
  exact Reach.step (State.setFld_reach ..) rfl h3

theorem State.wakeRelease_reach (s : State) : Reach [.tnow, .wsNs, .regs, .mem, .progErr, .resp, .latched, .heldLow, .logNew, .lostOwed, .armAt, .doms, .seqs, .mapm, .dataIn, .chans, .svcs, .change, .adcs, .settle, .basins, .trkLatch, .feeds, .weightSwap, .hold3, .hold2, .cmps, .trips, .pwms, .auxOff, .clkStopAt, .ioes, .gio, .dmas, .pcie, .mspi, .power, .den, .pair] s (State.wakeRelease s) := by
  unfold State.wakeRelease
  split
  · refine Reach.ite ?_ ?_
    · refine Reach.step (State.woken_reach ..) rfl ?_
      first | assumption | exact .refl
    · first | assumption | exact .refl
  · first | assumption | exact .refl

theorem State.firstCatch_reach (s : State) (w : Nat) (stamp : Nat) (rising : Bool) : Reach [.power] s (State.firstCatch s w stamp rising) := by
  unfold State.firstCatch
  refine Reach.ite ?_ ?_
  · extract_lets -underBinder -merge +onlyGivenNames x1 x2
    refine Reach.step (State.modPower_reach ..) rfl ?_
    first | assumption | exact .refl
  · first | assumption | exact .refl

theorem State.debugHalt_reach (s : State) : Reach [.pwms, .regs, .change, .doms, .logNew, .seqs, .chans, .hold3, .hold2, .mem, .dataIn, .svcs, .pair, .basins, .power] s (State.debugHalt s) := by
  unfold State.debugHalt
  refine Reach.ite ?_ ?_
  · first | assumption | exact .refl
  · refine Reach.step (State.pwmHold_reach ..) rfl ?_
    refine Reach.step (State.spillInto_reach ..) rfl ?_
    refine Reach.step (State.raise_reach ..) rfl ?_
    first | assumption | exact .refl

abbrev State.testReset_parts : List Part :=
  [.regs, .seqs, .pwms]
theorem State.testReset_reach (s : State) : Reach State.testReset_parts s (State.testReset s) := by
  unfold State.testReset
  refine Reach.ite ?_ ?_
  · extract_lets -underBinder -merge +onlyGivenNames s1 s2
    have hs1 : Reach State.testReset_parts s s1 := by
      unfold s1
      refine Reach.step (State.putFlag_reach ..) rfl ?_
      refine Reach.step (State.putFlag_reach ..) rfl ?_
      first | assumption | exact .refl
    have hs2 : Reach State.testReset_parts s s2 := by
      unfold s2
      refine Reach.ite ?_ ?_
      · refine Reach.foldl _ _ (fun u3 y3 hu3 => ?_) ?_
        · refine Reach.step (State.resumeSeq_reach ..) rfl ?_
          first | assumption | exact .refl
        · first | assumption | exact .refl
      · first | assumption | exact .refl
    refine Reach.ite ?_ ?_
    · first | assumption | exact .refl
    · refine Reach.step (State.pwmResume_reach ..) rfl ?_
      first | assumption | exact .refl
  · first | assumption | exact .refl

theorem State.presentPin_reach (s : State) (made : Bool) : Reach [.chans, .pair, .regs, .logNew, .change, .doms, .seqs, .hold3, .hold2, .pwms, .mem, .dataIn, .svcs, .basins, .power] s (State.presentPin s made) := by
  unfold State.presentPin
  refine Reach.ite ?_ ?_
  · refine Reach.ite ?_ ?_
    · refine Reach.step (State.presentMake_reach ..) rfl ?_
      first | assumption | exact .refl
    · refine Reach.step (State.presentBreak_reach ..) rfl ?_
      first | assumption | exact .refl
  · refine Reach.step (State.putFlag_reach ..) rfl ?_
    first | assumption | exact .refl


/-! ### Time.lean -/

theorem State.advance_reach (s : State) : Reach [.wsNs, .tnow] s s.advance := by
  unfold State.advance
  extract_lets s1
  have h1 : Reach [.wsNs, .tnow] s s1 := .write .refl (by decide) (.wsNs _)
  exact Reach.ite (.write h1 (by decide) (.tnow _ fun _ => Nat.mod_lt _ (Nat.two_pow_pos 64))) h1

theorem State.idle_reach (s : State) : Reach [.logNew, .regs, .lostOwed, .clkStopAt, .pcie, .pwms, .wsNs, .tnow] s (State.idle s) := by
  unfold State.idle
  refine Reach.step (State.concluded_reach ..) rfl ?_
  refine Reach.step (State.sendDue_reach ..) rfl ?_
  refine Reach.step (State.pwmTurn_reach ..) rfl ?_
  refine Reach.step (State.advance_reach ..) rfl ?_
  first | assumption | exact .refl

end Sys2Proof.Machine
end

