-- ==== Sys2Proof/Laws/ReachExec.lean ====
section
/-! SUPPORT. What each command can write: its effect's parts, and those that the end of every command writes. -/

namespace Sys2Proof.Machine

/-- The parts that the end of a command writes. -/
abbrev concludedParts : List Part := [.logNew, .regs, .lostOwed, .clkStopAt, .pcie]

theorem run_reach {V : List Part} {s t : State} {f : State → State} (hf : Reach V s (f s)) (h : run s f = .next t) :
    Reach (concludedParts ++ V) s t := by
  unfold run at h
  cases h
  exact (hf.mono fun _ hp => List.mem_append_right _ hp).trans
    ((State.concluded_reach ..).mono fun _ hp => List.mem_append_left _ hp)

theorem runLive_reach {V : List Part} {s t : State} {f : State → State} (hf : Reach V s (f s))
    (h : runLive s f = .next t) : Reach (concludedParts ++ V) s t := run_reach (.ite hf .refl) h

theorem runSeq_reach {V : List Part} {s t : State} {f : State → State} (hf : Reach V s (f s))
    (h : runSeq s f = .next t) : Reach (concludedParts ++ V) s t :=
  runLive_reach (f := fun u => if u.seqStopped then u else f u) (.ite .refl hf) h

theorem runEv_reach {V : List Part} {s t : State} {f : State → State} (hf : Reach V s (f s))
    (h : runEv s f = .next t) : Reach (concludedParts ++ V) s t :=
  runLive_reach (f := fun u => if u.evStopped then u else f u) (.ite .refl hf) h

theorem runPer_reach {V : List Part} {s t : State} {f : State → State} (hf : Reach V s (f s))
    (h : runPer s f = .next t) : Reach (concludedParts ++ V) s t :=
  runLive_reach (f := fun u => if u.perStopped then u else f u) (.ite .refl hf) h

abbrev hostParts : List Part :=
  [.mspi, .regs, .latched, .seqs, .basins, .trkLatch, .feeds, .ioes, .dmas, .pcie, .pair, .logNew, .change, .doms,
   .chans, .hold3, .hold2, .pwms, .mem, .dataIn, .svcs, .power, .auxOff, .gio, .adcs, .settle, .trips, .cmps,
   .heldLow, .lostOwed, .progErr, .mapm, .resp]

abbrev effectParts1 : List Part :=
  [.tnow, .wsNs, .regs, .seqs, .logNew, .change, .chans, .mem, .dataIn]

abbrev effectParts2 : List Part :=
  [.mspi, .regs, .latched, .seqs, .basins, .trkLatch, .feeds, .ioes, .dmas, .pcie, .pair, .logNew, .change, .doms,
   .chans, .hold3, .hold2, .pwms, .mem, .dataIn, .svcs, .power, .auxOff, .gio, .adcs, .settle, .trips, .cmps,
   .heldLow, .lostOwed, .progErr, .mapm]

abbrev effectParts3 : List Part :=
  [.chans, .pair, .regs, .logNew, .change, .doms, .seqs, .hold3, .hold2, .pwms, .mem, .dataIn, .svcs, .basins,
   .power]

abbrev effectParts4 : List Part :=
  [.resp, .pcie, .mspi, .regs, .logNew, .change, .doms, .seqs, .chans, .hold3, .hold2, .pwms, .mem, .dataIn,
   .svcs, .pair, .basins, .power, .auxOff, .gio, .dmas, .adcs, .settle, .ioes, .trips, .cmps, .heldLow, .lostOwed, .progErr,
   .mapm, .trkLatch, .feeds]

abbrev effectParts5 : List Part :=
  [.tnow, .wsNs, .regs, .mem, .progErr, .resp, .latched, .heldLow, .logNew, .lostOwed, .armAt, .doms, .seqs,
   .mapm, .dataIn, .chans, .svcs, .change, .adcs, .settle, .basins, .trkLatch, .feeds, .weightSwap, .hold3, .hold2,
   .cmps, .trips, .pwms, .auxOff, .clkStopAt, .ioes, .gio, .dmas, .pcie, .mspi, .power, .den, .pair]

abbrev effectParts6 : List Part :=
  [.regs, .change, .doms, .logNew, .seqs, .chans, .hold3, .hold2, .pwms, .mem, .dataIn, .svcs, .pair, .basins,
   .power]

abbrev effectParts7 : List Part :=
  [.change, .logNew, .regs, .seqs, .chans, .mem, .dataIn, .doms, .hold3, .hold2, .pwms, .svcs, .pair, .basins,
   .power]

abbrev effectParts8 : List Part :=
  [.regs, .pair, .change, .doms, .logNew, .seqs, .chans, .hold3, .hold2, .pwms, .mem, .dataIn, .svcs, .basins,
   .power]

abbrev effectParts9 : List Part :=
  [.regs, .den, .logNew, .chans, .pair, .change, .doms, .seqs, .hold3, .hold2, .pwms, .mem, .dataIn, .svcs,
   .basins, .power]

abbrev effectParts10 : List Part :=
  [.pair, .regs, .logNew, .chans, .change, .doms, .seqs, .hold3, .hold2, .pwms, .mem, .dataIn, .svcs, .basins,
   .power, .den]

abbrev effectParts11 : List Part :=
  [.pair, .regs, .change, .doms, .logNew, .seqs, .chans, .hold3, .hold2, .pwms, .mem, .dataIn, .svcs, .basins,
   .power]

abbrev effectParts12 : List Part :=
  [.pair, .regs, .change, .doms, .logNew, .seqs, .chans, .hold3, .hold2, .pwms, .mem, .dataIn, .svcs, .basins,
   .power, .auxOff, .gio]

abbrev effectParts13 : List Part :=
  [.pair, .seqs, .regs, .change, .doms, .logNew, .chans, .hold3, .hold2, .pwms, .mem, .dataIn, .svcs, .basins,
   .power]

abbrev effectParts14 : List Part :=
  [.pair, .mspi, .regs, .adcs, .basins, .chans, .logNew, .change, .doms, .seqs, .hold3, .hold2, .pwms, .mem,
   .dataIn, .svcs, .power, .auxOff, .gio, .dmas, .settle, .ioes, .trips, .cmps, .progErr, .mapm, .lostOwed]

abbrev effectParts15 : List Part :=
  [.pair, .regs, .mspi, .latched, .seqs, .basins, .trkLatch, .feeds, .ioes, .dmas, .pcie, .logNew, .change, .doms,
   .chans, .hold3, .hold2, .pwms, .mem, .dataIn, .svcs, .power, .auxOff, .gio, .adcs, .settle, .trips, .cmps,
   .heldLow, .lostOwed, .progErr, .mapm]

abbrev effectParts16 : List Part :=
  [.regs, .mspi, .latched, .seqs, .basins, .trkLatch, .feeds, .ioes, .pcie]

abbrev effectParts17 : List Part :=
  [.mspi, .regs, .latched, .seqs, .basins, .trkLatch, .feeds, .ioes]

abbrev effectParts18 : List Part :=
  [.mspi, .regs, .change, .doms, .logNew, .seqs, .chans, .hold3, .hold2, .pwms, .mem, .dataIn, .svcs, .pair,
   .basins, .power]

abbrev effectParts19 : List Part :=
  [.pcie, .regs, .dmas, .pair, .change, .doms, .logNew, .seqs, .chans, .hold3, .hold2, .pwms, .mem, .dataIn,
   .svcs, .basins, .power, .adcs, .settle, .trkLatch, .feeds, .ioes, .trips, .cmps, .gio]

abbrev effectParts20 : List Part :=
  [.regs, .pcie, .seqs, .change, .chans, .mem, .dataIn, .armAt, .doms, .svcs, .logNew, .hold3, .hold2, .pwms,
   .pair, .basins, .power]

abbrev effectParts21 : List Part :=
  [.regs, .change, .doms, .logNew, .seqs, .chans, .hold3, .hold2, .pwms, .mem, .dataIn, .svcs, .pair, .basins,
   .power, .pcie]

abbrev effectParts22 : List Part :=
  [.tnow, .wsNs, .regs, .seqs, .mem, .logNew, .change, .chans, .dataIn]

abbrev effectParts23 : List Part :=
  [.tnow, .wsNs, .regs, .mapm, .seqs, .logNew, .change, .chans, .mem, .dataIn]

abbrev effectParts24 : List Part :=
  [.tnow, .wsNs, .regs, .logNew, .seqs, .change, .chans, .mem, .dataIn, .progErr]

abbrev effectParts25 : List Part :=
  [.tnow, .wsNs, .regs, .logNew, .seqs, .change, .chans, .mem, .dataIn]

abbrev effectParts26 : List Part :=
  [.power, .tnow, .wsNs, .regs, .mem, .progErr, .resp, .latched, .heldLow, .logNew, .lostOwed, .armAt, .doms,
   .seqs, .mapm, .dataIn, .chans, .svcs, .change, .adcs, .settle, .basins, .trkLatch, .feeds, .weightSwap, .hold3,
   .hold2, .cmps, .trips, .pwms, .auxOff, .clkStopAt, .ioes, .gio, .dmas, .pcie, .mspi, .den, .pair]

abbrev effectParts27 : List Part :=
  [.pwms, .regs, .change, .doms, .logNew, .seqs, .chans, .hold3, .hold2, .mem, .dataIn, .svcs, .pair, .basins,
   .power]

abbrev effectParts28 : List Part :=
  [.power, .seqs, .pwms, .regs, .logNew, .den, .pair, .chans, .change, .doms, .hold3, .hold2, .mem, .dataIn,
   .svcs, .basins]

abbrev effectParts29 : List Part :=
  [.doms, .regs, .power, .seqs, .change, .chans, .mem, .dataIn, .svcs, .logNew, .pair, .hold3, .hold2, .basins,
   .pwms]

abbrev effectParts30 : List Part :=
  [.doms, .regs, .seqs, .change, .chans, .mem, .dataIn, .svcs, .logNew, .pair, .hold3, .hold2, .basins, .pwms,
   .power]

abbrev effectParts31 : List Part :=
  [.regs, .doms, .seqs, .change, .chans, .mem, .dataIn, .svcs, .logNew, .pair, .hold3, .hold2, .basins, .pwms,
   .power]

abbrev effectParts32 : List Part :=
  [.regs, .doms, .weightSwap, .change, .pair, .logNew, .seqs, .chans, .hold3, .hold2, .pwms, .mem, .dataIn, .svcs,
   .basins, .power]

/-! ### SeqOps.lean -/


/-! ### Converters.lean -/

theorem execAdcConversion_reach {s s' : State} (k : Fin 24) (code : BitVec 16) (instant : Nat)
    (h : execAdcConversion k code instant s = .next s') : Reach (concludedParts ++ [.adcs, .regs, .basins]) s s' := by
  refine runPer_reach (V := [.adcs, .regs, .basins]) ?_ h
  refine Reach.step (State.adcConvert_reach ..) rfl ?_
  exact .refl

theorem execAdcCfgWrite_reach {s s' : State} (src : Src) (k : Fin 24) (v : Word)
    (h : execAdcCfgWrite src k v s = .next s') : Reach (concludedParts ++ hostParts) s s' := by
  refine runPer_reach (V := hostParts) ?_ h
  refine Reach.step (State.hostStore_reach ..) rfl ?_
  exact .refl

theorem execAdcCommit_reach {s s' : State} (src : Src) (k : Fin 24)
    (h : execAdcCommit src k s = .next s') : Reach (concludedParts ++ hostParts) s s' := by
  refine runPer_reach (V := hostParts) ?_ h
  refine Reach.step (State.hostStore_reach ..) rfl ?_
  exact .refl

theorem execAdcCal_reach {s s' : State} (src : Src) (k : Fin 24)
    (h : execAdcCal src k s = .next s') : Reach (concludedParts ++ hostParts) s s' := by
  refine runPer_reach (V := hostParts) ?_ h
  refine Reach.step (State.hostStore_reach ..) rfl ?_
  exact .refl

theorem execAdcFltReset_reach {s s' : State} (src : Src) (k : Fin 24)
    (h : execAdcFltReset src k s = .next s') : Reach (concludedParts ++ hostParts) s s' := by
  refine runPer_reach (V := hostParts) ?_ h
  refine Reach.step (State.hostStore_reach ..) rfl ?_
  exact .refl

theorem execAdcCalDone_reach {s s' : State} (p : Fin 12) (skew : Option (BitVec 16))
    (h : execAdcCalDone p skew s = .next s') : Reach (concludedParts ++ [.regs]) s s' := by
  refine runPer_reach (V := [.regs]) ?_ h
  refine Reach.step (State.calDone_reach ..) rfl ?_
  exact .refl

theorem execAinCfgWrite_reach {s s' : State} (src : Src) (a : Fin 48) (v : Word)
    (h : execAinCfgWrite src a v s = .next s') : Reach (concludedParts ++ hostParts) s s' := by
  refine runPer_reach (V := hostParts) ?_ h
  refine Reach.step (State.hostStore_reach ..) rfl ?_
  exact .refl

theorem execBasCfgWrite_reach {s s' : State} (src : Src) (k : Fin 512) (v : Word)
    (h : execBasCfgWrite src k v s = .next s') : Reach (concludedParts ++ hostParts) s s' := by
  refine runPer_reach (V := hostParts) ?_ h
  refine Reach.step (State.hostStore_reach ..) rfl ?_
  exact .refl

theorem execBasOpen_reach {s s' : State} (src : Src) (k : Fin 512)
    (h : execBasOpen src k s = .next s') : Reach (concludedParts ++ hostParts) s s' := by
  refine runPer_reach (V := hostParts) ?_ h
  refine Reach.step (State.hostStore_reach ..) rfl ?_
  exact .refl

theorem execBasClose_reach {s s' : State} (src : Src) (k : Fin 512)
    (h : execBasClose src k s = .next s') : Reach (concludedParts ++ hostParts) s s' := by
  refine runPer_reach (V := hostParts) ?_ h
  refine Reach.step (State.hostStore_reach ..) rfl ?_
  exact .refl

theorem execBasCloseOpen_reach {s s' : State} (src : Src) (k : Fin 512)
    (h : execBasCloseOpen src k s = .next s') : Reach (concludedParts ++ hostParts) s s' := by
  refine runPer_reach (V := hostParts) ?_ h
  refine Reach.step (State.hostStore_reach ..) rfl ?_
  exact .refl

theorem execBasinLatch_reach {s s' : State} (k : Fin 512)
    (h : execBasinLatch k s = .next s') : Reach (concludedParts ++ effectParts2) s s' := by
  refine runEv_reach (V := effectParts2) ?_ h
  refine Reach.step (State.dmaPump_reach ..) rfl ?_
  refine Reach.step (State.basinLatch_reach ..) rfl ?_
  exact .refl

theorem execBasValueRead_reach {s s' : State} (src : Src) (k : Fin 512)
    (h : execBasValueRead src k s = .next s') : Reach (concludedParts ++ hostParts) s s' := by
  refine runPer_reach (V := hostParts) ?_ h
  refine Reach.step (State.hostLoad_reach ..) rfl ?_
  exact .refl

theorem execBasTagRead_reach {s s' : State} (src : Src) (k : Fin 512)
    (h : execBasTagRead src k s = .next s') : Reach (concludedParts ++ hostParts) s s' := by
  refine runPer_reach (V := hostParts) ?_ h
  refine Reach.step (State.hostLoad_reach ..) rfl ?_
  exact .refl

theorem execReadInProgressTimeout_reach {s s' : State} (src : Src) (k : Fin 512)
    (h : execReadInProgressTimeout src k s = .next s') : Reach (concludedParts ++ [.basins]) s s' := by
  refine runPer_reach (V := [.basins]) ?_ h
  refine Reach.step (State.readTimeout_reach ..) rfl ?_
  exact .refl

theorem execTrkMaxRead_reach {s s' : State} (src : Src) (k : Fin 128)
    (h : execTrkMaxRead src k s = .next s') : Reach (concludedParts ++ hostParts) s s' := by
  refine runPer_reach (V := hostParts) ?_ h
  refine Reach.step (State.hostLoad_reach ..) rfl ?_
  exact .refl

theorem execFeedDataRead_reach {s s' : State} (src : Src) (f : Fin 4) (high : Bool)
    (h : execFeedDataRead src f high s = .next s') : Reach (concludedParts ++ hostParts) s s' := by
  refine runPer_reach (V := hostParts) ?_ h
  refine Reach.step (State.hostLoad_reach ..) rfl ?_
  exact .refl

theorem execWtSwap_reach {s s' : State} (src : Src) (d : Fin 4)
    (h : execWtSwap src d s = .next s') : Reach (concludedParts ++ hostParts) s s' := by
  refine runPer_reach (V := hostParts) ?_ h
  refine Reach.step (State.hostStore_reach ..) rfl ?_
  exact .refl

theorem execWeightWrite_reach {s s' : State} (src : Src) (d : Fin 4) (b : Fin 2) (i : Fin 4096) (v : Word)
    (h : execWeightWrite src d b i v s = .next s') : Reach (concludedParts ++ hostParts) s s' := by
  refine runPer_reach (V := hostParts) ?_ h
  refine Reach.step (State.hostMem_reach ..) rfl ?_
  exact .refl

theorem execSettlingEnd_reach {s s' : State} (d : Fin 4)
    (h : execSettlingEnd d s = .next s') : Reach (concludedParts ++ [.regs]) s s' := by
  refine runPer_reach (V := [.regs]) ?_ h
  refine Reach.step (State.settleEnd_reach ..) rfl ?_
  exact .refl


/-! ### Engines.lean -/

theorem execIoeCtrlWrite_reach {s s' : State} (src : Src) (e : Fin 16) (v : Word)
    (h : execIoeCtrlWrite src e v s = .next s') : Reach (concludedParts ++ hostParts) s s' := by
  refine runPer_reach (V := hostParts) ?_ h
  refine Reach.step (State.hostStore_reach ..) rfl ?_
  exact .refl

theorem execIoeReset_reach {s s' : State} (src : Src) (e : Fin 16)
    (h : execIoeReset src e s = .next s') : Reach (concludedParts ++ hostParts) s s' := by
  refine runPer_reach (V := hostParts) ?_ h
  refine Reach.step (State.hostStore_reach ..) rfl ?_
  exact .refl

theorem execIoeInject_reach {s s' : State} (src : Src) (e : Fin 16) (v : Word)
    (h : execIoeInject src e v s = .next s') : Reach (concludedParts ++ hostParts) s s' := by
  refine runPer_reach (V := hostParts) ?_ h
  refine Reach.step (State.hostStore_reach ..) rfl ?_
  exact .refl

theorem execIoeGroupStart_reach {s s' : State} (src : Src) (grp : Fin 8)
    (h : execIoeGroupStart src grp s = .next s') : Reach (concludedParts ++ hostParts) s s' := by
  refine runPer_reach (V := hostParts) ?_ h
  refine Reach.step (State.hostStore_reach ..) rfl ?_
  exact .refl

theorem execIoeGroupRephase_reach {s s' : State} (src : Src) (grp : Fin 8)
    (h : execIoeGroupRephase src grp s = .next s') : Reach (concludedParts ++ hostParts) s s' := by
  refine runPer_reach (V := hostParts) ?_ h
  refine Reach.step (State.hostStore_reach ..) rfl ?_
  exact .refl

theorem execIoeQoutRead_reach {s s' : State} (src : Src) (e : Fin 16)
    (h : execIoeQoutRead src e s = .next s') : Reach (concludedParts ++ hostParts) s s' := by
  refine runPer_reach (V := hostParts) ?_ h
  refine Reach.step (State.hostLoad_reach ..) rfl ?_
  exact .refl

theorem execIoeQinWrite_reach {s s' : State} (src : Src) (e : Fin 16) (v : Word)
    (h : execIoeQinWrite src e v s = .next s') : Reach (concludedParts ++ hostParts) s s' := by
  refine runPer_reach (V := hostParts) ?_ h
  refine Reach.step (State.hostStore_reach ..) rfl ?_
  exact .refl

theorem execIoeFlagsClear_reach {s s' : State} (src : Src) (e : Fin 16) (mask : BitVec 8)
    (h : execIoeFlagsClear src e mask s = .next s') : Reach (concludedParts ++ hostParts) s s' := by
  refine runPer_reach (V := hostParts) ?_ h
  refine Reach.step (State.hostStore_reach ..) rfl ?_
  exact .refl

theorem execIoeFlagsSet_reach {s s' : State} (src : Src) (e : Fin 16) (mask : BitVec 8)
    (h : execIoeFlagsSet src e mask s = .next s') : Reach (concludedParts ++ hostParts) s s' := by
  refine runPer_reach (V := hostParts) ?_ h
  refine Reach.step (State.hostStore_reach ..) rfl ?_
  exact .refl

theorem execGioCfgWrite_reach {s s' : State} (src : Src) (p : Fin 32) (v : Word)
    (h : execGioCfgWrite src p v s = .next s') : Reach (concludedParts ++ hostParts) s s' := by
  refine runPer_reach (V := hostParts) ?_ h
  refine Reach.step (State.hostStore_reach ..) rfl ?_
  exact .refl

theorem execImemWrite_reach {s s' : State} (src : Src) (e : Fin 16) (i : Fin 64) (v : Word)
    (h : execImemWrite src e i v s = .next s') : Reach (concludedParts ++ hostParts) s s' := by
  refine runPer_reach (V := hostParts) ?_ h
  refine Reach.step (State.hostMem_reach ..) rfl ?_
  exact .refl

theorem execGioEdge_reach {s s' : State} (p : Fin 32) (level : Bool) (stamp : Nat)
    (h : execGioEdge p level stamp s = .next s') : Reach (concludedParts ++ [.regs, .ioes]) s s' := by
  refine runPer_reach (V := [.regs, .ioes]) ?_ h
  refine Reach.step (State.gioEdge_reach ..) rfl ?_
  exact .refl

theorem execIoeStepWake_reach {s s' : State} (e : Fin 16)
    (h : execIoeStepWake e s = .next s') : Reach (concludedParts ++ [.ioes, .regs]) s s' := by
  refine runPer_reach (V := [.ioes, .regs]) ?_ h
  refine Reach.step (State.stepWake_reach ..) rfl ?_
  exact .refl

theorem execIoeTimedAction_reach {s s' : State} (e : Fin 16)
    (h : execIoeTimedAction e s = .next s') : Reach (concludedParts ++ [.gio, .regs, .ioes]) s s' := by
  refine runPer_reach (V := [.gio, .regs, .ioes]) ?_ h
  refine Reach.step (State.timedAction_reach ..) rfl ?_
  exact .refl

theorem execIoeJmp_reach {s s' : State} (e : Fin 16)
    (h : execIoeJmp e s = .next s') : Reach (concludedParts ++ [.regs, .ioes]) s s' := by
  refine runPer_reach (V := [.regs, .ioes]) ?_ h
  refine Reach.step (State.ioeRun_reach [.regs] _ _ _ _ (fun t1 _ => ?_)) rfl ?_
  · refine Reach.step (State.jmpBody_reach ..) rfl ?_
    exact .refl
  · first | assumption | exact .refl

theorem execIoeWaitp_reach {s s' : State} (e : Fin 16)
    (h : execIoeWaitp e s = .next s') : Reach (concludedParts ++ [.regs, .ioes]) s s' := by
  refine runPer_reach (V := [.regs, .ioes]) ?_ h
  refine Reach.step (State.ioeRun_reach [.regs, .ioes] _ _ _ _ (fun t1 _ => ?_)) rfl ?_
  · refine Reach.step (State.waitpBody_reach ..) rfl ?_
    exact .refl
  · first | assumption | exact .refl

theorem execIoeWaitf_reach {s s' : State} (e : Fin 16)
    (h : execIoeWaitf e s = .next s') : Reach (concludedParts ++ [.regs, .ioes]) s s' := by
  refine runPer_reach (V := [.regs, .ioes]) ?_ h
  refine Reach.step (State.ioeRun_reach [.ioes, .regs] _ _ _ _ (fun t1 _ => ?_)) rfl ?_
  · refine Reach.step (State.waitBody_reach ..) rfl ?_
    exact .refl
  · first | assumption | exact .refl

theorem execIoeWaiti_reach {s s' : State} (e : Fin 16)
    (h : execIoeWaiti e s = .next s') : Reach (concludedParts ++ [.regs, .ioes]) s s' := by
  refine runPer_reach (V := [.regs, .ioes]) ?_ h
  refine Reach.step (State.ioeRun_reach [.ioes, .regs] _ _ _ _ (fun t1 _ => ?_)) rfl ?_
  · refine Reach.step (State.waitBody_reach ..) rfl ?_
    exact .refl
  · first | assumption | exact .refl

theorem execIoeWaitt_reach {s s' : State} (e : Fin 16)
    (h : execIoeWaitt e s = .next s') : Reach (concludedParts ++ [.regs, .ioes]) s s' := by
  refine runPer_reach (V := [.regs, .ioes]) ?_ h
  refine Reach.step (State.ioeRun_reach [.ioes, .regs] _ _ _ _ (fun t1 _ => ?_)) rfl ?_
  · refine Reach.step (State.waitBody_reach ..) rfl ?_
    exact .refl
  · first | assumption | exact .refl

theorem execIoePin_reach {s s' : State} (e : Fin 16)
    (h : execIoePin e s = .next s') : Reach (concludedParts ++ [.regs, .ioes, .gio]) s s' := by
  refine runPer_reach (V := [.regs, .ioes, .gio]) ?_ h
  refine Reach.step (State.ioeRun_reach [.regs, .gio, .ioes] _ _ _ _ (fun t1 _ => ?_)) rfl ?_
  · refine Reach.step (State.pinBody_reach ..) rfl ?_
    exact .refl
  · first | assumption | exact .refl

theorem execIoeShin_reach {s s' : State} (e : Fin 16)
    (h : execIoeShin e s = .next s') : Reach (concludedParts ++ [.regs, .ioes]) s s' := by
  refine runPer_reach (V := [.regs, .ioes]) ?_ h
  refine Reach.step (State.ioeRun_reach [.regs] _ _ _ _ (fun t1 _ => ?_)) rfl ?_
  · refine Reach.step (State.shinBody_reach ..) rfl ?_
    exact .refl
  · first | assumption | exact .refl

theorem execIoeShout_reach {s s' : State} (e : Fin 16)
    (h : execIoeShout e s = .next s') : Reach (concludedParts ++ [.regs, .ioes, .gio]) s s' := by
  refine runPer_reach (V := [.regs, .ioes, .gio]) ?_ h
  refine Reach.step (State.ioeRun_reach [.regs, .gio, .ioes] _ _ _ _ (fun t1 _ => ?_)) rfl ?_
  · refine Reach.step (State.pinBody_reach ..) rfl ?_
    exact .refl
  · first | assumption | exact .refl

theorem execIoeMov_reach {s s' : State} (e : Fin 16)
    (h : execIoeMov e s = .next s') : Reach (concludedParts ++ [.regs, .ioes]) s s' := by
  refine runPer_reach (V := [.regs, .ioes]) ?_ h
  refine Reach.step (State.ioeRun_reach [.regs] _ _ _ _ (fun t1 _ => ?_)) rfl ?_
  · refine Reach.step (State.ioeMovBody_reach ..) rfl ?_
    exact .refl
  · first | assumption | exact .refl

theorem execIoeAdd_reach {s s' : State} (e : Fin 16)
    (h : execIoeAdd e s = .next s') : Reach (concludedParts ++ [.regs, .ioes]) s s' := by
  refine runPer_reach (V := [.regs, .ioes]) ?_ h
  refine Reach.step (State.ioeRun_reach [.regs] _ _ _ _ (fun t1 _ => ?_)) rfl ?_
  · refine Reach.step (State.ioeArith_reach ..) rfl ?_
    exact .refl
  · first | assumption | exact .refl

theorem execIoeSub_reach {s s' : State} (e : Fin 16)
    (h : execIoeSub e s = .next s') : Reach (concludedParts ++ [.regs, .ioes]) s s' := by
  refine runPer_reach (V := [.regs, .ioes]) ?_ h
  refine Reach.step (State.ioeRun_reach [.regs] _ _ _ _ (fun t1 _ => ?_)) rfl ?_
  · refine Reach.step (State.ioeArith_reach ..) rfl ?_
    exact .refl
  · first | assumption | exact .refl

theorem execMeas_reach {s s' : State} (e : Fin 16)
    (h : execMeas e s = .next s') : Reach (concludedParts ++ [.regs, .ioes]) s s' := by
  refine runPer_reach (V := [.regs, .ioes]) ?_ h
  refine Reach.step (State.ioeRun_reach [.ioes, .regs] _ _ _ _ (fun t1 _ => ?_)) rfl ?_
  · refine Reach.step (State.measBody_reach ..) rfl ?_
    exact .refl
  · first | assumption | exact .refl

theorem execSetu_reach {s s' : State} (e : Fin 16)
    (h : execSetu e s = .next s') : Reach (concludedParts ++ [.regs, .ioes]) s s' := by
  refine runPer_reach (V := [.regs, .ioes]) ?_ h
  refine Reach.step (State.ioeRun_reach [.ioes, .regs] _ _ _ _ (fun t1 _ => ?_)) rfl ?_
  · refine Reach.step (State.setuBody_reach ..) rfl ?_
    exact .refl
  · first | assumption | exact .refl

theorem execCrc_reach {s s' : State} (e : Fin 16)
    (h : execCrc e s = .next s') : Reach (concludedParts ++ [.regs, .ioes]) s s' := by
  refine runPer_reach (V := [.regs, .ioes]) ?_ h
  refine Reach.step (State.ioeRun_reach [.regs] _ _ _ _ (fun t1 _ => ?_)) rfl ?_
  · refine Reach.step (State.crcBody_reach ..) rfl ?_
    exact .refl
  · first | assumption | exact .refl

theorem execPush_reach {s s' : State} (e : Fin 16)
    (h : execPush e s = .next s') : Reach (concludedParts ++ [.regs, .ioes]) s s' := by
  refine runPer_reach (V := [.regs, .ioes]) ?_ h
  refine Reach.step (State.ioeRun_reach [.ioes, .regs] _ _ _ _ (fun t1 _ => ?_)) rfl ?_
  · refine Reach.step (State.pushBody_reach ..) rfl ?_
    exact .refl
  · first | assumption | exact .refl

theorem execPull_reach {s s' : State} (e : Fin 16)
    (h : execPull e s = .next s') : Reach (concludedParts ++ [.regs, .ioes]) s s' := by
  refine runPer_reach (V := [.regs, .ioes]) ?_ h
  refine Reach.step (State.ioeRun_reach [.regs, .ioes] _ _ _ _ (fun t1 _ => ?_)) rfl ?_
  · refine Reach.step (State.pullBody_reach ..) rfl ?_
    exact .refl
  · first | assumption | exact .refl

theorem execPost_reach {s s' : State} (e : Fin 16)
    (h : execPost e s = .next s') : Reach (concludedParts ++ [.regs, .ioes, .dataIn, .mem]) s s' := by
  refine runPer_reach (V := [.regs, .ioes, .dataIn, .mem]) ?_ h
  refine Reach.step (State.ioeRun_reach [.regs, .dataIn, .mem] _ _ _ _ (fun t1 _ => ?_)) rfl ?_
  · refine Reach.step (State.postBody_reach ..) rfl ?_
    exact .refl
  · first | assumption | exact .refl

theorem execSetf_reach {s s' : State} (e : Fin 16)
    (h : execSetf e s = .next s') : Reach (concludedParts ++ [.regs, .ioes]) s s' := by
  refine runPer_reach (V := [.regs, .ioes]) ?_ h
  refine Reach.step (State.ioeRun_reach [.regs] _ _ _ _ (fun t1 _ => ?_)) rfl ?_
  · refine Reach.step (State.orFld_reach ..) rfl ?_
    exact .refl
  · first | assumption | exact .refl

theorem execIoeIrq_reach {s s' : State} (e : Fin 16)
    (h : execIoeIrq e s = .next s') : Reach (concludedParts ++ [.regs, .ioes]) s s' := by
  refine runPer_reach (V := [.regs, .ioes]) ?_ h
  refine Reach.step (State.ioeRun_reach [.regs] _ _ _ _ (fun t1 _ => ?_)) rfl ?_
  · refine Reach.step (State.raise_reach ..) rfl ?_
    exact .refl
  · first | assumption | exact .refl

theorem execIoeHalt_reach {s s' : State} (e : Fin 16)
    (h : execIoeHalt e s = .next s') : Reach (concludedParts ++ [.regs, .ioes]) s s' := by
  refine runPer_reach (V := [.regs, .ioes]) ?_ h
  refine Reach.step (State.ioeRun_reach [.regs, .ioes] _ _ _ _ (fun t1 _ => ?_)) rfl ?_
  · refine Reach.step (State.haltBody_reach ..) rfl ?_
    exact .refl
  · first | assumption | exact .refl

theorem execIoeIllegal_reach {s s' : State} (e : Fin 16)
    (h : execIoeIllegal e s = .next s') : Reach (concludedParts ++ [.ioes, .regs]) s s' := by
  refine runPer_reach (V := [.ioes, .regs]) ?_ h
  refine Reach.step (State.ioeIllegal_reach ..) rfl ?_
  exact .refl


/-! ### Generators.lean -/

theorem execCmpCrossing_reach {s s' : State} (k : Fin 32) (raw : Bool)
    (h : execCmpCrossing k raw s = .next s') : Reach (concludedParts ++ [.cmps]) s s' := by
  refine runPer_reach (V := [.cmps]) ?_ h
  refine Reach.step (State.cmpCross_reach ..) rfl ?_
  exact .refl

theorem execCmpFilterPass_reach {s s' : State} (k : Fin 32)
    (h : execCmpFilterPass k s = .next s') : Reach (concludedParts ++ [.cmps, .regs, .ioes, .trips]) s s' := by
  refine runPer_reach (V := [.cmps, .regs, .ioes, .trips]) ?_ h
  refine Reach.step (State.cmpFilter_reach ..) rfl ?_
  exact .refl

theorem execCmpDacWrite_reach {s s' : State} (src : Src) (k : Fin 32) (v : Word)
    (h : execCmpDacWrite src k v s = .next s') : Reach (concludedParts ++ hostParts) s s' := by
  refine runPer_reach (V := hostParts) ?_ h
  refine Reach.step (State.hostStore_reach ..) rfl ?_
  exact .refl

theorem execCmpHoldEnd_reach {s s' : State} (k : Fin 32)
    (h : execCmpHoldEnd k s = .next s') : Reach (concludedParts ++ [.cmps, .regs, .ioes, .trips]) s s' := by
  refine runPer_reach (V := [.cmps, .regs, .ioes, .trips]) ?_ h
  refine Reach.step (State.cmpHoldEnd_reach ..) rfl ?_
  exact .refl

theorem execPwmCtrlWrite_reach {s s' : State} (src : Src) (g : Fin 16) (v : Word)
    (h : execPwmCtrlWrite src g v s = .next s') : Reach (concludedParts ++ hostParts) s s' := by
  refine runPer_reach (V := hostParts) ?_ h
  refine Reach.step (State.hostStore_reach ..) rfl ?_
  exact .refl

theorem execPwmBoundary_reach {s s' : State} (g : Fin 16)
    (h : execPwmBoundary g s = .next s') : Reach (concludedParts ++ [.pwms, .regs]) s s' := by
  refine runPer_reach (V := [.pwms, .regs]) ?_ h
  refine Reach.step (State.pwmBoundary_reach ..) rfl ?_
  exact .refl

theorem execPwmMidLoad_reach {s s' : State} (g : Fin 16)
    (h : execPwmMidLoad g s = .next s') : Reach (concludedParts ++ [.pwms, .regs]) s s' := by
  refine runPer_reach (V := [.pwms, .regs]) ?_ h
  refine Reach.step (State.pwmMid_reach ..) rfl ?_
  exact .refl

theorem execPwmCompare_reach {s s' : State} (g : Fin 16)
    (h : execPwmCompare g s = .next s') : Reach (concludedParts ++ [.pwms, .regs]) s s' := by
  refine runPer_reach (V := [.pwms, .regs]) ?_ h
  refine Reach.step (State.pwmDrive_reach ..) rfl ?_
  exact .refl

theorem execDeadtimeExpiry_reach {s s' : State} (g : Fin 16) (_b : Bool)
    (h : execDeadtimeExpiry g _b s = .next s') : Reach (concludedParts ++ [.pwms, .regs]) s s' := by
  refine runPer_reach (V := [.pwms, .regs]) ?_ h
  refine Reach.step (State.pwmDrive_reach ..) rfl ?_
  exact .refl

theorem execPwmMarker_reach {s s' : State} (g : Fin 16) (second : Bool)
    (h : execPwmMarker g second s = .next s') : Reach (concludedParts ++ [.regs, .basins]) s s' := by
  refine runPer_reach (V := [.regs, .basins]) ?_ h
  refine Reach.step (State.pwmMarker_reach ..) rfl ?_
  exact .refl

theorem execPwmForceWrite_reach {s s' : State} (src : Src) (g : Fin 16) (v : Word)
    (h : execPwmForceWrite src g v s = .next s') : Reach (concludedParts ++ hostParts) s s' := by
  refine runPer_reach (V := hostParts) ?_ h
  refine Reach.step (State.hostStore_reach ..) rfl ?_
  exact .refl

theorem execPwmOutcfgWrite_reach {s s' : State} (src : Src) (g : Fin 16) (v : Word)
    (h : execPwmOutcfgWrite src g v s = .next s') : Reach (concludedParts ++ hostParts) s s' := by
  refine runPer_reach (V := hostParts) ?_ h
  refine Reach.step (State.hostStore_reach ..) rfl ?_
  exact .refl

theorem execPwmSyncRestart_reach {s s' : State} (src : Src) (mask : BitVec 16)
    (h : execPwmSyncRestart src mask s = .next s') : Reach (concludedParts ++ hostParts) s s' := by
  refine runPer_reach (V := hostParts) ?_ h
  refine Reach.step (State.hostStore_reach ..) rfl ?_
  exact .refl

theorem execTripPinChange_reach {s s' : State} (t : Fin 8) (level : Bool)
    (h : execTripPinChange t level s = .next s') : Reach (concludedParts ++ [.regs, .trips]) s s' := by
  refine runPer_reach (V := [.regs, .trips]) ?_ h
  refine Reach.step (State.tripPin_reach ..) rfl ?_
  exact .refl

theorem execTripFilterPass_reach {s s' : State} (t : Fin 8)
    (h : execTripFilterPass t s = .next s') : Reach (concludedParts ++ [.regs, .pwms]) s s' := by
  refine runPer_reach (V := [.regs, .pwms]) ?_ h
  refine Reach.step (State.tripPass_reach ..) rfl ?_
  exact .refl

theorem execTripSw_reach {s s' : State} (src : Src) (g : Fin 16)
    (h : execTripSw src g s = .next s') : Reach (concludedParts ++ hostParts) s s' := by
  refine runPer_reach (V := hostParts) ?_ h
  refine Reach.step (State.hostStore_reach ..) rfl ?_
  exact .refl

theorem execTripClr_reach {s s' : State} (src : Src) (g : Fin 16)
    (h : execTripClr src g s = .next s') : Reach (concludedParts ++ hostParts) s s' := by
  refine runPer_reach (V := hostParts) ?_ h
  refine Reach.step (State.hostStore_reach ..) rfl ?_
  exact .refl

theorem execAuxOvercurrent_reach {s s' : State} (a : Fin 32)
    (h : execAuxOvercurrent a s = .next s') : Reach (concludedParts ++ [.pwms, .regs]) s s' := by
  refine runPer_reach (V := [.pwms, .regs]) ?_ h
  refine Reach.step (State.auxOver_reach ..) rfl ?_
  exact .refl


/-! ### ModeCommands.lean -/

theorem execModeReqDormant_reach {s s' : State} (src : Src)
    (h : execModeReqDormant src s = .next s') : Reach (concludedParts ++ hostParts) s s' := by
  refine runPer_reach (V := hostParts) ?_ h
  refine Reach.step (State.hostStore_reach ..) rfl ?_
  exact .refl

theorem execModeReqStandby_reach {s s' : State} (src : Src)
    (h : execModeReqStandby src s = .next s') : Reach (concludedParts ++ hostParts) s s' := by
  refine runPer_reach (V := hostParts) ?_ h
  refine Reach.step (State.hostStore_reach ..) rfl ?_
  exact .refl

theorem execModeReqSeek_reach {s s' : State} (src : Src)
    (h : execModeReqSeek src s = .next s') : Reach (concludedParts ++ hostParts) s s' := by
  refine runPer_reach (V := hostParts) ?_ h
  refine Reach.step (State.hostStore_reach ..) rfl ?_
  exact .refl

theorem execModeReqRun_reach {s s' : State} (src : Src) (imm : Bool) (d : Fin 4)
    (h : execModeReqRun src imm d s = .next s') : Reach (concludedParts ++ hostParts) s s' := by
  refine runPer_reach (V := hostParts) ?_ h
  refine Reach.step (State.hostStore_reach ..) rfl ?_
  exact .refl

theorem execModeReqClearing_reach {s s' : State} (src : Src)
    (h : execModeReqClearing src s = .next s') : Reach (concludedParts ++ hostParts) s s' := by
  refine runPer_reach (V := hostParts) ?_ h
  refine Reach.step (State.hostStore_reach ..) rfl ?_
  exact .refl

theorem execAutoRun_reach {s s' : State}
    (h : execAutoRun s = .next s') : Reach (concludedParts ++ [.regs, .change, .pair, .seqs, .chans, .mem, .dataIn]) s s' := by
  refine runEv_reach (V := [.regs, .change, .pair, .seqs, .chans, .mem, .dataIn]) ?_ h
  refine Reach.step (State.autoRun_reach ..) rfl ?_
  exact .refl

theorem execAutoLimp_reach {s s' : State}
    (h : execAutoLimp s = .next s') : Reach (concludedParts ++ [.regs, .change, .pair, .seqs, .chans, .mem, .dataIn]) s s' := by
  refine runEv_reach (V := [.regs, .change, .pair, .seqs, .chans, .mem, .dataIn]) ?_ h
  refine Reach.step (State.autoLimp_reach ..) rfl ?_
  exact .refl

theorem execAutoLimpToRun_reach {s s' : State}
    (h : execAutoLimpToRun s = .next s') : Reach (concludedParts ++ [.regs, .change, .pair, .seqs, .chans, .mem, .dataIn]) s s' := by
  refine runEv_reach (V := [.regs, .change, .pair, .seqs, .chans, .mem, .dataIn]) ?_ h
  refine Reach.step (State.autoLimpRun_reach ..) rfl ?_
  exact .refl

theorem execModeEpoch_reach {s s' : State}
    (h : execModeEpoch s = .next s') : Reach (concludedParts ++ effectParts6) s s' := by
  refine runEv_reach (V := effectParts6) ?_ h
  refine Reach.step (State.modeEpoch_reach ..) rfl ?_
  exact .refl

theorem execModeTimeout_reach {s s' : State}
    (h : execModeTimeout s = .next s') : Reach (concludedParts ++ effectParts7) s s' := by
  refine runEv_reach (V := effectParts7) ?_ h
  refine Reach.step (State.modeTimeout_reach ..) rfl ?_
  exact .refl


/-! ### PairCommands.lean -/

theorem execPairStartDecide_reach {s s' : State} (peerLead : Bool) (peerDen : Bool)
    (h : execPairStartDecide peerLead peerDen s = .next s') : Reach (concludedParts ++ effectParts8) s s' := by
  refine runLive_reach (V := effectParts8) ?_ h
  refine Reach.step (State.startDecide_reach ..) rfl ?_
  exact .refl

theorem execLeadConflict_reach {s s' : State}
    (h : execLeadConflict s = .next s') : Reach (concludedParts ++ [.regs, .logNew, .chans, .pair]) s s' := by
  refine runLive_reach (V := [.regs, .logNew, .chans, .pair]) ?_ h
  refine Reach.step (State.leadConflict_reach ..) rfl ?_
  exact .refl

theorem execRmgrRefresh_reach {s s' : State}
    (h : execRmgrRefresh s = .next s') : Reach (concludedParts ++ effectParts9) s s' := by
  refine runPer_reach (V := effectParts9) ?_ h
  refine Reach.step (State.refresh_reach ..) rfl ?_
  exact .refl

theorem execDenStop_reach {s s' : State} (h : execDenStop s = .next s') : Reach (concludedParts ++ [.den]) s s' := by
  refine run_reach (V := [.den]) ?_ h
  refine Reach.step (State.denStop_reach ..) rfl ?_
  exact .refl

theorem execDenSilence_reach {s s' : State}
    (h : execDenSilence s = .next s') : Reach (concludedParts ++ effectParts10) s s' := by
  refine runLive_reach (V := effectParts10) ?_ h
  refine Reach.step (State.denSilence_reach ..) rfl ?_
  exact .refl

theorem execLeadForceOff_reach {s s' : State}
    (h : execLeadForceOff s = .next s') : Reach (concludedParts ++ [.pair]) s s' := by
  refine run_reach (V := [.pair]) ?_ h
  refine Reach.step (State.leadForce_reach ..) rfl ?_
  exact .refl

theorem execHeartbeatSend_reach {s s' : State}
    (h : execHeartbeatSend s = .next s') : Reach (concludedParts ++ [.pair]) s s' := by
  refine runPer_reach (V := [.pair]) ?_ h
  refine Reach.step (State.hbSend_reach ..) rfl ?_
  exact .refl

theorem execHeartbeat_reach {s s' : State} (flags : BitVec 8) (ack : BitVec 16) (state : BitVec 16)
    (h : execHeartbeat flags ack state s = .next s') : Reach (concludedParts ++ effectParts11) s s' := by
  refine runPer_reach (V := effectParts11) ?_ h
  refine Reach.step (State.heartbeat_reach ..) rfl ?_
  exact .refl

theorem execHeartbeatMiss_reach {s s' : State}
    (h : execHeartbeatMiss s = .next s') : Reach (concludedParts ++ [.pair, .regs]) s s' := by
  refine runPer_reach (V := [.pair, .regs]) ?_ h
  refine Reach.step (State.hbMiss_reach ..) rfl ?_
  exact .refl

theorem execDigest_reach {s s' : State} (bytes : List Byte)
    (h : execDigest bytes s = .next s') : Reach (concludedParts ++ [.regs, .pair]) s s' := by
  refine runPer_reach (V := [.regs, .pair]) ?_ h
  refine Reach.step (State.receiveDigest_reach ..) rfl ?_
  exact .refl

theorem execLinkFrameDiscard_reach {s s' : State}
    (h : execLinkFrameDiscard s = .next s') : Reach (concludedParts ++ [.pair, .regs]) s s' := by
  refine runPer_reach (V := [.pair, .regs]) ?_ h
  refine Reach.step (State.linkDiscard_reach ..) rfl ?_
  exact .refl

theorem execLinkDown_reach {s s' : State}
    (h : execLinkDown s = .next s') : Reach (concludedParts ++ [.regs, .pair]) s s' := by
  refine runPer_reach (V := [.regs, .pair]) ?_ h
  refine Reach.step (State.linkDown_reach ..) rfl ?_
  exact .refl

theorem execLinkRetry_reach {s s' : State}
    (h : execLinkRetry s = .next s') : Reach (concludedParts ++ [.regs, .pair]) s s' := by
  refine runPer_reach (V := [.regs, .pair]) ?_ h
  refine Reach.step (State.linkRetry_reach ..) rfl ?_
  exact .refl

theorem execModeFrame_reach {s s' : State} (seq : BitVec 16) (target : Fin 6) (cause : BitVec 8) (dom : Fin 4) (imm : Bool) (angle : Word)
    (h : execModeFrame seq target cause dom imm angle s = .next s') : Reach (concludedParts ++ effectParts12) s s' := by
  refine runPer_reach (V := effectParts12) ?_ h
  refine Reach.step (State.reliable_reach [.regs, .change, .doms, .logNew, .seqs, .chans, .hold3, .hold2, .pwms, .mem, .dataIn, .svcs, .pair, .basins, .power, .auxOff, .gio] _ _ _ (fun t1 => ?_)) rfl ?_
  · refine Reach.step (State.modeFrame_reach ..) rfl ?_
    exact .refl
  · first | assumption | exact .refl

theorem execTokenOffer_reach {s s' : State} (seq : BitVec 16)
    (h : execTokenOffer seq s = .next s') : Reach (concludedParts ++ [.pair]) s s' := by
  refine runPer_reach (V := [.pair]) ?_ h
  refine Reach.step (State.reliable_reach [.pair] _ _ _ (fun t1 => ?_)) rfl ?_
  · refine Reach.step (State.tokenOffer_reach ..) rfl ?_
    exact .refl
  · first | assumption | exact .refl

theorem execTokenAccept_reach {s s' : State} (seq : BitVec 16)
    (h : execTokenAccept seq s = .next s') : Reach (concludedParts ++ [.pair]) s s' := by
  refine runPer_reach (V := [.pair]) ?_ h
  refine Reach.step (State.reliable_reach [.pair] _ _ _ (fun t1 => ?_)) rfl ?_
  · refine Reach.step (State.tokenAccept_reach ..) rfl ?_
    exact .refl
  · first | assumption | exact .refl

theorem execTokenRefuse_reach {s s' : State} (seq : BitVec 16)
    (h : execTokenRefuse seq s = .next s') : Reach (concludedParts ++ [.pair, .regs]) s s' := by
  refine runPer_reach (V := [.pair, .regs]) ?_ h
  refine Reach.step (State.reliable_reach [.regs, .pair] _ _ _ (fun t1 => ?_)) rfl ?_
  · refine Reach.step (State.tokenRefuse_reach ..) rfl ?_
    exact .refl
  · first | assumption | exact .refl

theorem execTokenAbort_reach {s s' : State} (seq : BitVec 16)
    (h : execTokenAbort seq s = .next s') : Reach (concludedParts ++ [.pair]) s s' := by
  refine runPer_reach (V := [.pair]) ?_ h
  refine Reach.step (State.reliable_reach [.pair] _ _ _ (fun t1 => ?_)) rfl ?_
  · refine Reach.step (State.tokenAbort_reach ..) rfl ?_
    exact .refl
  · first | assumption | exact .refl

theorem execTokenReleased_reach {s s' : State} (seq : BitVec 16)
    (h : execTokenReleased seq s = .next s') : Reach (concludedParts ++ [.pair]) s s' := by
  refine runPer_reach (V := [.pair]) ?_ h
  refine Reach.step (State.reliable_reach [] _ _ _ (fun t1 => ?_)) rfl ?_
  · first | assumption | exact .refl
  · first | assumption | exact .refl

theorem execJoinReq_reach {s s' : State} (seq : BitVec 16)
    (h : execJoinReq seq s = .next s') : Reach (concludedParts ++ [.pair, .regs]) s s' := by
  refine runPer_reach (V := [.pair, .regs]) ?_ h
  refine Reach.step (State.reliable_reach [.pair, .regs] _ _ _ (fun t1 => ?_)) rfl ?_
  · refine Reach.step (State.joinAnswer_reach ..) rfl ?_
    exact .refl
  · first | assumption | exact .refl

theorem execJoinStart_reach {s s' : State} (seq : BitVec 16)
    (h : execJoinStart seq s = .next s') : Reach (concludedParts ++ [.pair, .regs]) s s' := by
  refine runPer_reach (V := [.pair, .regs]) ?_ h
  refine Reach.step (State.reliable_reach [.regs, .pair] _ _ _ (fun t1 => ?_)) rfl ?_
  · refine Reach.step (State.joinStart_reach ..) rfl ?_
    exact .refl
  · first | assumption | exact .refl

theorem execJoinEnd_reach {s s' : State} (seq : BitVec 16) (len : Nat) (crc : BitVec 32)
    (h : execJoinEnd seq len crc s = .next s') : Reach (concludedParts ++ effectParts13) s s' := by
  refine runPer_reach (V := effectParts13) ?_ h
  refine Reach.step (State.reliable_reach [.seqs, .regs, .change, .doms, .logNew, .chans, .hold3, .hold2, .pwms, .mem, .dataIn, .svcs, .pair, .basins, .power] _ _ _ (fun t1 => ?_)) rfl ?_
  · refine Reach.step (State.joinEnd_reach ..) rfl ?_
    exact .refl
  · first | assumption | exact .refl

theorem execJoinAbortFrame_reach {s s' : State} (seq : BitVec 16)
    (h : execJoinAbortFrame seq s = .next s') : Reach (concludedParts ++ [.pair, .regs]) s s' := by
  refine runPer_reach (V := [.pair, .regs]) ?_ h
  refine Reach.step (State.reliable_reach [.regs, .pair] _ _ _ (fun t1 => ?_)) rfl ?_
  · refine Reach.step (State.joinAborted_reach ..) rfl ?_
    exact .refl
  · first | assumption | exact .refl

theorem execBulk_reach {s s' : State} (seq : BitVec 16) (off : BitVec 24) (data : List Byte)
    (h : execBulk seq off data s = .next s') : Reach (concludedParts ++ effectParts14) s s' := by
  refine runPer_reach (V := effectParts14) ?_ h
  refine Reach.step (State.reliable_reach [.pair, .mspi, .regs, .adcs, .basins, .chans, .logNew, .change, .doms, .seqs, .hold3, .hold2, .pwms, .mem, .dataIn, .svcs, .power, .auxOff, .gio, .dmas, .settle, .ioes, .trips, .cmps, .progErr, .mapm, .lostOwed] _ _ _ (fun t1 => ?_)) rfl ?_
  · refine Reach.step (State.bulkIn_reach ..) rfl ?_
    exact .refl
  · first | assumption | exact .refl

theorem execWriteFrame_reach {s s' : State} (seq : BitVec 16) (source : BitVec 8) (be : BitVec 4) (off : BitVec 24) (v : Word)
    (h : execWriteFrame seq source be off v s = .next s') : Reach (concludedParts ++ effectParts15) s s' := by
  refine runPer_reach (V := effectParts15) ?_ h
  refine Reach.step (State.reliable_reach [.regs, .mspi, .latched, .seqs, .basins, .trkLatch, .feeds, .ioes, .dmas, .pcie, .pair, .logNew, .change, .doms, .chans, .hold3, .hold2, .pwms, .mem, .dataIn, .svcs, .power, .auxOff, .gio, .adcs, .settle, .trips, .cmps, .heldLow, .lostOwed, .progErr, .mapm] _ _ _ (fun t1 => ?_)) rfl ?_
  · refine Reach.step (State.writeFrame_reach ..) rfl ?_
    exact .refl
  · first | assumption | exact .refl

theorem execTakeover_reach {s s' : State} (cond : TakeCond)
    (h : execTakeover cond s = .next s') : Reach (concludedParts ++ [.regs, .seqs, .chans, .logNew, .pair]) s s' := by
  refine runLive_reach (V := [.regs, .seqs, .chans, .logNew, .pair]) ?_ h
  refine Reach.step (State.takeOver_reach ..) rfl ?_
  exact .refl

theorem execPairHandover_reach {s s' : State} (src : Src)
    (h : execPairHandover src s = .next s') : Reach (concludedParts ++ hostParts) s s' := by
  refine runPer_reach (V := hostParts) ?_ h
  refine Reach.step (State.hostStore_reach ..) rfl ?_
  exact .refl

theorem execPairJoinAbort_reach {s s' : State} (src : Src)
    (h : execPairJoinAbort src s = .next s') : Reach (concludedParts ++ hostParts) s s' := by
  refine runPer_reach (V := hostParts) ?_ h
  refine Reach.step (State.hostStore_reach ..) rfl ?_
  exact .refl

theorem execIdleInstant_reach {s s' : State}
    (h : execIdleInstant s = .next s') : Reach (concludedParts ++ [.pair, .regs, .logNew, .chans]) s s' := by
  refine runLive_reach (V := [.pair, .regs, .logNew, .chans]) ?_ h
  refine Reach.step (State.idleInstant_reach ..) rfl ?_
  exact .refl

theorem execIdleWaitExpiry_reach {s s' : State}
    (h : execIdleWaitExpiry s = .next s') : Reach (concludedParts ++ [.pair, .regs, .logNew, .chans]) s s' := by
  refine runLive_reach (V := [.pair, .regs, .logNew, .chans]) ?_ h
  refine Reach.step (State.idleExpiry_reach ..) rfl ?_
  exact .refl

theorem execPresentMake_reach {s s' : State}
    (h : execPresentMake s = .next s') : Reach (concludedParts ++ effectParts3) s s' := by
  refine run_reach (V := effectParts3) ?_ h
  refine Reach.step (State.presentPin_reach ..) rfl ?_
  exact .refl

theorem execPresentBreak_reach {s s' : State}
    (h : execPresentBreak s = .next s') : Reach (concludedParts ++ effectParts3) s s' := by
  refine run_reach (V := effectParts3) ?_ h
  refine Reach.step (State.presentPin_reach ..) rfl ?_
  exact .refl


/-! ### Platform.lean -/

theorem execIcuTgtWrite_reach {s s' : State} (src : Src) (k : Fin 384) (v : Word)
    (h : execIcuTgtWrite src k v s = .next s') : Reach (concludedParts ++ hostParts) s s' := by
  refine runPer_reach (V := hostParts) ?_ h
  refine Reach.step (State.hostStore_reach ..) rfl ?_
  exact .refl

theorem execIcuEoi_reach {s s' : State} (f : Fin 4) (vec : BitVec 6)
    (h : execIcuEoi f vec s = .next s') : Reach (concludedParts ++ effectParts4) s s' := by
  refine runPer_reach (V := effectParts4) ?_ h
  refine Reach.step (State.hostWrite_reach ..) rfl ?_
  exact .refl

theorem execMsixUnmask_reach {s s' : State} (f : Fin 4) (cond : SendCond)
    (h : execMsixUnmask f cond s = .next s') : Reach (concludedParts ++ [.pcie]) s s' := by
  refine runLive_reach (V := [.pcie]) ?_ h
  refine Reach.step (State.unmask_reach ..) rfl ?_
  exact .refl

theorem execIcuSwiSet_reach {s s' : State} (src : Src) (j : Fin 2) (mask : Word)
    (h : execIcuSwiSet src j mask s = .next s') : Reach (concludedParts ++ hostParts) s s' := by
  refine runPer_reach (V := hostParts) ?_ h
  refine Reach.step (State.hostStore_reach ..) rfl ?_
  exact .refl

theorem execRmgrSource_reach {s s' : State} (k : Fin 384)
    (h : execRmgrSource k s = .next s') : Reach (concludedParts ++ [.regs, .pair]) s s' := by
  refine runPer_reach (V := [.regs, .pair]) ?_ h
  refine Reach.step (State.rmgrSource_reach ..) rfl ?_
  exact .refl

theorem execDmaTail_reach {s s' : State} (src : Src) (c : Fin 16) (v : Word)
    (h : execDmaTail src c v s = .next s') : Reach (concludedParts ++ hostParts) s s' := by
  refine runPer_reach (V := hostParts) ?_ h
  refine Reach.step (State.hostStore_reach ..) rfl ?_
  exact .refl

theorem execDmaCfgWrite_reach {s s' : State} (src : Src) (c : Fin 16) (v : Word)
    (h : execDmaCfgWrite src c v s = .next s') : Reach (concludedParts ++ hostParts) s s' := by
  refine runPer_reach (V := hostParts) ?_ h
  refine Reach.step (State.hostStore_reach ..) rfl ?_
  exact .refl

theorem execDmaAbort_reach {s s' : State} (src : Src) (c : Fin 16)
    (h : execDmaAbort src c s = .next s') : Reach (concludedParts ++ hostParts) s s' := by
  refine runPer_reach (V := hostParts) ?_ h
  refine Reach.step (State.hostStore_reach ..) rfl ?_
  exact .refl

theorem execDmaSkip_reach {s s' : State} (src : Src) (c : Fin 16)
    (h : execDmaSkip src c s = .next s') : Reach (concludedParts ++ hostParts) s s' := by
  refine runPer_reach (V := hostParts) ?_ h
  refine Reach.step (State.hostStore_reach ..) rfl ?_
  exact .refl

theorem execDmaRdWrite_reach {s s' : State} (src : Src) (c : Fin 16) (v : Word)
    (h : execDmaRdWrite src c v s = .next s') : Reach (concludedParts ++ hostParts) s s' := by
  refine runPer_reach (V := hostParts) ?_ h
  refine Reach.step (State.hostStore_reach ..) rfl ?_
  exact .refl

theorem execDmaReadCompletion_reach {s s' : State} (c : Fin 16) (tag : Fin 32) (data : Option (List Byte))
    (h : execDmaReadCompletion c tag data s = .next s') : Reach (concludedParts ++ effectParts2) s s' := by
  refine runPer_reach (V := effectParts2) ?_ h
  refine Reach.step (State.dmaPump_reach ..) rfl ?_
  refine Reach.step (State.dmaCompletion_reach ..) rfl ?_
  exact .refl

theorem execDmaFeedTransfer_reach {s s' : State} (c : Fin 16)
    (h : execDmaFeedTransfer c s = .next s') : Reach (concludedParts ++ effectParts16) s s' := by
  refine runPer_reach (V := effectParts16) ?_ h
  refine Reach.step (State.feedTransfer_reach ..) rfl ?_
  exact .refl

theorem execCompletionTimeout_reach {s s' : State} (c : Fin 16)
    (h : execCompletionTimeout c s = .next s') : Reach (concludedParts ++ effectParts2) s s' := by
  refine runPer_reach (V := effectParts2) ?_ h
  refine Reach.step (State.dmaPump_reach ..) rfl ?_
  refine Reach.step (State.dmaTimeout_reach ..) rfl ?_
  exact .refl

theorem execRegisterWrite_reach {s s' : State} (src : Src) (space : Space) (off : BitVec 24) (be : BitVec 4) (d : WriteData)
    (h : execRegisterWrite src space off be d s = .next s') : Reach (concludedParts ++ hostParts) s s' := by
  refine runPer_reach (V := hostParts) ?_ h
  refine Reach.step (State.hostPut_reach ..) rfl ?_
  exact .refl

theorem execRcRead_reach {s s' : State} (src : Src) (space : Space) (off : BitVec 24) (be : List (BitVec 4))
    (h : execRcRead src space off be s = .next s') : Reach (concludedParts ++ hostParts) s s' := by
  refine runPer_reach (V := hostParts) ?_ h
  refine Reach.step (State.hostGet_reach ..) rfl ?_
  exact .refl

theorem execPairLowRead_reach {s s' : State} (src : Src) (space : Space) (off : BitVec 24) (be : List (BitVec 4))
    (h : execPairLowRead src space off be s = .next s') : Reach (concludedParts ++ hostParts) s s' := by
  refine runPer_reach (V := hostParts) ?_ h
  refine Reach.step (State.hostGet_reach ..) rfl ?_
  exact .refl

theorem execFenceWrite_reach {s s' : State} (src : Src) (token : BitVec 16)
    (h : execFenceWrite src token s = .next s') : Reach (concludedParts ++ effectParts4) s s' := by
  refine runPer_reach (V := effectParts4) ?_ h
  refine Reach.step (State.fenceCmd_reach ..) rfl ?_
  exact .refl

theorem execElogRdWrite_reach {s s' : State} (src : Src) (v : Word)
    (h : execElogRdWrite src v s = .next s') : Reach (concludedParts ++ hostParts) s s' := by
  refine runPer_reach (V := hostParts) ?_ h
  refine Reach.step (State.hostStore_reach ..) rfl ?_
  exact .refl

theorem execLostEntry_reach {s s' : State}
    (h : execLostEntry s = .next s') : Reach (concludedParts ++ [.regs, .lostOwed]) s s' := by
  refine runLive_reach (V := [.regs, .lostOwed]) ?_ h
  refine Reach.step (State.logLost_reach ..) rfl ?_
  exact .refl


/-! ### Ports.lean -/

theorem execMspiNop_reach {s s' : State} (h : execMspiNop s = .next s') : Reach (concludedParts ++ [.mspi]) s s' := by
  refine run_reach (V := [.mspi]) ?_ h
  refine Reach.step (State.mspiRun_reach [.mspi] _ _ _ (fun t1 => ?_)) rfl ?_
  · refine Reach.step (State.mspiNopFrame_reach ..) rfl ?_
    exact .refl
  · first | assumption | exact .refl

theorem execMspiRead_reach {s s' : State} (addr : BitVec 24)
    (h : execMspiRead addr s = .next s') : Reach (concludedParts ++ effectParts17) s s' := by
  refine run_reach (V := effectParts17) ?_ h
  refine Reach.step (State.mspiRun_reach [.mspi, .regs, .latched, .seqs, .basins, .trkLatch, .feeds, .ioes] _ _ _ (fun t1 => ?_)) rfl ?_
  · refine Reach.step (State.mspiReadFrame_reach ..) rfl ?_
    exact .refl
  · first | assumption | exact .refl

theorem execMspiWrite_reach {s s' : State} (addr : BitVec 24) (v : Word)
    (h : execMspiWrite addr v s = .next s') : Reach (concludedParts ++ effectParts2) s s' := by
  refine run_reach (V := effectParts2) ?_ h
  refine Reach.step (State.mspiRun_reach [.mspi, .regs, .latched, .seqs, .basins, .trkLatch, .feeds, .ioes, .dmas, .pcie, .pair, .logNew, .change, .doms, .chans, .hold3, .hold2, .pwms, .mem, .dataIn, .svcs, .power, .auxOff, .gio, .adcs, .settle, .trips, .cmps, .heldLow, .lostOwed, .progErr, .mapm] _ _ _ (fun t1 => ?_)) rfl ?_
  · refine Reach.step (State.mspiWriteFrame_reach ..) rfl ?_
    exact .refl
  · first | assumption | exact .refl

theorem execMspiClear_reach {s s' : State}
    (h : execMspiClear s = .next s') : Reach (concludedParts ++ effectParts18) s s' := by
  refine run_reach (V := effectParts18) ?_ h
  refine Reach.step (State.mspiRun_reach [.mspi, .regs, .change, .doms, .logNew, .seqs, .chans, .hold3, .hold2, .pwms, .mem, .dataIn, .svcs, .pair, .basins, .power] _ _ _ (fun t1 => ?_)) rfl ?_
  · refine Reach.step (State.mspiClearFrame_reach ..) rfl ?_
    exact .refl
  · first | assumption | exact .refl

theorem execMspiCmdError_reach {s s' : State} (cmd : BitVec 8) (addr : BitVec 24) (v : Word)
    (h : execMspiCmdError cmd addr v s = .next s') : Reach (concludedParts ++ [.mspi, .regs]) s s' := by
  refine run_reach (V := [.mspi, .regs]) ?_ h
  refine Reach.step (State.mspiRun_reach [.mspi, .regs] _ _ _ (fun t1 => ?_)) rfl ?_
  · refine Reach.step (State.mspiBadCmd_reach ..) rfl ?_
    exact .refl
  · first | assumption | exact .refl

theorem execMspiFrameDiscard_reach {s s' : State} (bits : Nat) (frame : BitVec 72) (early : Bool)
    (h : execMspiFrameDiscard bits frame early s = .next s') : Reach (concludedParts ++ [.mspi, .regs]) s s' := by
  refine run_reach (V := [.mspi, .regs]) ?_ h
  refine Reach.step (State.mspiDiscardFrame_reach ..) rfl ?_
  exact .refl

theorem execConventionalReset_reach {s s' : State} (cause : ConvReset)
    (h : execConventionalReset cause s = .next s') : Reach (concludedParts ++ effectParts2) s s' := by
  refine runLive_reach (V := effectParts2) ?_ h
  refine Reach.step (State.dmaPump_reach ..) rfl ?_
  refine Reach.step (State.conventional_reach ..) rfl ?_
  exact .refl

theorem execPerstDeassert_reach {s s' : State}
    (h : execPerstDeassert s = .next s') : Reach (concludedParts ++ [.regs, .pcie]) s s' := by
  refine runLive_reach (V := [.regs, .pcie]) ?_ h
  refine Reach.step (State.perstOff_reach ..) rfl ?_
  exact .refl

theorem execConfigRetryEnd_reach {s s' : State}
    (h : execConfigRetryEnd s = .next s') : Reach (concludedParts ++ [.pcie]) s s' := by
  refine runLive_reach (V := [.pcie]) ?_ h
  refine Reach.step (State.retryEnd_reach ..) rfl ?_
  exact .refl

theorem execLinkUp_reach {s s' : State} (speed : Fin 3) (width : Fin 2)
    (h : execLinkUp speed width s = .next s') : Reach (concludedParts ++ [.regs]) s s' := by
  refine runLive_reach (V := [.regs]) ?_ h
  refine Reach.step (State.linkTrained_reach ..) rfl ?_
  exact .refl

theorem execBusMasterEnableSet_reach {s s' : State}
    (h : execBusMasterEnableSet s = .next s') : Reach (concludedParts ++ effectParts2) s s' := by
  refine runLive_reach (V := effectParts2) ?_ h
  refine Reach.step (State.dmaPump_reach ..) rfl ?_
  refine Reach.step (State.unmask_reach ..) rfl ?_
  exact .refl

theorem execPowerStateChange_reach {s s' : State} (f : Fin 4) (d3 : Bool)
    (h : execPowerStateChange f d3 s = .next s') : Reach (concludedParts ++ effectParts2) s s' := by
  refine runLive_reach (V := effectParts2) ?_ h
  refine Reach.step (State.dmaPump_reach ..) rfl ?_
  refine Reach.step (State.modFn_reach ..) rfl ?_
  exact .refl

theorem execFlr_reach {s s' : State} (f : Fin 4)
    (h : execFlr f s = .next s') : Reach (concludedParts ++ effectParts19) s s' := by
  refine runPer_reach (V := effectParts19) ?_ h
  refine Reach.step (State.flr_reach ..) rfl ?_
  exact .refl

theorem execF1BlockReset_reach {s s' : State}
    (h : execF1BlockReset s = .next s') : Reach (concludedParts ++ effectParts20) s s' := by
  refine runPer_reach (V := effectParts20) ?_ h
  refine Reach.step (State.f1BlockReset_reach ..) rfl ?_
  exact .refl

theorem execFlrHandoverFallback_reach {s s' : State}
    (h : execFlrHandoverFallback s = .next s') : Reach (concludedParts ++ effectParts21) s s' := by
  refine runPer_reach (V := effectParts21) ?_ h
  refine Reach.step (State.hoFallback_reach ..) rfl ?_
  exact .refl

theorem execPcieForeignAccess_reach {s s' : State} (f : Fin 4) (off : BitVec 24) (wr : Bool)
    (h : execPcieForeignAccess f off wr s = .next s') : Reach (concludedParts ++ [.regs, .pcie, .resp]) s s' := by
  refine runPer_reach (V := [.regs, .pcie, .resp]) ?_ h
  refine Reach.step (State.foreignAccess_reach ..) rfl ?_
  exact .refl


/-! ### Programs.lean -/

theorem execSeqStart_reach {s s' : State} (src : Src) (n : Fin 24)
    (h : execSeqStart src n s = .next s') : Reach (concludedParts ++ hostParts) s s' := by
  refine runPer_reach (V := hostParts) ?_ h
  refine Reach.step (State.hostStore_reach ..) rfl ?_
  exact .refl

theorem execSeqReset_reach {s s' : State} (src : Src) (n : Fin 24)
    (h : execSeqReset src n s = .next s') : Reach (concludedParts ++ hostParts) s s' := by
  refine runPer_reach (V := hostParts) ?_ h
  refine Reach.step (State.hostStore_reach ..) rfl ?_
  exact .refl

theorem execSeqSwapReq_reach {s s' : State} (src : Src) (n : Fin 24)
    (h : execSeqSwapReq src n s = .next s') : Reach (concludedParts ++ hostParts) s s' := by
  refine runPer_reach (V := hostParts) ?_ h
  refine Reach.step (State.hostStore_reach ..) rfl ?_
  exact .refl

theorem execSeqFlagsClear_reach {s s' : State} (src : Src) (n : Fin 24) (mask : BitVec 16)
    (h : execSeqFlagsClear src n mask s = .next s') : Reach (concludedParts ++ hostParts) s s' := by
  refine runPer_reach (V := hostParts) ?_ h
  refine Reach.step (State.hostStore_reach ..) rfl ?_
  exact .refl

theorem execSeqFlagsSet_reach {s s' : State} (src : Src) (n : Fin 24) (mask : BitVec 16)
    (h : execSeqFlagsSet src n mask s = .next s') : Reach (concludedParts ++ hostParts) s s' := by
  refine runPer_reach (V := hostParts) ?_ h
  refine Reach.step (State.hostStore_reach ..) rfl ?_
  exact .refl

theorem execProgramBankWrite_reach {s s' : State} (src : Src) (n : Fin 24) (b : Fin 2) (i : Fin 2048) (v : Word)
    (h : execProgramBankWrite src n b i v s = .next s') : Reach (concludedParts ++ hostParts) s s' := by
  refine runPer_reach (V := hostParts) ?_ h
  refine Reach.step (State.hostMem_reach ..) rfl ?_
  exact .refl

theorem execDataMemoryWrite_reach {s s' : State} (src : Src) (n : Fin 24) (i : Fin 1024) (v : Word)
    (h : execDataMemoryWrite src n i v s = .next s') : Reach (concludedParts ++ hostParts) s s' := by
  refine runPer_reach (V := hostParts) ?_ h
  refine Reach.step (State.hostMem_reach ..) rfl ?_
  exact .refl

theorem execMapmWrite_reach {s s' : State} (src : Src) (a : Fin 65536) (be : BitVec 4) (v : Word)
    (h : execMapmWrite src a be v s = .next s') : Reach (concludedParts ++ hostParts) s s' := by
  refine runPer_reach (V := hostParts) ?_ h
  refine Reach.step (State.hostMem_reach ..) rfl ?_
  exact .refl

theorem execSvcCfgWrite_reach {s s' : State} (src : Src) (k : Fin 64) (v : Word)
    (h : execSvcCfgWrite src k v s = .next s') : Reach (concludedParts ++ hostParts) s s' := by
  refine runPer_reach (V := hostParts) ?_ h
  refine Reach.step (State.hostStore_reach ..) rfl ?_
  exact .refl

theorem execSvcTargetWrite_reach {s s' : State} (src : Src) (k : Fin 64) (v : Word)
    (h : execSvcTargetWrite src k v s = .next s') : Reach (concludedParts ++ hostParts) s s' := by
  refine runPer_reach (V := hostParts) ?_ h
  refine Reach.step (State.hostStore_reach ..) rfl ?_
  exact .refl

theorem execOutOwnerWrite_reach {s s' : State} (src : Src) (ch : Fin 96) (v : Word)
    (h : execOutOwnerWrite src ch v s = .next s') : Reach (concludedParts ++ hostParts) s s' := by
  refine runPer_reach (V := hostParts) ?_ h
  refine Reach.step (State.hostStore_reach ..) rfl ?_
  exact .refl

theorem execCompleteCapExpiry_reach {s s' : State} (ch : Fin 96)
    (h : execCompleteCapExpiry ch s = .next s') : Reach (concludedParts ++ [.seqs, .chans, .regs]) s s' := by
  refine runEv_reach (V := [.seqs, .chans, .regs]) ?_ h
  refine Reach.step (State.capExpiry_reach ..) rfl ?_
  exact .refl


/-! ### Sequencers.lean -/

theorem execAdd_reach {s s' : State} (n : Fin 24)
    (h : execAdd n s = .next s') : Reach (concludedParts ++ [.tnow, .wsNs, .regs, .seqs]) s s' := by
  refine runLive_reach (V := [.tnow, .wsNs, .regs, .seqs]) ?_ h
  refine Reach.step (State.phiad_reach [.seqs] _ _ _ _ (fun t1 _ => ?_)) rfl ?_
  · refine Reach.step (State.alu_reach ..) rfl ?_
    exact .refl
  · first | assumption | exact .refl

theorem execSub_reach {s s' : State} (n : Fin 24)
    (h : execSub n s = .next s') : Reach (concludedParts ++ [.tnow, .wsNs, .regs, .seqs]) s s' := by
  refine runLive_reach (V := [.tnow, .wsNs, .regs, .seqs]) ?_ h
  refine Reach.step (State.phiad_reach [.seqs] _ _ _ _ (fun t1 _ => ?_)) rfl ?_
  · refine Reach.step (State.alu_reach ..) rfl ?_
    exact .refl
  · first | assumption | exact .refl

theorem execAnd_reach {s s' : State} (n : Fin 24)
    (h : execAnd n s = .next s') : Reach (concludedParts ++ [.tnow, .wsNs, .regs, .seqs]) s s' := by
  refine runLive_reach (V := [.tnow, .wsNs, .regs, .seqs]) ?_ h
  refine Reach.step (State.phiad_reach [.seqs] _ _ _ _ (fun t1 _ => ?_)) rfl ?_
  · refine Reach.step (State.alu_reach ..) rfl ?_
    exact .refl
  · first | assumption | exact .refl

theorem execOr_reach {s s' : State} (n : Fin 24)
    (h : execOr n s = .next s') : Reach (concludedParts ++ [.tnow, .wsNs, .regs, .seqs]) s s' := by
  refine runLive_reach (V := [.tnow, .wsNs, .regs, .seqs]) ?_ h
  refine Reach.step (State.phiad_reach [.seqs] _ _ _ _ (fun t1 _ => ?_)) rfl ?_
  · refine Reach.step (State.alu_reach ..) rfl ?_
    exact .refl
  · first | assumption | exact .refl

theorem execXor_reach {s s' : State} (n : Fin 24)
    (h : execXor n s = .next s') : Reach (concludedParts ++ [.tnow, .wsNs, .regs, .seqs]) s s' := by
  refine runLive_reach (V := [.tnow, .wsNs, .regs, .seqs]) ?_ h
  refine Reach.step (State.phiad_reach [.seqs] _ _ _ _ (fun t1 _ => ?_)) rfl ?_
  · refine Reach.step (State.alu_reach ..) rfl ?_
    exact .refl
  · first | assumption | exact .refl

theorem execSll_reach {s s' : State} (n : Fin 24)
    (h : execSll n s = .next s') : Reach (concludedParts ++ [.tnow, .wsNs, .regs, .seqs]) s s' := by
  refine runLive_reach (V := [.tnow, .wsNs, .regs, .seqs]) ?_ h
  refine Reach.step (State.phiad_reach [.seqs] _ _ _ _ (fun t1 _ => ?_)) rfl ?_
  · refine Reach.step (State.alu_reach ..) rfl ?_
    exact .refl
  · first | assumption | exact .refl

theorem execSrl_reach {s s' : State} (n : Fin 24)
    (h : execSrl n s = .next s') : Reach (concludedParts ++ [.tnow, .wsNs, .regs, .seqs]) s s' := by
  refine runLive_reach (V := [.tnow, .wsNs, .regs, .seqs]) ?_ h
  refine Reach.step (State.phiad_reach [.seqs] _ _ _ _ (fun t1 _ => ?_)) rfl ?_
  · refine Reach.step (State.alu_reach ..) rfl ?_
    exact .refl
  · first | assumption | exact .refl

theorem execSra_reach {s s' : State} (n : Fin 24)
    (h : execSra n s = .next s') : Reach (concludedParts ++ [.tnow, .wsNs, .regs, .seqs]) s s' := by
  refine runLive_reach (V := [.tnow, .wsNs, .regs, .seqs]) ?_ h
  refine Reach.step (State.phiad_reach [.seqs] _ _ _ _ (fun t1 _ => ?_)) rfl ?_
  · refine Reach.step (State.alu_reach ..) rfl ?_
    exact .refl
  · first | assumption | exact .refl

theorem execSlt_reach {s s' : State} (n : Fin 24)
    (h : execSlt n s = .next s') : Reach (concludedParts ++ [.tnow, .wsNs, .regs, .seqs]) s s' := by
  refine runLive_reach (V := [.tnow, .wsNs, .regs, .seqs]) ?_ h
  refine Reach.step (State.phiad_reach [.seqs] _ _ _ _ (fun t1 _ => ?_)) rfl ?_
  · refine Reach.step (State.alu_reach ..) rfl ?_
    exact .refl
  · first | assumption | exact .refl

theorem execSltu_reach {s s' : State} (n : Fin 24)
    (h : execSltu n s = .next s') : Reach (concludedParts ++ [.tnow, .wsNs, .regs, .seqs]) s s' := by
  refine runLive_reach (V := [.tnow, .wsNs, .regs, .seqs]) ?_ h
  refine Reach.step (State.phiad_reach [.seqs] _ _ _ _ (fun t1 _ => ?_)) rfl ?_
  · refine Reach.step (State.alu_reach ..) rfl ?_
    exact .refl
  · first | assumption | exact .refl

theorem execMin_reach {s s' : State} (n : Fin 24)
    (h : execMin n s = .next s') : Reach (concludedParts ++ [.tnow, .wsNs, .regs, .seqs]) s s' := by
  refine runLive_reach (V := [.tnow, .wsNs, .regs, .seqs]) ?_ h
  refine Reach.step (State.phiad_reach [.seqs] _ _ _ _ (fun t1 _ => ?_)) rfl ?_
  · refine Reach.step (State.alu_reach ..) rfl ?_
    exact .refl
  · first | assumption | exact .refl

theorem execMax_reach {s s' : State} (n : Fin 24)
    (h : execMax n s = .next s') : Reach (concludedParts ++ [.tnow, .wsNs, .regs, .seqs]) s s' := by
  refine runLive_reach (V := [.tnow, .wsNs, .regs, .seqs]) ?_ h
  refine Reach.step (State.phiad_reach [.seqs] _ _ _ _ (fun t1 _ => ?_)) rfl ?_
  · refine Reach.step (State.alu_reach ..) rfl ?_
    exact .refl
  · first | assumption | exact .refl

theorem execMinu_reach {s s' : State} (n : Fin 24)
    (h : execMinu n s = .next s') : Reach (concludedParts ++ [.tnow, .wsNs, .regs, .seqs]) s s' := by
  refine runLive_reach (V := [.tnow, .wsNs, .regs, .seqs]) ?_ h
  refine Reach.step (State.phiad_reach [.seqs] _ _ _ _ (fun t1 _ => ?_)) rfl ?_
  · refine Reach.step (State.alu_reach ..) rfl ?_
    exact .refl
  · first | assumption | exact .refl

theorem execMaxu_reach {s s' : State} (n : Fin 24)
    (h : execMaxu n s = .next s') : Reach (concludedParts ++ [.tnow, .wsNs, .regs, .seqs]) s s' := by
  refine runLive_reach (V := [.tnow, .wsNs, .regs, .seqs]) ?_ h
  refine Reach.step (State.phiad_reach [.seqs] _ _ _ _ (fun t1 _ => ?_)) rfl ?_
  · refine Reach.step (State.alu_reach ..) rfl ?_
    exact .refl
  · first | assumption | exact .refl

theorem execClamp_reach {s s' : State} (n : Fin 24)
    (h : execClamp n s = .next s') : Reach (concludedParts ++ [.tnow, .wsNs, .regs, .seqs]) s s' := by
  refine runLive_reach (V := [.tnow, .wsNs, .regs, .seqs]) ?_ h
  refine Reach.step (State.phiad_reach [.seqs] _ _ _ _ (fun t1 _ => ?_)) rfl ?_
  · refine Reach.step (State.alu_reach ..) rfl ?_
    exact .refl
  · first | assumption | exact .refl

theorem execClampu_reach {s s' : State} (n : Fin 24)
    (h : execClampu n s = .next s') : Reach (concludedParts ++ [.tnow, .wsNs, .regs, .seqs]) s s' := by
  refine runLive_reach (V := [.tnow, .wsNs, .regs, .seqs]) ?_ h
  refine Reach.step (State.phiad_reach [.seqs] _ _ _ _ (fun t1 _ => ?_)) rfl ?_
  · refine Reach.step (State.alu_reach ..) rfl ?_
    exact .refl
  · first | assumption | exact .refl

theorem execPack_reach {s s' : State} (n : Fin 24)
    (h : execPack n s = .next s') : Reach (concludedParts ++ [.tnow, .wsNs, .regs, .seqs]) s s' := by
  refine runLive_reach (V := [.tnow, .wsNs, .regs, .seqs]) ?_ h
  refine Reach.step (State.phiad_reach [.seqs] _ _ _ _ (fun t1 _ => ?_)) rfl ?_
  · refine Reach.step (State.alu_reach ..) rfl ?_
    exact .refl
  · first | assumption | exact .refl

theorem execAddi_reach {s s' : State} (n : Fin 24)
    (h : execAddi n s = .next s') : Reach (concludedParts ++ [.tnow, .wsNs, .regs, .seqs]) s s' := by
  refine runLive_reach (V := [.tnow, .wsNs, .regs, .seqs]) ?_ h
  refine Reach.step (State.phiad_reach [.seqs] _ _ _ _ (fun t1 _ => ?_)) rfl ?_
  · refine Reach.step (State.aluImm_reach ..) rfl ?_
    exact .refl
  · first | assumption | exact .refl

theorem execAndi_reach {s s' : State} (n : Fin 24)
    (h : execAndi n s = .next s') : Reach (concludedParts ++ [.tnow, .wsNs, .regs, .seqs]) s s' := by
  refine runLive_reach (V := [.tnow, .wsNs, .regs, .seqs]) ?_ h
  refine Reach.step (State.phiad_reach [.seqs] _ _ _ _ (fun t1 _ => ?_)) rfl ?_
  · refine Reach.step (State.aluImm_reach ..) rfl ?_
    exact .refl
  · first | assumption | exact .refl

theorem execOri_reach {s s' : State} (n : Fin 24)
    (h : execOri n s = .next s') : Reach (concludedParts ++ [.tnow, .wsNs, .regs, .seqs]) s s' := by
  refine runLive_reach (V := [.tnow, .wsNs, .regs, .seqs]) ?_ h
  refine Reach.step (State.phiad_reach [.seqs] _ _ _ _ (fun t1 _ => ?_)) rfl ?_
  · refine Reach.step (State.aluImm_reach ..) rfl ?_
    exact .refl
  · first | assumption | exact .refl

theorem execXori_reach {s s' : State} (n : Fin 24)
    (h : execXori n s = .next s') : Reach (concludedParts ++ [.tnow, .wsNs, .regs, .seqs]) s s' := by
  refine runLive_reach (V := [.tnow, .wsNs, .regs, .seqs]) ?_ h
  refine Reach.step (State.phiad_reach [.seqs] _ _ _ _ (fun t1 _ => ?_)) rfl ?_
  · refine Reach.step (State.aluImm_reach ..) rfl ?_
    exact .refl
  · first | assumption | exact .refl

theorem execSlli_reach {s s' : State} (n : Fin 24)
    (h : execSlli n s = .next s') : Reach (concludedParts ++ [.tnow, .wsNs, .regs, .seqs]) s s' := by
  refine runLive_reach (V := [.tnow, .wsNs, .regs, .seqs]) ?_ h
  refine Reach.step (State.phiad_reach [.seqs] _ _ _ _ (fun t1 _ => ?_)) rfl ?_
  · refine Reach.step (State.aluImm_reach ..) rfl ?_
    exact .refl
  · first | assumption | exact .refl

theorem execSrli_reach {s s' : State} (n : Fin 24)
    (h : execSrli n s = .next s') : Reach (concludedParts ++ [.tnow, .wsNs, .regs, .seqs]) s s' := by
  refine runLive_reach (V := [.tnow, .wsNs, .regs, .seqs]) ?_ h
  refine Reach.step (State.phiad_reach [.seqs] _ _ _ _ (fun t1 _ => ?_)) rfl ?_
  · refine Reach.step (State.aluImm_reach ..) rfl ?_
    exact .refl
  · first | assumption | exact .refl

theorem execSrai_reach {s s' : State} (n : Fin 24)
    (h : execSrai n s = .next s') : Reach (concludedParts ++ [.tnow, .wsNs, .regs, .seqs]) s s' := by
  refine runLive_reach (V := [.tnow, .wsNs, .regs, .seqs]) ?_ h
  refine Reach.step (State.phiad_reach [.seqs] _ _ _ _ (fun t1 _ => ?_)) rfl ?_
  · refine Reach.step (State.aluImm_reach ..) rfl ?_
    exact .refl
  · first | assumption | exact .refl

theorem execRori_reach {s s' : State} (n : Fin 24)
    (h : execRori n s = .next s') : Reach (concludedParts ++ [.tnow, .wsNs, .regs, .seqs]) s s' := by
  refine runLive_reach (V := [.tnow, .wsNs, .regs, .seqs]) ?_ h
  refine Reach.step (State.phiad_reach [.seqs] _ _ _ _ (fun t1 _ => ?_)) rfl ?_
  · refine Reach.step (State.aluImm_reach ..) rfl ?_
    exact .refl
  · first | assumption | exact .refl

theorem execLui_reach {s s' : State} (n : Fin 24)
    (h : execLui n s = .next s') : Reach (concludedParts ++ [.tnow, .wsNs, .regs, .seqs]) s s' := by
  refine runLive_reach (V := [.tnow, .wsNs, .regs, .seqs]) ?_ h
  refine Reach.step (State.phiad_reach [.seqs] _ _ _ _ (fun t1 _ => ?_)) rfl ?_
  · refine Reach.step (State.result_reach ..) rfl ?_
    exact .refl
  · first | assumption | exact .refl

theorem execMulu_reach {s s' : State} (n : Fin 24)
    (h : execMulu n s = .next s') : Reach (concludedParts ++ [.tnow, .wsNs, .regs, .seqs]) s s' := by
  refine runLive_reach (V := [.tnow, .wsNs, .regs, .seqs]) ?_ h
  refine Reach.step (State.phiad_reach [.seqs] _ _ _ _ (fun t1 _ => ?_)) rfl ?_
  · refine Reach.step (State.wide_reach ..) rfl ?_
    exact .refl
  · first | assumption | exact .refl

theorem execMuls_reach {s s' : State} (n : Fin 24)
    (h : execMuls n s = .next s') : Reach (concludedParts ++ [.tnow, .wsNs, .regs, .seqs]) s s' := by
  refine runLive_reach (V := [.tnow, .wsNs, .regs, .seqs]) ?_ h
  refine Reach.step (State.phiad_reach [.seqs] _ _ _ _ (fun t1 _ => ?_)) rfl ?_
  · refine Reach.step (State.wide_reach ..) rfl ?_
    exact .refl
  · first | assumption | exact .refl

theorem execMul_reach {s s' : State} (n : Fin 24)
    (h : execMul n s = .next s') : Reach (concludedParts ++ [.tnow, .wsNs, .regs, .seqs]) s s' := by
  refine runLive_reach (V := [.tnow, .wsNs, .regs, .seqs]) ?_ h
  refine Reach.step (State.phiad_reach [.seqs] _ _ _ _ (fun t1 _ => ?_)) rfl ?_
  · refine Reach.step (State.result_reach ..) rfl ?_
    exact .refl
  · first | assumption | exact .refl

theorem execMulq_reach {s s' : State} (n : Fin 24)
    (h : execMulq n s = .next s') : Reach (concludedParts ++ [.tnow, .wsNs, .regs, .seqs]) s s' := by
  refine runLive_reach (V := [.tnow, .wsNs, .regs, .seqs]) ?_ h
  refine Reach.step (State.phiad_reach [.seqs] _ _ _ _ (fun t1 _ => ?_)) rfl ?_
  · refine Reach.step (State.result_reach ..) rfl ?_
    exact .refl
  · first | assumption | exact .refl

theorem execDivu_reach {s s' : State} (n : Fin 24)
    (h : execDivu n s = .next s') : Reach (concludedParts ++ effectParts1) s s' := by
  refine runLive_reach (V := effectParts1) ?_ h
  refine Reach.step (State.phiad_reach [.seqs, .regs, .logNew, .change, .chans, .mem, .dataIn] _ _ _ _ (fun t1 _ => ?_)) rfl ?_
  · refine Reach.step (State.divide_reach ..) rfl ?_
    exact .refl
  · first | assumption | exact .refl

theorem execDivs_reach {s s' : State} (n : Fin 24)
    (h : execDivs n s = .next s') : Reach (concludedParts ++ effectParts1) s s' := by
  refine runLive_reach (V := effectParts1) ?_ h
  refine Reach.step (State.phiad_reach [.seqs, .regs, .logNew, .change, .chans, .mem, .dataIn] _ _ _ _ (fun t1 _ => ?_)) rfl ?_
  · refine Reach.step (State.divide_reach ..) rfl ?_
    exact .refl
  · first | assumption | exact .refl

theorem execRemu_reach {s s' : State} (n : Fin 24)
    (h : execRemu n s = .next s') : Reach (concludedParts ++ effectParts1) s s' := by
  refine runLive_reach (V := effectParts1) ?_ h
  refine Reach.step (State.phiad_reach [.seqs, .regs, .logNew, .change, .chans, .mem, .dataIn] _ _ _ _ (fun t1 _ => ?_)) rfl ?_
  · refine Reach.step (State.divide_reach ..) rfl ?_
    exact .refl
  · first | assumption | exact .refl

theorem execRems_reach {s s' : State} (n : Fin 24)
    (h : execRems n s = .next s') : Reach (concludedParts ++ effectParts1) s s' := by
  refine runLive_reach (V := effectParts1) ?_ h
  refine Reach.step (State.phiad_reach [.seqs, .regs, .logNew, .change, .chans, .mem, .dataIn] _ _ _ _ (fun t1 _ => ?_)) rfl ?_
  · refine Reach.step (State.divide_reach ..) rfl ?_
    exact .refl
  · first | assumption | exact .refl

theorem execLw_reach {s s' : State} (n : Fin 24)
    (h : execLw n s = .next s') : Reach (concludedParts ++ effectParts1) s s' := by
  refine runLive_reach (V := effectParts1) ?_ h
  refine Reach.step (State.phiad_reach [.seqs, .regs, .logNew, .change, .chans, .mem, .dataIn] _ _ _ _ (fun t1 _ => ?_)) rfl ?_
  · refine Reach.step (State.loadWord_reach ..) rfl ?_
    exact .refl
  · first | assumption | exact .refl

theorem execSw_reach {s s' : State} (n : Fin 24)
    (h : execSw n s = .next s') : Reach (concludedParts ++ effectParts22) s s' := by
  refine runLive_reach (V := effectParts22) ?_ h
  refine Reach.step (State.phiad_reach [.mem, .regs, .logNew, .seqs, .change, .chans, .dataIn] _ _ _ _ (fun t1 _ => ?_)) rfl ?_
  · refine Reach.step (State.storeWord_reach ..) rfl ?_
    exact .refl
  · first | assumption | exact .refl

theorem execLmu_reach {s s' : State} (n : Fin 24)
    (h : execLmu n s = .next s') : Reach (concludedParts ++ effectParts1) s s' := by
  refine runLive_reach (V := effectParts1) ?_ h
  refine Reach.step (State.phiad_reach [.seqs, .regs, .logNew, .change, .chans, .mem, .dataIn] _ _ _ _ (fun t1 _ => ?_)) rfl ?_
  · refine Reach.step (State.loadMap_reach ..) rfl ?_
    exact .refl
  · first | assumption | exact .refl

theorem execLms_reach {s s' : State} (n : Fin 24)
    (h : execLms n s = .next s') : Reach (concludedParts ++ effectParts1) s s' := by
  refine runLive_reach (V := effectParts1) ?_ h
  refine Reach.step (State.phiad_reach [.seqs, .regs, .logNew, .change, .chans, .mem, .dataIn] _ _ _ _ (fun t1 _ => ?_)) rfl ?_
  · refine Reach.step (State.loadMap_reach ..) rfl ?_
    exact .refl
  · first | assumption | exact .refl

theorem execLmw_reach {s s' : State} (n : Fin 24)
    (h : execLmw n s = .next s') : Reach (concludedParts ++ effectParts1) s s' := by
  refine runLive_reach (V := effectParts1) ?_ h
  refine Reach.step (State.phiad_reach [.seqs, .regs, .logNew, .change, .chans, .mem, .dataIn] _ _ _ _ (fun t1 _ => ?_)) rfl ?_
  · refine Reach.step (State.loadMap_reach ..) rfl ?_
    exact .refl
  · first | assumption | exact .refl

theorem execMap2_reach {s s' : State} (n : Fin 24)
    (h : execMap2 n s = .next s') : Reach (concludedParts ++ effectParts1) s s' := by
  refine runLive_reach (V := effectParts1) ?_ h
  refine Reach.step (State.phiad_reach [.seqs, .regs, .logNew, .change, .chans, .mem, .dataIn] _ _ _ _ (fun t1 _ => ?_)) rfl ?_
  · refine Reach.step (State.issueMap2_reach ..) rfl ?_
    exact .refl
  · first | assumption | exact .refl

theorem execMapmTransaction_reach {s s' : State} (n : Fin 24) (ecc : Ecc)
    (h : execMapmTransaction n ecc s = .next s') : Reach (concludedParts ++ effectParts23) s s' := by
  refine runSeq_reach (V := effectParts23) ?_ h
  refine Reach.step (State.mapTransaction_reach ..) rfl ?_
  exact .refl

theorem execA2t_reach {s s' : State} (n : Fin 24)
    (h : execA2t n s = .next s') : Reach (concludedParts ++ effectParts1) s s' := by
  refine runLive_reach (V := effectParts1) ?_ h
  refine Reach.step (State.phiad_reach [.seqs, .regs, .logNew, .change, .chans, .mem, .dataIn] _ _ _ _ (fun t1 _ => ?_)) rfl ?_
  · refine Reach.step (State.a2t_reach ..) rfl ?_
    exact .refl
  · first | assumption | exact .refl

theorem execT2a_reach {s s' : State} (n : Fin 24)
    (h : execT2a n s = .next s') : Reach (concludedParts ++ effectParts1) s s' := by
  refine runLive_reach (V := effectParts1) ?_ h
  refine Reach.step (State.phiad_reach [.seqs, .regs, .logNew, .change, .chans, .mem, .dataIn] _ _ _ _ (fun t1 _ => ?_)) rfl ?_
  · refine Reach.step (State.t2a_reach ..) rfl ?_
    exact .refl
  · first | assumption | exact .refl

theorem execRds_reach {s s' : State} (n : Fin 24)
    (h : execRds n s = .next s') : Reach (concludedParts ++ [.tnow, .wsNs, .regs, .seqs]) s s' := by
  refine runLive_reach (V := [.tnow, .wsNs, .regs, .seqs]) ?_ h
  refine Reach.step (State.phiad_reach [.seqs] _ _ _ _ (fun t1 _ => ?_)) rfl ?_
  · refine Reach.step (State.result_reach ..) rfl ?_
    exact .refl
  · first | assumption | exact .refl

theorem execBeq_reach {s s' : State} (n : Fin 24)
    (h : execBeq n s = .next s') : Reach (concludedParts ++ [.tnow, .wsNs, .regs, .seqs]) s s' := by
  refine runLive_reach (V := [.tnow, .wsNs, .regs, .seqs]) ?_ h
  refine Reach.step (State.phiad_reach [.seqs] _ _ _ _ (fun t1 _ => ?_)) rfl ?_
  · refine Reach.step (State.branch_reach ..) rfl ?_
    exact .refl
  · first | assumption | exact .refl

theorem execBne_reach {s s' : State} (n : Fin 24)
    (h : execBne n s = .next s') : Reach (concludedParts ++ [.tnow, .wsNs, .regs, .seqs]) s s' := by
  refine runLive_reach (V := [.tnow, .wsNs, .regs, .seqs]) ?_ h
  refine Reach.step (State.phiad_reach [.seqs] _ _ _ _ (fun t1 _ => ?_)) rfl ?_
  · refine Reach.step (State.branch_reach ..) rfl ?_
    exact .refl
  · first | assumption | exact .refl

theorem execBlt_reach {s s' : State} (n : Fin 24)
    (h : execBlt n s = .next s') : Reach (concludedParts ++ [.tnow, .wsNs, .regs, .seqs]) s s' := by
  refine runLive_reach (V := [.tnow, .wsNs, .regs, .seqs]) ?_ h
  refine Reach.step (State.phiad_reach [.seqs] _ _ _ _ (fun t1 _ => ?_)) rfl ?_
  · refine Reach.step (State.branch_reach ..) rfl ?_
    exact .refl
  · first | assumption | exact .refl

theorem execBge_reach {s s' : State} (n : Fin 24)
    (h : execBge n s = .next s') : Reach (concludedParts ++ [.tnow, .wsNs, .regs, .seqs]) s s' := by
  refine runLive_reach (V := [.tnow, .wsNs, .regs, .seqs]) ?_ h
  refine Reach.step (State.phiad_reach [.seqs] _ _ _ _ (fun t1 _ => ?_)) rfl ?_
  · refine Reach.step (State.branch_reach ..) rfl ?_
    exact .refl
  · first | assumption | exact .refl

theorem execBltu_reach {s s' : State} (n : Fin 24)
    (h : execBltu n s = .next s') : Reach (concludedParts ++ [.tnow, .wsNs, .regs, .seqs]) s s' := by
  refine runLive_reach (V := [.tnow, .wsNs, .regs, .seqs]) ?_ h
  refine Reach.step (State.phiad_reach [.seqs] _ _ _ _ (fun t1 _ => ?_)) rfl ?_
  · refine Reach.step (State.branch_reach ..) rfl ?_
    exact .refl
  · first | assumption | exact .refl

theorem execBgeu_reach {s s' : State} (n : Fin 24)
    (h : execBgeu n s = .next s') : Reach (concludedParts ++ [.tnow, .wsNs, .regs, .seqs]) s s' := by
  refine runLive_reach (V := [.tnow, .wsNs, .regs, .seqs]) ?_ h
  refine Reach.step (State.phiad_reach [.seqs] _ _ _ _ (fun t1 _ => ?_)) rfl ?_
  · refine Reach.step (State.branch_reach ..) rfl ?_
    exact .refl
  · first | assumption | exact .refl

theorem execBmlt_reach {s s' : State} (n : Fin 24)
    (h : execBmlt n s = .next s') : Reach (concludedParts ++ [.tnow, .wsNs, .regs, .seqs]) s s' := by
  refine runLive_reach (V := [.tnow, .wsNs, .regs, .seqs]) ?_ h
  refine Reach.step (State.phiad_reach [.seqs] _ _ _ _ (fun t1 _ => ?_)) rfl ?_
  · refine Reach.step (State.branch_reach ..) rfl ?_
    exact .refl
  · first | assumption | exact .refl

theorem execBmge_reach {s s' : State} (n : Fin 24)
    (h : execBmge n s = .next s') : Reach (concludedParts ++ [.tnow, .wsNs, .regs, .seqs]) s s' := by
  refine runLive_reach (V := [.tnow, .wsNs, .regs, .seqs]) ?_ h
  refine Reach.step (State.phiad_reach [.seqs] _ _ _ _ (fun t1 _ => ?_)) rfl ?_
  · refine Reach.step (State.branch_reach ..) rfl ?_
    exact .refl
  · first | assumption | exact .refl

theorem execJal_reach {s s' : State} (n : Fin 24)
    (h : execJal n s = .next s') : Reach (concludedParts ++ [.tnow, .wsNs, .regs, .seqs]) s s' := by
  refine runLive_reach (V := [.tnow, .wsNs, .regs, .seqs]) ?_ h
  refine Reach.step (State.phiad_reach [.seqs] _ _ _ _ (fun t1 _ => ?_)) rfl ?_
  · refine Reach.step (State.jumpTo_reach ..) rfl ?_
    refine Reach.step (State.result_reach ..) rfl ?_
    exact .refl
  · first | assumption | exact .refl

theorem execJalr_reach {s s' : State} (n : Fin 24)
    (h : execJalr n s = .next s') : Reach (concludedParts ++ [.tnow, .wsNs, .regs, .seqs]) s s' := by
  refine runLive_reach (V := [.tnow, .wsNs, .regs, .seqs]) ?_ h
  refine Reach.step (State.phiad_reach [.seqs] _ _ _ _ (fun t1 _ => ?_)) rfl ?_
  · refine Reach.step (State.jumpTo_reach ..) rfl ?_
    refine Reach.step (State.result_reach ..) rfl ?_
    exact .refl
  · first | assumption | exact .refl

theorem execArm_reach {s s' : State} (n : Fin 24)
    (h : execArm n s = .next s') : Reach (concludedParts ++ [.tnow, .wsNs, .regs, .seqs, .change, .chans, .mem, .dataIn]) s s' := by
  refine runLive_reach (V := [.tnow, .wsNs, .regs, .seqs, .change, .chans, .mem, .dataIn]) ?_ h
  refine Reach.step (State.phiad_reach [.seqs, .regs, .change, .chans, .mem, .dataIn] _ _ _ _ (fun t1 _ => ?_)) rfl ?_
  · refine Reach.step (State.slotBody_reach ..) rfl ?_
    exact .refl
  · first | assumption | exact .refl

theorem execArmt_reach {s s' : State} (n : Fin 24)
    (h : execArmt n s = .next s') : Reach (concludedParts ++ [.tnow, .wsNs, .regs, .seqs, .change, .chans, .mem, .dataIn]) s s' := by
  refine runLive_reach (V := [.tnow, .wsNs, .regs, .seqs, .change, .chans, .mem, .dataIn]) ?_ h
  refine Reach.step (State.phiad_reach [.seqs, .regs, .change, .chans, .mem, .dataIn] _ _ _ _ (fun t1 _ => ?_)) rfl ?_
  · refine Reach.step (State.slotBody_reach ..) rfl ?_
    exact .refl
  · first | assumption | exact .refl

theorem execPulse_reach {s s' : State} (n : Fin 24)
    (h : execPulse n s = .next s') : Reach (concludedParts ++ [.tnow, .wsNs, .regs, .seqs, .change, .chans, .mem, .dataIn]) s s' := by
  refine runLive_reach (V := [.tnow, .wsNs, .regs, .seqs, .change, .chans, .mem, .dataIn]) ?_ h
  refine Reach.step (State.phiad_reach [.seqs, .regs, .change, .chans, .mem, .dataIn] _ _ _ _ (fun t1 _ => ?_)) rfl ?_
  · refine Reach.step (State.slotBody_reach ..) rfl ?_
    exact .refl
  · first | assumption | exact .refl

theorem execCancelHandle_reach {s s' : State} (n : Fin 24)
    (h : execCancelHandle n s = .next s') : Reach (concludedParts ++ [.tnow, .wsNs, .regs, .seqs, .chans]) s s' := by
  refine runLive_reach (V := [.tnow, .wsNs, .regs, .seqs, .chans]) ?_ h
  refine Reach.step (State.phiad_reach [.chans, .regs, .seqs] _ _ _ _ (fun t1 _ => ?_)) rfl ?_
  · refine Reach.step (State.cancelBody_reach ..) rfl ?_
    exact .refl
  · first | assumption | exact .refl

theorem execCancelChannel_reach {s s' : State} (n : Fin 24)
    (h : execCancelChannel n s = .next s') : Reach (concludedParts ++ [.tnow, .wsNs, .regs, .seqs, .chans]) s s' := by
  refine runLive_reach (V := [.tnow, .wsNs, .regs, .seqs, .chans]) ?_ h
  refine Reach.step (State.phiad_reach [.chans, .regs, .seqs] _ _ _ _ (fun t1 _ => ?_)) rfl ?_
  · refine Reach.step (State.cancelBody_reach ..) rfl ?_
    exact .refl
  · first | assumption | exact .refl

theorem execCancelAll_reach {s s' : State} (n : Fin 24)
    (h : execCancelAll n s = .next s') : Reach (concludedParts ++ [.tnow, .wsNs, .regs, .seqs, .chans]) s s' := by
  refine runLive_reach (V := [.tnow, .wsNs, .regs, .seqs, .chans]) ?_ h
  refine Reach.step (State.phiad_reach [.chans, .regs, .seqs] _ _ _ _ (fun t1 _ => ?_)) rfl ?_
  · refine Reach.step (State.cancelBody_reach ..) rfl ?_
    exact .refl
  · first | assumption | exact .refl

theorem execWaita_reach {s s' : State} (n : Fin 24)
    (h : execWaita n s = .next s') : Reach (concludedParts ++ [.tnow, .wsNs, .regs, .seqs, .change, .chans, .mem, .dataIn]) s s' := by
  refine runLive_reach (V := [.tnow, .wsNs, .regs, .seqs, .change, .chans, .mem, .dataIn]) ?_ h
  refine Reach.step (State.phiad_reach [.seqs, .regs, .change, .chans, .mem, .dataIn] _ _ _ _ (fun t1 _ => ?_)) rfl ?_
  · refine Reach.step (State.slotBody_reach ..) rfl ?_
    exact .refl
  · first | assumption | exact .refl

theorem execWaitt_reach {s s' : State} (n : Fin 24)
    (h : execWaitt n s = .next s') : Reach (concludedParts ++ [.tnow, .wsNs, .regs, .seqs, .change, .chans, .mem, .dataIn]) s s' := by
  refine runLive_reach (V := [.tnow, .wsNs, .regs, .seqs, .change, .chans, .mem, .dataIn]) ?_ h
  refine Reach.step (State.phiad_reach [.seqs, .regs, .change, .chans, .mem, .dataIn] _ _ _ _ (fun t1 _ => ?_)) rfl ?_
  · refine Reach.step (State.slotBody_reach ..) rfl ?_
    exact .refl
  · first | assumption | exact .refl

theorem execWaiteTooth_reach {s s' : State} (n : Fin 24)
    (h : execWaiteTooth n s = .next s') : Reach (concludedParts ++ [.tnow, .wsNs, .regs, .seqs, .change, .chans, .mem, .dataIn]) s s' := by
  refine runLive_reach (V := [.tnow, .wsNs, .regs, .seqs, .change, .chans, .mem, .dataIn]) ?_ h
  refine Reach.step (State.phiad_reach [.regs, .seqs, .change, .chans, .mem, .dataIn] _ _ _ _ (fun t1 _ => ?_)) rfl ?_
  · refine Reach.step (State.waiteToothBody_reach ..) rfl ?_
    exact .refl
  · first | assumption | exact .refl

theorem execWaiteIcu_reach {s s' : State} (n : Fin 24)
    (h : execWaiteIcu n s = .next s') : Reach (concludedParts ++ [.tnow, .wsNs, .regs, .seqs, .change, .chans, .mem, .dataIn]) s s' := by
  refine runLive_reach (V := [.tnow, .wsNs, .regs, .seqs, .change, .chans, .mem, .dataIn]) ?_ h
  refine Reach.step (State.phiad_reach [.seqs, .regs, .change, .chans, .mem, .dataIn] _ _ _ _ (fun t1 _ => ?_)) rfl ?_
  · refine Reach.step (State.waiteIcuBody_reach ..) rfl ?_
    exact .refl
  · first | assumption | exact .refl

theorem execWaiteFence_reach {s s' : State} (n : Fin 24)
    (h : execWaiteFence n s = .next s') : Reach (concludedParts ++ [.tnow, .wsNs, .regs, .seqs, .change, .chans, .mem, .dataIn]) s s' := by
  refine runLive_reach (V := [.tnow, .wsNs, .regs, .seqs, .change, .chans, .mem, .dataIn]) ?_ h
  refine Reach.step (State.phiad_reach [.seqs, .regs, .change, .chans, .mem, .dataIn] _ _ _ _ (fun t1 _ => ?_)) rfl ?_
  · refine Reach.step (State.waiteFenceBody_reach ..) rfl ?_
    exact .refl
  · first | assumption | exact .refl

theorem execWaiteEpoch_reach {s s' : State} (n : Fin 24)
    (h : execWaiteEpoch n s = .next s') : Reach (concludedParts ++ [.tnow, .wsNs, .regs, .seqs, .change, .chans, .mem, .dataIn]) s s' := by
  refine runLive_reach (V := [.tnow, .wsNs, .regs, .seqs, .change, .chans, .mem, .dataIn]) ?_ h
  refine Reach.step (State.phiad_reach [.seqs, .regs, .change, .chans, .mem, .dataIn] _ _ _ _ (fun t1 _ => ?_)) rfl ?_
  · refine Reach.step (State.enterWaite_reach ..) rfl ?_
    exact .refl
  · first | assumption | exact .refl

theorem execWaiteFlag_reach {s s' : State} (n : Fin 24)
    (h : execWaiteFlag n s = .next s') : Reach (concludedParts ++ [.tnow, .wsNs, .regs, .seqs, .change, .chans, .mem, .dataIn]) s s' := by
  refine runLive_reach (V := [.tnow, .wsNs, .regs, .seqs, .change, .chans, .mem, .dataIn]) ?_ h
  refine Reach.step (State.phiad_reach [.seqs, .regs, .change, .chans, .mem, .dataIn] _ _ _ _ (fun t1 _ => ?_)) rfl ?_
  · refine Reach.step (State.waiteFlagBody_reach ..) rfl ?_
    exact .refl
  · first | assumption | exact .refl

theorem execTaskStart_reach {s s' : State} (n : Fin 24)
    (h : execTaskStart n s = .next s') : Reach (concludedParts ++ [.seqs]) s s' := by
  refine runSeq_reach (V := [.seqs]) ?_ h
  refine Reach.step (State.taskStart_reach ..) rfl ?_
  exact .refl

theorem execWaiteWake_reach {s s' : State} (n : Fin 24)
    (h : execWaiteWake n s = .next s') : Reach (concludedParts ++ [.seqs, .regs]) s s' := by
  refine runSeq_reach (V := [.seqs, .regs]) ?_ h
  refine Reach.step (State.waiteWake_reach ..) rfl ?_
  exact .refl

theorem execSafept_reach {s s' : State} (n : Fin 24)
    (h : execSafept n s = .next s') : Reach (concludedParts ++ [.tnow, .wsNs, .regs, .seqs, .change, .chans, .mem, .dataIn]) s s' := by
  refine runLive_reach (V := [.tnow, .wsNs, .regs, .seqs, .change, .chans, .mem, .dataIn]) ?_ h
  refine Reach.step (State.phiad_reach [.regs, .change, .seqs, .chans, .mem, .dataIn] _ _ _ _ (fun t1 _ => ?_)) rfl ?_
  · refine Reach.step (State.safeptBody_reach ..) rfl ?_
    exact .refl
  · first | assumption | exact .refl

theorem execFence_reach {s s' : State} (n : Fin 24)
    (h : execFence n s = .next s') : Reach (concludedParts ++ [.tnow, .wsNs, .regs, .seqs]) s s' := by
  refine runLive_reach (V := [.tnow, .wsNs, .regs, .seqs]) ?_ h
  refine Reach.step (State.phiad_reach [.regs] _ _ _ _ (fun t1 _ => ?_)) rfl ?_
  · refine Reach.step (State.fenceToken_reach ..) rfl ?_
    exact .refl
  · first | assumption | exact .refl

theorem execBudget_reach {s s' : State} (n : Fin 24)
    (h : execBudget n s = .next s') : Reach (concludedParts ++ [.tnow, .wsNs, .regs, .seqs]) s s' := by
  refine runLive_reach (V := [.tnow, .wsNs, .regs, .seqs]) ?_ h
  refine Reach.step (State.phiad_reach [.seqs, .regs] _ _ _ _ (fun t1 _ => ?_)) rfl ?_
  · refine Reach.step (State.budgetBody_reach ..) rfl ?_
    exact .refl
  · first | assumption | exact .refl

theorem execYield_reach {s s' : State} (n : Fin 24)
    (h : execYield n s = .next s') : Reach (concludedParts ++ [.tnow, .wsNs, .regs, .seqs]) s s' := by
  refine runLive_reach (V := [.tnow, .wsNs, .regs, .seqs]) ?_ h
  refine Reach.step (State.phiad_reach [.regs] _ _ _ _ (fun t1 _ => ?_)) rfl ?_
  · refine Reach.step (State.yieldBody_reach ..) rfl ?_
    exact .refl
  · first | assumption | exact .refl

theorem execHalt_reach {s s' : State} (n : Fin 24)
    (h : execHalt n s = .next s') : Reach (concludedParts ++ [.tnow, .wsNs, .regs, .seqs, .change, .chans, .mem, .dataIn]) s s' := by
  refine runLive_reach (V := [.tnow, .wsNs, .regs, .seqs, .change, .chans, .mem, .dataIn]) ?_ h
  refine Reach.step (State.phiad_reach [.seqs, .regs, .change, .chans, .mem, .dataIn] _ _ _ _ (fun t1 _ => ?_)) rfl ?_
  · refine Reach.step (State.stopSeq_reach ..) rfl ?_
    exact .refl
  · first | assumption | exact .refl

theorem execHandover_reach {s s' : State} (n : Fin 24)
    (h : execHandover n s = .next s') : Reach (concludedParts ++ [.tnow, .wsNs, .regs, .seqs, .chans]) s s' := by
  refine runLive_reach (V := [.tnow, .wsNs, .regs, .seqs, .chans]) ?_ h
  refine Reach.step (State.phiad_reach [.seqs, .regs, .chans] _ _ _ _ (fun t1 _ => ?_)) rfl ?_
  · refine Reach.step (State.handoverBody_reach ..) rfl ?_
    exact .refl
  · first | assumption | exact .refl

theorem execHandoverTransfer_reach {s s' : State} (n : Fin 24)
    (h : execHandoverTransfer n s = .next s') : Reach (concludedParts ++ [.regs, .seqs, .chans]) s s' := by
  refine runSeq_reach (V := [.regs, .seqs, .chans]) ?_ h
  refine Reach.step (State.handoverDone_reach ..) rfl ?_
  exact .refl

theorem execSlotStallResume_reach {s s' : State} (n : Fin 24)
    (h : execSlotStallResume n s = .next s') : Reach (concludedParts ++ [.regs, .seqs, .tnow, .wsNs, .change, .chans, .mem, .dataIn]) s s' := by
  refine runSeq_reach (V := [.regs, .seqs, .tnow, .wsNs, .change, .chans, .mem, .dataIn]) ?_ h
  refine Reach.step (State.slotResume_reach ..) rfl ?_
  exact .refl

theorem execBudgetExpiry_reach {s s' : State} (n : Fin 24)
    (h : execBudgetExpiry n s = .next s') : Reach (concludedParts ++ [.regs, .seqs]) s s' := by
  refine runSeq_reach (V := [.regs, .seqs]) ?_ h
  refine Reach.step (State.budgetExpiry_reach ..) rfl ?_
  exact .refl

theorem execProgEcc_reach {s s' : State} (e : ProgError)
    (h : execProgEcc e s = .next s') : Reach (concludedParts ++ effectParts24) s s' := by
  refine runLive_reach (V := effectParts24) ?_ h
  refine Reach.step (State.progEccStep_reach ..) rfl ?_
  exact .refl

theorem execIllegal_reach {s s' : State} (n : Fin 24)
    (h : execIllegal n s = .next s') : Reach (concludedParts ++ effectParts25) s s' := by
  refine runLive_reach (V := effectParts25) ?_ h
  refine Reach.step (State.illegalStep_reach ..) rfl ?_
  exact .refl

theorem execSlotFire_reach {s s' : State} (n : Fin 24) (k : Fin 64)
    (h : execSlotFire n k s = .next s') : Reach (concludedParts ++ [.regs, .basins, .seqs, .chans, .svcs]) s s' := by
  refine runEv_reach (V := [.regs, .basins, .seqs, .chans, .svcs]) ?_ h
  refine Reach.step (State.slotFire_reach ..) rfl ?_
  exact .refl

theorem execSvcFire_reach {s s' : State} (k : Fin 64)
    (h : execSvcFire k s = .next s') : Reach (concludedParts ++ [.regs, .basins, .seqs, .chans, .svcs]) s s' := by
  refine runEv_reach (V := [.regs, .basins, .seqs, .chans, .svcs]) ?_ h
  refine Reach.step (State.svcFireNow_reach ..) rfl ?_
  exact .refl


/-! ### Supply.lean -/

theorem execPowerOnReset_reach {s s' : State} (straps : Fin 8)
    (h : execPowerOnReset straps s = .next s') : Reach (concludedParts ++ effectParts5) s s' := by
  refine run_reach (V := effectParts5) ?_ h
  refine Reach.step (State.powerOn_reach ..) rfl ?_
  exact .refl

theorem execPowerOnResetAssert_reach {s s' : State}
    (h : execPowerOnResetAssert s = .next s') : Reach (concludedParts ++ effectParts26) s s' := by
  refine run_reach (V := effectParts26) ?_ h
  refine Reach.step (State.porAssert_reach ..) rfl ?_
  exact .refl

theorem execDebugHalt_reach {s s' : State}
    (h : execDebugHalt s = .next s') : Reach (concludedParts ++ effectParts27) s s' := by
  refine runLive_reach (V := effectParts27) ?_ h
  refine Reach.step (State.debugHalt_reach ..) rfl ?_
  exact .refl

theorem execTestLogicReset_reach {s s' : State}
    (h : execTestLogicReset s = .next s') : Reach (concludedParts ++ [.regs, .seqs, .pwms]) s s' := by
  refine runLive_reach (V := [.regs, .seqs, .pwms]) ?_ h
  refine Reach.step (State.testReset_reach ..) rfl ?_
  exact .refl

theorem execSupOverload_reach {s s' : State} (n : Fin 4)
    (h : execSupOverload n s = .next s') : Reach (concludedParts ++ [.regs, .power]) s s' := by
  refine runLive_reach (V := [.regs, .power]) ?_ h
  refine Reach.step (State.supOverload_reach ..) rfl ?_
  exact .refl

theorem execSupOff_reach {s s' : State} (n : Fin 4)
    (h : execSupOff n s = .next s') : Reach (concludedParts ++ [.regs, .power]) s s' := by
  refine runLive_reach (V := [.regs, .power]) ?_ h
  refine Reach.step (State.supTrip_reach ..) rfl ?_
  exact .refl

theorem execSupRetry_reach {s s' : State} (n : Fin 4)
    (h : execSupRetry n s = .next s') : Reach (concludedParts ++ [.regs]) s s' := by
  refine runLive_reach (V := [.regs]) ?_ h
  refine Reach.step (State.supRetry_reach ..) rfl ?_
  exact .refl

theorem execOverloadEnd_reach {s s' : State} (n : Fin 4)
    (h : execOverloadEnd n s = .next s') : Reach (concludedParts ++ [.regs]) s s' := by
  refine runLive_reach (V := [.regs]) ?_ h
  refine Reach.step (State.supEnd_reach ..) rfl ?_
  exact .refl

theorem execClockFail_reach {s s' : State} (code : FailCode)
    (h : execClockFail code s = .next s') : Reach (concludedParts ++ [.power, .clkStopAt, .pwms, .den]) s s' := by
  refine runLive_reach (V := [.power, .clkStopAt, .pwms, .den]) ?_ h
  refine Reach.step (State.clockFail_reach ..) rfl ?_
  exact .refl

theorem execClockRecovery_reach {s s' : State}
    (h : execClockRecovery s = .next s') : Reach (concludedParts ++ effectParts28) s s' := by
  refine runLive_reach (V := effectParts28) ?_ h
  refine Reach.step (State.clockRecover_reach ..) rfl ?_
  exact .refl

theorem execOscillatorWindowLeave_reach {s s' : State}
    (h : execOscillatorWindowLeave s = .next s') : Reach (concludedParts ++ [.den, .power]) s s' := by
  refine run_reach (V := [.den, .power]) ?_ h
  refine Reach.step (State.oscLeave_reach ..) rfl ?_
  exact .refl

theorem execDormantEntryDone_reach {s s' : State}
    (h : execDormantEntryDone s = .next s') : Reach (concludedParts ++ [.regs, .dmas, .pcie, .change, .power]) s s' := by
  refine runLive_reach (V := [.regs, .dmas, .pcie, .change, .power]) ?_ h
  refine Reach.step (State.dormantDone_reach ..) rfl ?_
  exact .refl

theorem execWakeWheel_reach {s s' : State} (w : Fin 8)
    (h : execWakeWheel w s = .next s') : Reach (concludedParts ++ [.power]) s s' := by
  refine run_reach (V := [.power]) ?_ h
  refine Reach.step (State.wakeWheel_reach ..) rfl ?_
  exact .refl

theorem execWakePin_reach {s s' : State}
    (h : execWakePin s = .next s') : Reach (concludedParts ++ [.power]) s s' := by
  refine run_reach (V := [.power]) ?_ h
  refine Reach.step (State.wakePin_reach ..) rfl ?_
  exact .refl

theorem execWakeTimer_reach {s s' : State}
    (h : execWakeTimer s = .next s') : Reach (concludedParts ++ [.power]) s s' := by
  refine run_reach (V := [.power]) ?_ h
  refine Reach.step (State.wakeTimer_reach ..) rfl ?_
  exact .refl

theorem execWakeRelease_reach {s s' : State}
    (h : execWakeRelease s = .next s') : Reach (concludedParts ++ effectParts5) s s' := by
  refine run_reach (V := effectParts5) ?_ h
  refine Reach.step (State.wakeRelease_reach ..) rfl ?_
  exact .refl

theorem execFirstEdgeCatch_reach {s s' : State} (w : Fin 8) (stamp : Nat) (rising : Bool)
    (h : execFirstEdgeCatch w stamp rising s = .next s') : Reach (concludedParts ++ [.power]) s s' := by
  refine run_reach (V := [.power]) ?_ h
  refine Reach.step (State.firstCatch_reach ..) rfl ?_
  exact .refl


/-! ### Wheels.lean -/

theorem execWfeCrossing_reach {s s' : State} (w : Fin 8) (stamp : Nat) (rising : Bool)
    (h : execWfeCrossing w stamp rising s = .next s') : Reach (concludedParts ++ [.regs, .doms]) s s' := by
  refine runEv_reach (V := [.regs, .doms]) ?_ h
  refine Reach.step (State.wfeCross_reach ..) rfl ?_
  exact .refl

theorem execPeakDecay_reach {s s' : State} (w : Fin 8)
    (h : execPeakDecay w s = .next s') : Reach (concludedParts ++ [.regs]) s s' := by
  refine runEv_reach (V := [.regs]) ?_ h
  refine Reach.step (State.peakDecay_reach ..) rfl ?_
  exact .refl

theorem execDetectorArm_reach {s s' : State} (w : Fin 8) (peak : BitVec 16)
    (h : execDetectorArm w peak s = .next s') : Reach (concludedParts ++ [.armAt, .regs, .doms]) s s' := by
  refine runEv_reach (V := [.armAt, .regs, .doms]) ?_ h
  refine Reach.step (State.detectorArm_reach ..) rfl ?_
  exact .refl

theorem execEdgeAccept_reach {s s' : State} (d : Fin 4) (phase : Bool)
    (h : execEdgeAccept d phase s = .next s') : Reach (concludedParts ++ [.regs, .doms]) s s' := by
  refine runEv_reach (V := [.regs, .doms]) ?_ h
  refine Reach.step (State.edgeAccept_reach ..) rfl ?_
  exact .refl

theorem execPrimaryEdge_reach {s s' : State} (d : Fin 4)
    (h : execPrimaryEdge d s = .next s') : Reach (concludedParts ++ effectParts29) s s' := by
  refine runEv_reach (V := effectParts29) ?_ h
  refine Reach.step (State.primaryEdge_reach ..) rfl ?_
  exact .refl

theorem execPhaseEdge_reach {s s' : State} (d : Fin 4)
    (h : execPhaseEdge d s = .next s') : Reach (concludedParts ++ effectParts30) s s' := by
  refine runEv_reach (V := effectParts30) ?_ h
  refine Reach.step (State.phaseEdge_reach ..) rfl ?_
  exact .refl

theorem execStall_reach {s s' : State} (d : Fin 4)
    (h : execStall d s = .next s') : Reach (concludedParts ++ effectParts31) s s' := by
  refine runEv_reach (V := effectParts31) ?_ h
  refine Reach.step (State.stallEvent_reach ..) rfl ?_
  exact .refl

theorem execDesync_reach {s s' : State} (src : Src) (d : Fin 4)
    (h : execDesync src d s = .next s') : Reach (concludedParts ++ hostParts) s s' := by
  refine runPer_reach (V := hostParts) ?_ h
  refine Reach.step (State.hostStore_reach ..) rfl ?_
  exact .refl

theorem execReseed_reach {s s' : State} (src : Src) (d : Fin 4)
    (h : execReseed src d s = .next s') : Reach (concludedParts ++ hostParts) s s' := by
  refine runPer_reach (V := hostParts) ?_ h
  refine Reach.step (State.hostStore_reach ..) rfl ?_
  exact .refl

theorem execAngleClamp_reach {s s' : State} (d : Fin 4)
    (h : execAngleClamp d s = .next s') : Reach (concludedParts ++ [.doms, .regs]) s s' := by
  refine runEv_reach (V := [.doms, .regs]) ?_ h
  refine Reach.step (State.clampEvent_reach ..) rfl ?_
  exact .refl

theorem execCycleBoundary_reach {s s' : State} (d : Fin 4)
    (h : execCycleBoundary d s = .next s') : Reach (concludedParts ++ effectParts32) s s' := by
  refine runEv_reach (V := effectParts32) ?_ h
  refine Reach.step (State.cycleBoundary_reach ..) rfl ?_
  exact .refl

theorem execTclSwap_reach {s s' : State} (src : Src) (d : Fin 4)
    (h : execTclSwap src d s = .next s') : Reach (concludedParts ++ hostParts) s s' := by
  refine runPer_reach (V := hostParts) ?_ h
  refine Reach.step (State.hostStore_reach ..) rfl ?_
  exact .refl

theorem execTclRestart_reach {s s' : State} (src : Src) (d : Fin 4)
    (h : execTclRestart src d s = .next s') : Reach (concludedParts ++ hostParts) s s' := by
  refine runPer_reach (V := hostParts) ?_ h
  refine Reach.step (State.hostStore_reach ..) rfl ?_
  exact .refl

theorem execCorrectionBankWrite_reach {s s' : State} (src : Src) (d : Fin 4) (b : Fin 2) (k : Fin 1024) (v : Word)
    (h : execCorrectionBankWrite src d b k v s = .next s') : Reach (concludedParts ++ hostParts) s s' := by
  refine runPer_reach (V := hostParts) ?_ h
  refine Reach.step (State.hostMem_reach ..) rfl ?_
  exact .refl

theorem execMapWrite_reach {s s' : State} (src : Src) (off : Nat) (v : Word)
    (h : execMapWrite src off v s = .next s') : Reach (concludedParts ++ hostParts) s s' := by
  refine runPer_reach (V := hostParts) ?_ h
  refine Reach.step (State.hostMem_reach ..) rfl ?_
  exact .refl

end Sys2Proof.Machine
end

