-- ==== Sys2Proof/Laws/Concluded.lean ====
section
/-! SUPPORT. The end of a command, said once: what it adds to the state that the command's effect leaves. -/

namespace Sys2Proof.Machine

theorem State.Inv.regsOk {s : State} (h : s.Inv) : s.regsOk := (Bool.and_eq_true_iff.1 h.regs).1

theorem State.Inv.fnsRising {s : State} (h : s.Inv) : Tab.rising s.pcie.fns = true := (Bool.and_eq_true_iff.1 h.fns).1

theorem State.fn_setFn {s : State} (h : Tab.rising s.pcie.fns = true) (f g : Nat) (x : PcieFn) :
    (s.setFn f x).fn g = if g = f then x else s.fn g := by
  unfold State.fn State.setFn
  dsimp only
  rw [Tab.get_set _ _ _ _ h]

/-- Without entries the flush of the error log changes nothing. -/
theorem State.logFlush_nil {s : State} (h : s.logNew = []) (m : Nat) : s.logFlush m = s := by
  unfold State.logFlush
  have e : ({ s with logNew := [] } : State) = s := by rw [← h]
  simp [h, e]

/-- What delivery does, with the canonical order that each of its steps needs. -/
structure Delivered (u t : State) : Prop extends State.Delivers u t where
  regsOk : t.regsOk
  rising : Tab.rising t.pcie.fns = true

namespace Delivered
variable {u t : State}

theorem refl (h : u.regsOk) (hf : Tab.rising u.pcie.fns = true) : Delivered u u :=
  ⟨⟨rfl, fun _ _ _ => rfl, rfl, fun _ => rfl, ⟨[], by simp⟩, fun _ => rfl⟩, h, hf⟩

theorem sendMsi (h : Delivered u t) (g v pri : Nat) : Delivered u (t.sendMsi g v pri) := by
  refine ⟨⟨?_, h.fields, ?_, h.fns, ?_, h.clocks⟩, h.regsOk, h.rising⟩
  · rw [h.parts]; rfl
  · show ({ t.pcie with due := _ } : Pcie) = _
    rw [h.pcie]; rfl
  · obtain ⟨l, hl⟩ := h.due
    exact ⟨_, (congrArg (· ++ [_]) hl).trans (List.append_assoc ..)⟩

theorem sent (h : Delivered u t) (g v : Nat) : Delivered u (t.setFn g { t.fn g with sent := v }) := by
  refine ⟨⟨?_, h.fields, ?_, fun f => ?_, h.due, h.clocks⟩, h.regsOk, Tab.rising_set _ _ _ h.rising⟩
  · rw [h.parts]; rfl
  · show ({ t.pcie with fns := _ } : Pcie) = _
    rw [h.pcie]; rfl
  · rw [State.fn_setFn h.rising]
    split
    · rename_i e; subst e
      conv => lhs; rw [h.fns]
    · exact h.fns f

theorem sendIdle (h : Delivered u t) (e : Nat × Nat × Nat) : Delivered u (t.sendIdle e) := by
  unfold State.sendIdle
  split
  · exact (h.sent _ _).sendMsi _ _ _
  · exact h

theorem sendAll (l : List (Nat × Nat × Nat)) : ∀ t, Delivered u t → Delivered u (l.foldl State.sendIdle t) := by
  induction l with
  | nil => exact fun _ h => h
  | cons e r ih => exact fun t h => ih _ (h.sendIdle e)

end Delivered

/-- The end of a command, on every state that its effect can leave. -/
theorem State.concluded_endOf {u : State} (h : u.Inv) (m : Nat) : u.EndOf m (u.concluded m) := by
  have hi := (State.logFlush_reach u m).inv h
  have hr := hi.regsOk
  have hf := hi.fnsRising
  unfold State.EndOf State.concluded
  generalize u.logFlush m = w at hr hf
  have h1 : Delivered w w.debugSettle := by
    unfold State.debugSettle
    split
    · rename_i hc
      refine ⟨⟨rfl, ?_, rfl, fun _ => rfl, ⟨[], by simp⟩, ?_⟩, State.setFld_regsOk _ _ _ hr, hf⟩
      · intro f i h2
        show (State.fld (w.setFld _ _ _) _ _) = _
        rw [State.fld_setFld hr, if_neg (by simp [h2])]
      · intro hh; simp [hh] at hc
    · exact .refl hr hf
  show w.Delivers (if !w.live then w else if w.perStopped then w.debugSettle else w.debugSettle.icuDeliver)
  split
  · exact (Delivered.refl hr hf).toDelivers
  · split
    · exact h1.toDelivers
    · exact (Delivered.sendAll _ _ h1).toDelivers

/-- The meaning of a command, from the state that its effect leaves. -/
theorem run_ends {s u : State} {f : State → State} {c : Instr} (he : exec c s = run s f) (hu : f s = u) (hi : u.Inv) :
    Ends c s u := ⟨_, he, by subst hu; exact State.concluded_endOf hi _⟩

/-- The meaning of a command on a live state, from the state that its effect leaves. -/
theorem runLive_ends {s u : State} {f : State → State} {c : Instr} (he : exec c s = runLive s f) (hs : s.live = true)
    (hu : f s = u) (hi : u.Inv) : Ends c s u := run_ends he (by rw [if_pos hs, hu]) hi

/-- No clock has failed while all are up. -/
theorem State.up_iff {s : State} : s.up = true ↔ s.live = true ∧ s.power.forced = false := by simp [State.up]

theorem State.up_live {s : State} (h : s.up = true) : s.live = true := (State.up_iff.1 h).1

theorem State.up_evStopped {s : State} (h : s.up = true) : s.evStopped = false := by
  simp [State.evStopped, (State.up_iff.1 h).2]

theorem State.up_perStopped {s : State} (h : s.up = true) : s.perStopped = false := by
  simp [State.perStopped, (State.up_iff.1 h).2]

theorem State.up_seqStopped {s : State} (h : s.up = true) : s.seqStopped = s.flag .DBG_STAT_CLK_STOPPED := by
  simp [State.seqStopped, State.up_evStopped h, (State.up_iff.1 h).2]

/-- The meaning of a command of the sequencers' clock. -/
theorem runSeq_ends {s u : State} {f : State → State} {c : Instr} (he : exec c s = runSeq s f) (hs : s.live = true)
    (hc : s.seqStopped = false) (hu : f s = u) (hi : u.Inv) : Ends c s u := runLive_ends he hs (by simp [hc, hu]) hi

/-- The meaning of a command of the event clock. -/
theorem runEv_ends {s u : State} {f : State → State} {c : Instr} (he : exec c s = runEv s f) (hs : s.up = true)
    (hu : f s = u) (hi : u.Inv) : Ends c s u :=
  runLive_ends he (State.up_live hs) (by simp [State.up_evStopped hs, hu]) hi

/-- The meaning of a command of the peripheral clock. -/
theorem runPer_ends {s u : State} {f : State → State} {c : Instr} (he : exec c s = runPer s f) (hs : s.up = true)
    (hu : f s = u) (hi : u.Inv) : Ends c s u :=
  runLive_ends he (State.up_live hs) (by simp [State.up_perStopped hs, hu]) hi

end Sys2Proof.Machine
end

