-- ==== Sys2Proof/Laws/Memory.lean ====
section
/-! SUPPORT. The laws of the memories: a read after a write, and the canonical form that every write keeps. -/

namespace Sys2Proof.Machine

theorem Memory.wf_rising {m : List Host.Cell} (h : Memory.wf m = true) : Tab.rising m = true := by
  simp only [Memory.wf, Bool.and_eq_true] at h
  exact h.1

/-- A stored byte keeps the canonical form. -/
theorem State.setByte_wf {s : State} (h : Memory.wf s.mem = true) (a : Nat) (b : Byte) : Memory.wf (s.setByte a b).mem = true := by
  simp only [Memory.wf, Bool.and_eq_true] at h ⊢
  refine ⟨Tab.rising_put _ _ h.1, ?_⟩
  unfold State.setByte Tab.every
  refine List.all_eq_true.2 fun e he => ?_
  rcases Tab.mem_put he with hm | hm
  · exact List.all_eq_true.1 h.2 e hm
  · split at hm <;> simp_all

/-- The byte stored is read, and every other byte is as it was. -/
theorem State.byte_setByte {s : State} (h : Memory.wf s.mem = true) (a b : Nat) (v : Byte) :
    (s.setByte a v).byte b = if b = a then v else s.byte b := by
  unfold State.byte State.setByte
  simp only [Tab.find_put _ _ _ (Memory.wf_rising h)]
  by_cases hb : b = a
  · subst hb
    by_cases hv : v = memDefault b <;> simp [hv]
  · simp [hb]

/-- A word stored under byte enables keeps the canonical form. -/
theorem State.setBytes_wf {s : State} (h : Memory.wf s.mem = true) (a be v : Nat) : Memory.wf (s.setBytes a be v).mem = true := by
  unfold State.setBytes
  generalize upto 4 = l
  induction l generalizing s with
  | nil => exact h
  | cons j l ih =>
    simp only [List.foldl_cons]
    split
    · exact ih (State.setByte_wf h ..)
    · exact ih h

/-- The enabled bytes are read as stored, and every other byte is as it was. -/
theorem State.byte_setBytes {s : State} (h : Memory.wf s.mem = true) (a be v b : Nat) :
    (s.setBytes a be v).byte b =
      if a ≤ b ∧ b < a + 4 ∧ bitN be (b - a) = true then BitVec.ofNat 8 (v / 256 ^ (b - a)) else s.byte b := by
  have step : ∀ {t : State}, Memory.wf t.mem = true → ∀ j, 
      (Memory.wf (if bitN be j then t.setByte (a + j) (BitVec.ofNat 8 (v / 256 ^ j)) else t).mem = true ∧
      (if bitN be j then t.setByte (a + j) (BitVec.ofNat 8 (v / 256 ^ j)) else t).byte b =
        if b = a + j ∧ bitN be j = true then BitVec.ofNat 8 (v / 256 ^ j) else t.byte b) := by
    intro t ht j
    by_cases hj : bitN be j = true
    · simp only [hj, if_true, and_true]
      exact ⟨State.setByte_wf ht .., State.byte_setByte ht ..⟩
    · simp only [hj]
      exact ⟨ht, by simp⟩
  have e : upto 4 = [0, 1, 2, 3] := rfl
  unfold State.setBytes
  simp only [e, List.foldl_cons, List.foldl_nil]
  obtain ⟨w0, r0⟩ := step h 0
  obtain ⟨w1, r1⟩ := step w0 1
  obtain ⟨w2, r2⟩ := step w1 2
  obtain ⟨w3, r3⟩ := step w2 3
  rw [r3, r2, r1, r0]
  by_cases hb : a ≤ b ∧ b < a + 4
  · obtain ⟨k, rfl⟩ : ∃ k, b = a + k := ⟨b - a, by omega⟩
    have hk : k = 0 ∨ k = 1 ∨ k = 2 ∨ k = 3 := by omega
    rcases hk with rfl | rfl | rfl | rfl <;> simp
  · have : ∀ j, j < 4 → ¬ (b = a + j) := by omega
    have h0 := this 0 (by omega); have h1 := this 1 (by omega); have h2 := this 2 (by omega); have h3 := this 3 (by omega)
    simp only [h0, h1, h2, h3, false_and, if_false]
    rw [if_neg]
    omega

/-- A word stored is read back. -/
theorem State.word_setWord {s : State} (h : Memory.wf s.mem = true) (a v : Nat) : (s.setWord a v).word a = v % 2 ^ 32 := by
  have hb : ∀ j, j < 4 → ((s.setWord a v).byte (a + j)).toNat = v / 256 ^ j % 256 := by
    intro j hj
    unfold State.setWord
    rw [State.byte_setBytes h, if_pos]
    · rw [Nat.add_sub_cancel_left, BitVec.toNat_ofNat]
    · refine ⟨by omega, by omega, ?_⟩
      rw [Nat.add_sub_cancel_left]
      have hj : j = 0 ∨ j = 1 ∨ j = 2 ∨ j = 3 := by omega
      rcases hj with rfl | rfl | rfl | rfl <;> decide
  have h0 := hb 0 (by omega); have h1 := hb 1 (by omega); have h2 := hb 2 (by omega); have h3 := hb 3 (by omega)
  simp only [State.word, State.bytesAt, Nat.add_assoc]
  simp only [Nat.add_zero, Nat.reduceAdd] at h0 h1 h2 h3 ⊢
  rw [h0, h1, h2, h3]
  omega

/-- A range of memory cleared keeps the canonical form. -/
theorem State.clearMem_wf {s : State} (h : Memory.wf s.mem = true) (lo hi : Nat) : Memory.wf (s.clearMem lo hi).mem = true := by
  simp only [Memory.wf, Bool.and_eq_true] at h ⊢
  refine ⟨Tab.rising_filter _ h.1, ?_⟩
  refine List.all_eq_true.2 fun e he => List.all_eq_true.1 h.2 e (List.mem_filter.1 he).1

/-- What a table kept by its keys lists. -/
theorem Tab.find_filter {α : Type} {t : Tab α} (p : Nat → Bool) (k : Nat) (h : Tab.rising t = true) :
    Tab.find (t.filter fun e => p e.1) k = if p k then Tab.find t k else none := by
  induction t with
  | nil => simp [Tab.find]
  | cons e r ih =>
    have hr := (Tab.rising_cons e r).1 h
    by_cases hk : k = e.1
    · subst hk
      by_cases hp : p e.1 = true
      · simp [hp, Tab.find]
      · have ha : Tab.find (r.filter fun e => p e.1) e.1 = none :=
          Tab.find_above fun x hx => hr.1 x (List.mem_filter.1 hx).1
        simp [hp, ha]
    · by_cases hlt : k < e.1
      · have ha : Tab.find (r.filter fun e => p e.1) k = none :=
          Tab.find_above fun x hx => Nat.lt_trans hlt (hr.1 x (List.mem_filter.1 hx).1)
        by_cases hp : p e.1 = true <;> simp [hp, ha, Tab.find, hk, hlt]
      · by_cases hp : p e.1 = true <;> simp [hp, Tab.find, hk, hlt, ih hr.2]

/-- A cleared range reads as after reset, and every other byte is as it was. -/
theorem State.byte_clearMem {s : State} (h : Memory.wf s.mem = true) (lo hi a : Nat) :
    (s.clearMem lo hi).byte a = if lo ≤ a ∧ a < hi then memDefault a else s.byte a := by
  unfold State.byte State.clearMem
  rw [Tab.find_filter (fun k => decide (k < lo) || decide (hi ≤ k)) a (Memory.wf_rising h)]
  by_cases hr : lo ≤ a ∧ a < hi
  · rw [if_pos hr, if_neg]
    · rfl
    · simp; omega
  · rw [if_neg hr, if_pos]
    simp; omega

end Sys2Proof.Machine
end

