-- ==== Sys2Proof/Laws/Sequencer.lean ====
section
/-! SUPPORT. The issue of a Phiad instruction, said once: what it does to its sequencer before its own effect, and the result that
most instructions then write. -/

namespace Sys2Proof.Machine

theorem State.Inv.seqsRising {s : State} (h : s.Inv) : Tab.rising s.seqs = true := by
  have := h.seqs
  simp only [seqsOk, Tab.canonical, Bool.and_eq_true] at this
  exact this.1.1

/-- A read of a sequencer after a write of one. -/
theorem State.seq_setSeq {s : State} (h : Tab.rising s.seqs = true) (n m : Nat) (q : Seq) :
    (s.setSeq n q).seq m = if m = n then q else s.seq m := by
  unfold State.seq State.setSeq
  dsimp only
  rw [Tab.get_set _ _ _ _ h]

theorem State.setSeq_rising {s : State} (h : Tab.rising s.seqs = true) (n : Nat) (q : Seq) :
    Tab.rising (s.setSeq n q).seqs = true := Tab.rising_set _ _ _ h

/-- Time that passes to an issue changes nothing else. -/
theorem State.atIssue_eq (s : State) (n : Nat) (o : PhOp) (w : Nat) :
    s.atIssue n o w = { s with tnow := (s.atIssue n o w).tnow, wsNs := (s.atIssue n o w).wsNs } := by
  unfold State.atIssue State.passTo
  split <;> rfl

@[simp] theorem State.atIssue_seq (s : State) (n : Nat) (o : PhOp) (w m : Nat) : (s.atIssue n o w).seq m = s.seq m := by
  rw [State.atIssue_eq]; rfl

@[simp] theorem State.atIssue_x (s : State) (n : Nat) (o : PhOp) (w m k : Nat) : (s.atIssue n o w).x m k = s.x m k := by
  rw [State.atIssue_eq]; rfl

@[simp] theorem State.atIssue_fld (s : State) (n : Nat) (o : PhOp) (w : Nat) (f : Fld) (i : Nat) :
    (s.atIssue n o w).fld f i = s.fld f i := by
  rw [State.atIssue_eq]; rfl

theorem State.atIssue_inv {s : State} (h : s.Inv) (n : Nat) (o : PhOp) (w : Nat) : (s.atIssue n o w).Inv :=
  (State.atIssue_reach s n o w).inv h

/-- The instruction that can issue issues. -/
theorem State.Issues.phiad {s : State} {n w : Nat} {o : PhOp} (h : s.Issues n o w) (body : State → Issue → State) :
    s.phiad n o body =
      body ((s.atIssue n o w).begin { n, pc := (s.seq n).pc, bank := (s.seq n).bank, word := w, c := s.issueCycle n o w }
        (s.readyCycle n o w))
        { n, pc := (s.seq n).pc, bank := (s.seq n).bank, word := w, c := s.issueCycle n o w } := by
  unfold State.phiad
  have hc : s.canIssue n = true := by simp [State.canIssue, h.run, h.clock]
  have he : (Tab.get 0 s.progErr (s.pcAddr n) != 2) = true := by simpa using h.ecc
  simp only [h.word]
  rw [hc, he, h.op, h.map]
  simp

/-- `Within`, with the canonical order that each of its steps needs. -/
structure Kept (s u : State) (n : Nat) (fs : List Fld) : Prop extends State.Within s u n fs where
  regsOk : u.regsOk
  rising : Tab.rising u.seqs = true

namespace Kept
variable {s u : State} {n : Nat} {fs : List Fld}

theorem refl (h : s.Inv) (n : Nat) (fs : List Fld) : Kept s s n fs :=
  ⟨⟨rfl, fun _ _ => rfl, fun _ _ _ => rfl⟩, h.regsOk, h.seqsRising⟩

theorem setFld (h : Kept s u n fs) (hn : n < 1024) (f : Fld) (v : Nat) (hf : f ∈ issueCounters ∨ f ∈ fs) :
    Kept s (u.setFld f n v) n fs := by
  refine ⟨⟨?_, h.others, fun g j hg => ?_⟩, State.setFld_regsOk _ _ _ h.regsOk, h.rising⟩
  · rw [h.parts]; rfl
  · rw [State.fld_setFld h.regsOk, if_neg]
    · exact h.fields g j hg
    · rintro ⟨rfl, hj⟩
      exact hg ⟨by rw [hj, Nat.mod_eq_of_lt hn], hf⟩

theorem setSeq (h : Kept s u n fs) (q : Seq) : Kept s (u.setSeq n q) n fs := by
  refine ⟨⟨?_, fun m hm => ?_, h.fields⟩, h.regsOk, State.setSeq_rising h.rising _ _⟩
  · rw [h.parts]; rfl
  · rw [State.seq_setSeq h.rising, if_neg hm]; exact h.others m hm

theorem seq_self (h : Kept s u n fs) (q : Seq) : (u.setSeq n q).seq n = q := by
  rw [State.seq_setSeq h.rising, if_pos rfl]

end Kept

theorem State.bump_kept {s u : State} {n : Nat} {fs : List Fld} (h : Kept s u n fs) (hn : n < 1024) (f : Fld) (k : Nat)
    (hf : f ∈ issueCounters ∨ f ∈ fs) : Kept s (u.bumpBy f n k) n fs ∧ (u.bumpBy f n k).seq n = u.seq n :=
  ⟨h.setFld hn f _ hf, rfl⟩

/-- What an issue does: counters, PC, and the earliest next issue. -/
theorem State.begin_kept {s : State} (hs : s.Inv) (i : Issue) (ready : Nat) (hn : i.n < 1024) (fs : List Fld) :
    Kept s (s.begin i ready) i.n fs ∧
    (s.begin i ready).seq i.n = { s.seq i.n with
      pc := (i.pc + 1) % 2048, nextIssue := i.c + 1, waite := none, safeAt := none } := by
  unfold State.begin
  extract_lets u v
  obtain ⟨h1, e1⟩ : Kept s u i.n fs ∧ u.seq i.n = s.seq i.n :=
    State.bump_kept (.refl hs i.n fs) hn .SEQ_CNT_STALL _ (.inl (by decide))
  have h2 : Kept s v i.n fs ∧ v.seq i.n = u.seq i.n := by
    unfold v
    split
    · exact State.bump_kept h1 hn .SEQ_CNT_ECC 1 (.inl (by decide))
    · exact ⟨h1, rfl⟩
  refine ⟨h2.1.setSeq _, ?_⟩
  rw [State.modSeq_eq, h2.1.seq_self, h2.2, e1]

/-- What a result does: register `rd`, and the cycle from which it can be read. -/
theorem State.result_kept {s u : State} {n : Nat} {fs : List Fld} (h : Kept s u n fs) (hx : Tab.rising (u.seq n).xs = true)
    (hd : Tab.rising (u.seq n).ready = true) (i : Issue) (hi : i.n = n) (rd v lat : Nat) :
    Kept s (u.result i rd v lat) n fs ∧
    (∀ k, (u.result i rd v lat).x n k = if k = rd ∧ k ≠ 0 then v % 2 ^ 32 else u.x n k) ∧
    (∃ xs rdy, (u.result i rd v lat).seq n = { u.seq n with xs := xs, ready := rdy } ∧
      (rd ≠ 0 → Tab.get 0 rdy rd = i.c + lat) ∧ Tab.rising xs = true ∧ Tab.rising rdy = true) := by
  subst hi
  unfold State.result State.setX
  by_cases hrd : rd = 0
  · subst hrd
    simp only [if_pos, State.modSeq_eq]
    refine ⟨h.setSeq _, fun k => ?_, (u.seq i.n).xs, (u.seq i.n).ready, ?_, by simp, hx, hd⟩
    · unfold State.x
      rw [h.seq_self]
      by_cases hk : k = 0 <;> simp [hk]
    · rw [h.seq_self]
  · simp only [if_neg hrd, State.modSeq_eq]
    have h1 := h.setSeq { u.seq i.n with xs := Tab.set 0 (u.seq i.n).xs rd (v % 2 ^ 32) }
    refine ⟨h1.setSeq _, fun k => ?_, Tab.set 0 (u.seq i.n).xs rd (v % 2 ^ 32), _, ?_, fun _ => ?_, Tab.rising_set _ _ _ hx,
      Tab.rising_put rd (some (i.c + lat)) hd⟩
    · unfold State.x
      rw [h1.seq_self, h.seq_self]
      dsimp only
      rw [Tab.get_set _ _ _ _ hx]
      by_cases h0 : k = 0
      · subst h0; simp
      · by_cases hk : k = rd <;> simp [h0, hk, hrd]
    · rw [h1.seq_self, h.seq_self]
    · unfold Tab.get
      rw [Tab.find_put_self _ _ hd]; rfl

end Sys2Proof.Machine
end

