-- ==== Sys2Proof/Laws/Results.lean ====
section
/-! SUPPORT. The results of Phiad instructions: what writing one result changes, and when it completes. -/

namespace Sys2Proof.Machine

/-- Every sequencer meets its part of the invariant. -/
theorem State.Inv.seqOk {s : State} (h : s.Inv) (n) : (s.seq n).ok = true := by
  have h1 := h.seqs
  simp only [seqsOk, Bool.and_eq_true] at h1
  unfold State.seq
  unfold Tab.get
  cases hf : Tab.find s.seqs n with
  | none => rfl
  | some q => 
    have := List.all_eq_true.1 h1.2 _ (Tab.mem_of_find hf)
    exact this

/-- A register of a sequencer holds 32 bits. -/
theorem State.Inv.x_lt {s : State} (h : s.Inv) (n k) : s.x n k < 2 ^ 32 := by
  have h1 := State.Inv.seqOk h n
  simp only [Seq.ok, Bool.and_eq_true] at h1
  unfold State.x
  split
  · decide
  · unfold Tab.get
    cases hf : Tab.find (s.seq n).xs k with
    | none => decide
    | some v =>
      have := List.all_eq_true.1 h1.1.1.2 _ (Tab.mem_of_find hf)
      simp at this
      exact this.2

/-- The registers and the latencies of a sequencer are in their canonical form. -/
theorem State.Inv.xs {s : State} (h : s.Inv) (n) : Tab.rising (s.seq n).xs = true ∧ Tab.rising (s.seq n).ready = true := by
  have h1 := State.Inv.seqOk h n
  simp only [Seq.ok, Bool.and_eq_true] at h1
  exact ⟨h1.1.1.1, h1.2⟩

/-- An instruction that writes a result moves on with that result, and changes nothing else. -/
theorem result_writes {s : State} {n w : Nat} {o : PhOp} (h : s.Issues n o w) (hn : n < 1024) (rd v lat : Nat) (hv : v < 2 ^ 32) (i : Issue)
    (hi : i = { n, pc := (s.seq n).pc, bank := (s.seq n).bank, word := w, c := s.issueCycle n o w }) :
    s.Writes (((s.atIssue n o w).begin i (s.readyCycle n o w)).result i rd v lat) n o w rd v lat := by
  have hs := State.atIssue_inv h.sound.inv n o w
  obtain ⟨h1, e1⟩ := State.begin_kept hs i (s.readyCycle n o w) (by rw [hi]; exact hn) []
  have hin : i.n = n := by rw [hi]
  rw [hin] at h1 e1
  rw [State.atIssue_seq] at e1
  have hx := State.Inv.xs h.sound.inv n
  obtain ⟨h2, hk, xs, rdy, e2, hr, -, -⟩ := State.result_kept h1 (by rw [e1]; exact hx.1) (by rw [e1]; exact hx.2) i hin rd v lat
  constructor
  · refine ⟨h2.toWithin, fun k => ?_, ?_, ?_, ?_⟩
    · rw [hk, State.withX, Nat.mod_eq_of_lt hv]
      congr 1
      unfold State.x; rw [e1]
    · rw [e2, e1, hi]; rfl
    · rw [e2, e1, hi]
    · rw [e2, e1]; rfl
  · intro h0; rw [e2, hr h0, hi]

/-- An instruction whose body is a result completes with it. -/
theorem writes_ends {s : State} {n w : Nat} {o : PhOp} {c : Instr} (h : s.Issues n o w) (hn : n < 1024) (rd v lat : Nat)
    (hv : v < 2 ^ 32) (body : State → Issue → State)
    (he : exec c s = runLive s fun s => s.phiad n o body)
    (hb : ∀ u i, i.n = n → i.word = w → (∀ k, u.x n k = s.x n k) → body u i = u.result i rd v lat) :
    EndsIn c s fun u => s.Writes u n o w rd v lat := by
  obtain ⟨i, hi⟩ : ∃ i : Issue, i = { n, pc := (s.seq n).pc, bank := (s.seq n).bank, word := w, c := s.issueCycle n o w } := ⟨_, rfl⟩
  refine ⟨_, result_writes h hn rd v lat hv i hi, runLive_ends he h.live ?_ ?_⟩
  · rw [h.phiad, ← hi]
    apply hb _ _ (by rw [hi]) (by rw [hi])
    intro k
    have := (State.begin_kept (State.atIssue_inv h.sound.inv n o w) i (s.readyCycle n o w) (by rw [hi]; exact hn) []).2
    have hn' : i.n = n := by rw [hi]
    rw [hn', State.atIssue_seq] at this
    unfold State.x
    rw [this]
  · exact ((State.result_reach ..).trans .refl).inv ((State.begin_reach ..).inv (State.atIssue_inv h.sound.inv n o w))

/-- Sign extension is the value as a signed number. -/
theorem sextN_toInt {w v : Nat} (hw : 0 < w) : sextN w v = (BitVec.ofNat w v).toInt := by
  unfold sextN
  rw [BitVec.toInt_eq_toNat_cond, BitVec.toNat_ofNat]
  have : 2 ^ w = 2 * 2 ^ (w - 1) := by rw [← Nat.pow_succ']; congr 1; omega
  split <;> split <;> omega

/-- Wrapping an integer is taking its low bits. -/
theorem wrapI_ofInt (w : Nat) (z : Int) : wrapI w z = (BitVec.ofInt w z).toNat := by
  unfold wrapI
  rw [BitVec.toNat_ofInt]

end Sys2Proof.Machine
end

