-- ==== Sys2Proof/WellFormed.lean ====
section
/-! DEFINITION. Well-formed commands: the operands that the manual's own ranges and frame formats admit. The ranges of
channel, engine and register numbers lie in the types of the operands already. -/

namespace Sys2Proof

/-- A stamp in 125 ps units: TNOW × 8 plus three bits (R4, R24). -/
def stampOk (stamp : Nat) : Bool := decide (stamp < 8 * 2 ^ 64)

/-- The offset of a word of a tooth map, of a phase map, or of MAPCFG or TMAP_OFFSET of a domain (R28, R30, R32). -/
def mapOffset (off : Nat) : Bool :=
  off % 4 == 0 && (upto 4).any fun d =>
    let base := 0x80000 + d * 0x10000
    decide (base ≤ off ∧ off < base + 0x1FF8) || decide (base + 0x2000 ≤ off ∧ off < base + 0x21F8) ||
      decide (off = 0x40000 + d * 0x1000 + 0x010) || decide (off = 0x40000 + d * 0x1000 + 0x014)

/-- Only a PCIe function reaches the spaces beside the unified map (R299, R347). -/
def spaceOk (src : Src) (space : Space) : Bool :=
  match src, space with
  | .f _, _ => true
  | _, .bar0 => true
  | _, _ => false

/-- An access of more than one word: only a PCIe function makes one, and not in the configuration space; a request carries at
most `most` words more than its first (R323, R344). -/
def wideOk (src : Src) (space : Space) (more most : Nat) : Bool :=
  match src, space with
  | .f _, .bar0 | .f _, .bar1 => decide (more ≤ most)
  | _, _ => more == 0

/-- Poisoned data arrive only in a memory write of a PCIe function (R352). -/
def poisonOk (src : Src) (space : Space) (poisoned : Bool) : Bool :=
  match src, space with
  | .f _, .bar0 | .f _, .bar1 => true
  | _, _ => !poisoned

/-- A command is well-formed: stamps and instants lie in the range of TNOW, map writes name a map word, an access names a
space that its source has, and the frames of the link and of the bus have the lengths of R304, R376 and R388. -/
def Instr.wf : Instr → Bool
  | .wfeCrossing _ stamp _ => stampOk stamp
  | .mapWrite _ off _ => mapOffset off
  | .adcConversion _ _ instant => decide (instant < 2 ^ 64)
  | .gioEdge _ _ stamp => decide (stamp < 2 ^ 64)
  | .dmaReadCompletion _ _ (some data) => decide (1 ≤ data.length ∧ data.length ≤ 512)
  | .dmaReadCompletion _ _ none => true
  | .registerWrite src space _ _ d =>
    spaceOk src space && wideOk src space d.rest.length 127 && poisonOk src space d.poisoned
  | .rcRead src space _ be => spaceOk src space && !be.isEmpty && wideOk src space (be.length - 1) 1023
  | .pairLowRead src space _ be => spaceOk src space && !be.isEmpty && wideOk src space (be.length - 1) 1023
  | .mspiFrameDiscard bits frame _ => decide (bits < 72 → frame.toNat < 2 ^ bits)
  | .digest bytes => bytes.length == 32
  | .joinEnd _ len _ => decide (len < 2 ^ 32)
  | .bulk _ _ data => decide (8 ≤ data.length ∧ data.length ≤ 216 ∧ data.length % 8 = 0)
  | .firstEdgeCatch _ stamp _ => stampOk stamp
  | .peakDecay _ | .edgeAccept _ _ | .primaryEdge _ | .phaseEdge _ | .stall _ | .desync _ _ | .reseed _ _
  | .angleClamp _ | .cycleBoundary _ | .tclSwap _ _ | .tclRestart _ _ | .correctionBankWrite _ _ _ _ _
  | .seqStart _ _ | .seqReset _ _ | .seqSwapReq _ _ | .seqFlagsClear _ _ _ | .seqFlagsSet _ _ _
  | .programBankWrite _ _ _ _ _ | .dataMemoryWrite _ _ _ _ | .mapmWrite _ _ _ _ | .progEcc _ | .illegal _ | .add _
  | .sub _ | .and _ | .or _ | .xor _ | .sll _ | .srl _ | .sra _ | .slt _ | .sltu _ | .min _ | .max _ | .minu _
  | .maxu _ | .clamp _ | .clampu _ | .pack _ | .addi _ | .andi _ | .ori _ | .xori _ | .slli _ | .srli _ | .srai _
  | .rori _ | .lui _ | .mulu _ | .muls _ | .mul _ | .mulq _ | .divu _ | .divs _ | .remu _ | .rems _ | .lw _ | .sw _
  | .lmu _ | .lms _ | .lmw _ | .map2 _ | .mapmTransaction _ _ | .a2t _ | .t2a _ | .rds _ | .beq _ | .bne _ | .blt _
  | .bge _ | .bltu _ | .bgeu _ | .bmlt _ | .bmge _ | .jal _ | .jalr _ | .arm _ | .armt _ | .pulse _ | .cancelHandle _
  | .cancelChannel _ | .cancelAll _ | .waita _ | .waitt _ | .waiteTooth _ | .waiteIcu _ | .waiteFence _
  | .waiteEpoch _ | .waiteFlag _ | .taskStart _ | .waiteWake _ | .safept _ | .fence _ | .budget _ | .yield _
  | .halt _ | .handover _ | .handoverTransfer _ | .slotStallResume _ | .budgetExpiry _ | .slotFire _ _ | .svcFire _
  | .svcCfgWrite _ _ _ | .svcTargetWrite _ _ _ | .outOwnerWrite _ _ _ | .completeCapExpiry _ | .modeReqDormant _
  | .modeReqStandby _ | .modeReqSeek _ | .modeReqRun _ _ _ | .modeReqClearing _ | .autoRun | .autoLimp
  | .autoLimpToRun | .modeEpoch | .modeTimeout | .adcCfgWrite _ _ _ | .adcCommit _ _ | .adcCal _ _ | .adcFltReset _ _
  | .adcCalDone _ _ | .ainCfgWrite _ _ _ | .basCfgWrite _ _ _ | .basOpen _ _ | .basClose _ _ | .basCloseOpen _ _
  | .basinLatch _ | .basValueRead _ _ | .basTagRead _ _ | .readInProgressTimeout _ _ | .trkMaxRead _ _
  | .feedDataRead _ _ _ | .wtSwap _ _ | .weightWrite _ _ _ _ _ | .settlingEnd _ | .cmpCrossing _ _ | .cmpFilterPass _
  | .cmpDacWrite _ _ _ | .cmpHoldEnd _ | .pwmCtrlWrite _ _ _ | .pwmBoundary _ | .pwmMidLoad _ | .pwmCompare _
  | .deadtimeExpiry _ _ | .pwmMarker _ _ | .tripFilterPass _ | .tripSw _ _ | .tripClr _ _ | .pwmForceWrite _ _ _
  | .pwmOutcfgWrite _ _ _ | .auxOvercurrent _ | .pwmSyncRestart _ _ | .ioeCtrlWrite _ _ _ | .ioeReset _ _
  | .ioeInject _ _ _ | .ioeGroupStart _ _ | .ioeGroupRephase _ _ | .ioeQoutRead _ _ | .ioeQinWrite _ _ _
  | .ioeFlagsClear _ _ _ | .ioeFlagsSet _ _ _ | .gioCfgWrite _ _ _ | .imemWrite _ _ _ _ | .ioeStepWake _
  | .ioeTimedAction _ | .ioeJmp _ | .ioeWaitp _ | .ioeWaitf _ | .ioeWaiti _ | .ioeWaitt _ | .ioePin _ | .ioeShin _
  | .ioeShout _ | .ioeMov _ | .ioeAdd _ | .ioeSub _ | .meas _ | .setu _ | .crc _ | .push _ | .pull _ | .post _
  | .setf _ | .ioeIrq _ | .ioeHalt _ | .ioeIllegal _ | .icuTgtWrite _ _ _ | .icuEoi _ _ | .msixUnmask _ _
  | .icuSwiSet _ _ _ | .rmgrSource _ | .dmaTail _ _ _ | .dmaCfgWrite _ _ _ | .dmaAbort _ _ | .dmaSkip _ _
  | .dmaRdWrite _ _ _ | .dmaFeedTransfer _ | .completionTimeout _ | .fenceWrite _ _ | .elogRdWrite _ _ | .lostEntry
  | .mspiNop | .mspiRead _ | .mspiWrite _ _ | .mspiClear | .mspiCmdError _ _ _ | .conventionalReset _ | .linkUp _ _
  | .flr _ | .f1BlockReset | .flrHandoverFallback | .pcieForeignAccess _ _ _ | .powerStateChange _ _
  | .pairStartDecide _ _ | .leadConflict | .rmgrRefresh | .denStop | .denSilence | .leadForceOff | .heartbeatSend
  | .heartbeat _ _ _ | .modeFrame _ _ _ _ _ _ | .tokenOffer _ | .tokenAccept _ | .tokenRefuse _ | .tokenAbort _
  | .tokenReleased _ | .joinReq _ | .joinStart _ | .joinAbortFrame _ | .writeFrame _ _ _ _ _ | .linkFrameDiscard
  | .linkDown | .linkRetry | .takeover _ | .pairHandover _ | .pairJoinAbort _ | .idleInstant | .idleWaitExpiry
  | .presentMake | .presentBreak | .debugHalt | .testLogicReset | .powerOnReset _ | .powerOnResetAssert
  | .supOverload _ | .supOff _ | .supRetry _ | .clockFail _ | .clockRecovery | .wakeWheel _ | .wakePin | .wakeTimer
  | .wakeRelease | .detectorArm _ _ | .tripPinChange _ _ | .overloadEnd _ | .oscillatorWindowLeave | .heartbeatMiss
  | .dormantEntryDone | .perstDeassert | .configRetryEnd | .busMasterEnableSet => true

end Sys2Proof
end

