-- ==== Sys2Proof/Tests/Slice0.lean ====
section
/-! SUPPORT. Tests: ill-formed commands, worked examples of the manual, and a witness of the hypotheses of each statement. -/

namespace Sys2Proof.Tests

open Sys2Proof.Machine

/-! ### Well-formed commands: each check refuses one -/

theorem test_wf_stamp : (Instr.wfeCrossing 0 (8 * 2 ^ 64) true).wf = false := by decide
theorem test_wf_stamp_last : (Instr.wfeCrossing 0 (8 * 2 ^ 64 - 1) true).wf = true := by decide
theorem test_wf_mapWrite : (Instr.mapWrite .mspi 0x81FF8 0).wf = false := by decide
theorem test_wf_mapWrite_last : (Instr.mapWrite .mspi 0x81FF4 0).wf = true := by decide
theorem test_wf_adcConversion : (Instr.adcConversion 0 0 (2 ^ 64)).wf = false := by decide
theorem test_wf_gioEdge : (Instr.gioEdge 0 true (2 ^ 64)).wf = false := by decide
theorem test_wf_dmaReadCompletion : (Instr.dmaReadCompletion 0 0 (some [])).wf = false := by decide
theorem test_wf_registerWrite : (Instr.registerWrite .mspi .config 0 15 ⟨0, [], false⟩).wf = false := by decide
theorem test_wf_rcRead : (Instr.rcRead (.dma 0) .config 0 [15]).wf = false := by decide
theorem test_wf_pairLowRead : (Instr.pairLowRead .mspi .config 0 [15]).wf = false := by decide
theorem test_wf_mspiFrameDiscard : (Instr.mspiFrameDiscard 3 8 false).wf = false := by decide
theorem test_wf_digest : (Instr.digest []).wf = false := by decide
theorem test_wf_joinEnd : (Instr.joinEnd 0 (2 ^ 32) 0).wf = false := by decide
theorem test_wf_bulk : (Instr.bulk 0 0 (List.replicate 9 0)).wf = false := by decide
theorem test_wf_firstEdgeCatch : (Instr.firstEdgeCatch 0 (8 * 2 ^ 64) true).wf = false := by decide

/-! ### Words of the opcode table: no row gives bits -/

theorem test_decode_none : Sys2Proof.decodeTableWord 32 0x0800_0000 = none := by decide

/-! ### States for the witnesses -/

/-- The invariant as a test. -/
def soundB (s : State) : Bool :=
  fieldsOk s.regs && Memory.wf s.mem && seqsOk s.seqs && Tab.canonical {} s.doms && Tab.canonical {} s.chans &&
  Tab.canonical {} s.svcs && Tab.canonical {} s.adcs && Tab.canonical {} s.basins && Tab.canonical {} s.feeds &&
  Tab.canonical {} s.cmps && Tab.canonical {} s.trips && Tab.canonical {} s.pwms && Tab.canonical {} s.ioes &&
  Tab.canonical .z s.gio && Tab.canonical {} s.dmas && Tab.canonical {} s.pcie.fns && Tab.rising s.progErr &&
  Tab.rising s.latched && Tab.rising s.heldLow && Tab.rising s.armAt && Tab.rising s.settle && Tab.rising s.trkLatch &&
  Tab.rising s.weightSwap && decide (s.tnow < 2 ^ 64) && s.logNew.isEmpty

theorem sound_of {s : State} (h : soundB s = true) : s.Sound := by
  simp only [soundB, Bool.and_eq_true, decide_eq_true_eq, List.isEmpty_iff] at h
  obtain ⟨⟨⟨⟨⟨⟨⟨⟨⟨⟨⟨⟨⟨⟨⟨⟨⟨⟨⟨⟨⟨⟨⟨⟨a, b⟩, c⟩, d⟩, e⟩, f⟩, g⟩, i⟩, j⟩, k⟩, l⟩, m⟩, n⟩, o⟩, p⟩, q⟩, r⟩, t⟩, u⟩, v⟩, w⟩, x⟩, y⟩, z⟩, h⟩ := h
  exact ⟨⟨a, b, c, d, e, f, g, i, j, k, l, m, n, o, p, q, r, t, u, v, w, x, y, z⟩, h⟩

/-- A source's write takes effect, as a test. -/
def takesB (s : State) (src : Src) (off : Nat) : Bool :=
  soundB s && s.up && s.dmaIdle && s.carries src off && !s.writeBarred off true

theorem takes_of {s : State} {src : Src} {off : Nat} (h : takesB s src off = true) : s.Takes src off := by
  simp only [takesB, Bool.and_eq_true, Bool.not_eq_true'] at h
  obtain ⟨⟨⟨⟨a, b⟩, c⟩, d⟩, e⟩ := h
  exact ⟨⟨sound_of a, b, c⟩, d, e⟩

/-- Sequencer 0 runs at PC 0, with one word there. -/
def loaded (w : Nat) : State :=
  (State.reset.setSeq 0 { State.reset.seq 0 with state := .run }).setWord (State.reset.pcAddr 0) w

/-- Sequencer 0 can issue, as a test. -/
def issuesB (s : State) (o : PhOp) (w : Nat) : Bool :=
  soundB s && s.live && (s.seq 0).state == .run && !s.seqStopped && Tab.get 0 s.progErr (s.pcAddr 0) != 2 &&
    s.word (s.pcAddr 0) == w && phDecode w == some o && !(s.seq 0).mapBlocks o w

theorem issues_of {s : State} {o : PhOp} {w : Nat} (h : issuesB s o w = true) : s.Issues 0 o w := by
  simp only [issuesB, Bool.and_eq_true, Bool.not_eq_true', bne_iff_ne, beq_iff_eq, ne_eq] at h
  obtain ⟨⟨⟨⟨⟨⟨⟨a, b⟩, c⟩, d⟩, e⟩, f⟩, g⟩, i⟩ := h
  exact ⟨sound_of a, b, c, d, e, f, g, i⟩

/-- A state in which every channel of F0 to F3 has memory requests enabled. -/
def enabled : State := (upto 4).foldl (fun s f => s.modFn f fun x => { x with mse := true }) State.reset

/-! ### Phiad -/

/-- One legal word of each instruction, with fields that differ. -/
def words1 : List (PhOp × Nat) :=
  [(.add, phCompose 1 1 2 3 0), (.sub, phCompose 1 1 2 3 1), (.and', phCompose 1 1 2 3 2), (.or', phCompose 1 1 2 3 3),
   (.xor', phCompose 1 1 2 3 4), (.sll, phCompose 1 1 2 3 5), (.srl, phCompose 1 1 2 3 6), (.sra, phCompose 1 1 2 3 7),
   (.slt, phCompose 1 1 2 3 8), (.sltu, phCompose 1 1 2 3 9), (.min', phCompose 1 1 2 3 10), (.max', phCompose 1 1 2 3 11),
   (.minu, phCompose 1 1 2 3 12), (.maxu, phCompose 1 1 2 3 13), (.clamp, phCompose 1 1 2 3 14),
   (.clampu, phCompose 1 1 2 3 15), (.pack, phCompose 1 1 2 3 16), (.addi, phCompose 2 1 2 15 0x3FFF),
   (.andi, phCompose 3 1 2 15 0x3FFF), (.ori, phCompose 4 1 2 15 0x3FFF), (.xori, phCompose 5 1 2 15 0x3FFF),
   (.slli, phCompose 6 1 2 0 31), (.srli, phCompose 6 1 2 4 31), (.srai, phCompose 6 1 2 8 31), (.rori, phCompose 6 1 2 12 31)]

def words2 : List (PhOp × Nat) :=
  [(.lui, phCompose 7 1 2 3 5), (.mulu, phCompose 8 14 2 3 0), (.muls, phCompose 8 14 2 3 1), (.mul, phCompose 8 1 2 3 2),
   (.mulq, phCompose 8 1 2 3 3), (.divu, phCompose 8 1 2 3 8), (.divs, phCompose 8 1 2 3 9), (.remu, phCompose 8 1 2 3 10),
   (.rems, phCompose 8 1 2 3 11), (.lw, phCompose 9 1 0 0 1023), (.sw, phCompose 10 1 0 0 1023), (.lmu, phCompose 11 1 0 15 0x3FFE),
   (.lms, phCompose 12 1 0 15 0x3FFE), (.lmw, phCompose 13 1 0 15 0x3FFC), (.map2, phCompose 14 1 2 0 0x3FFF),
   (.a2t, phCompose 15 1 2 0 0), (.t2a, phCompose 15 1 2 0 1), (.rds, phCompose 16 1 0 0 4), (.rds, phCompose 16 1 0 0 3),
   (.beq, phCompose 17 1 2 0 3), (.bne, phCompose 17 1 2 1 3), (.blt, phCompose 17 1 2 2 3), (.bge, phCompose 17 1 2 3 3),
   (.bltu, phCompose 17 1 2 4 3), (.bgeu, phCompose 17 1 2 5 3), (.bmlt, phCompose 17 1 2 6 3), (.bmge, phCompose 17 1 2 7 3),
   (.jal, phCompose 18 1 15 15 0x3FFF), (.jalr, phCompose 19 1 2 0 5)]

def words3 : List (PhOp × Nat) :=
  [(.arm, phCompose 24 1 2 0 (95 * 128)), (.arm, phCompose 24 1 2 0 (95 * 128 + 16)), (.arm, phCompose 24 1 2 3 32),
   (.arm, phCompose 24 1 2 3 48), (.arm, phCompose 24 1 2 0 (64 + 15)), (.armt, phCompose 25 1 2 0 (95 * 128)),
   (.armt, phCompose 25 1 2 3 32), (.armt, phCompose 25 1 2 0 (64 + 15)), (.pulse, phCompose 26 1 2 3 (95 * 128)),
   (.pulse, phCompose 26 0 2 3 (95 * 128 + 1)), (.cancelHandle, phCompose 27 1 2 0 0), (.cancelChannel, phCompose 27 1 0 0 (95 * 128 + 16)),
   (.cancelAll, phCompose 27 1 0 0 32), (.waita, phCompose 28 1 2 0 0), (.waitt, phCompose 29 1 2 0 0), (.waiteTooth, phCompose 30 1 0 0 0),
   (.waiteIcu, phCompose 30 1 0 1 383), (.waiteFence, phCompose 30 1 2 2 55), (.waiteEpoch, phCompose 30 1 0 3 0),
   (.waiteFlag, phCompose 30 1 2 4 0), (.safept, phCompose 31 1 0 0 0), (.fence, phCompose 31 2 2 15 0x3FFF),
   (.budget, phCompose 31 3 2 15 0x3FFF), (.yield, phCompose 31 4 0 0 0), (.halt, phCompose 31 5 0 0 0), (.handover, phCompose 31 6 2 0 95)]

theorem issues1 : ∀ p ∈ words1, issuesB (loaded p.2) p.1 p.2 = true := by decide
theorem issues2 : ∀ p ∈ words2, issuesB (loaded p.2) p.1 p.2 = true := by decide
theorem issues3 : ∀ p ∈ words3, issuesB (loaded p.2) p.1 p.2 = true := by decide

/-- Every Phiad instruction can issue: the hypothesis of all its statements. -/
theorem witness_issues : ∀ p ∈ words1 ++ words2 ++ words3, (loaded p.2).Issues 0 p.1 p.2 := by
  intro p hp
  simp only [List.mem_append] at hp
  rcases hp with (h | h) | h
  · exact issues_of (issues1 p h)
  · exact issues_of (issues2 p h)
  · exact issues_of (issues3 p h)

/-- AluAndImmediateResults, at ADD and at ADDI with IMM18 all ones. -/
theorem witness_aluAndImmediateResults :
    (∃ p ∈ aluTable 0, ∃ w, (loaded w).Issues 0 p.2.1 w) ∧ (∃ p ∈ immTable 0, ∃ w, (loaded w).Issues 0 p.2.1 w) ∧
    ∃ w, (loaded w).Issues 0 .lui w :=
  ⟨⟨_, List.mem_cons_self, phCompose 1 1 2 3 0, issues_of (by decide)⟩,
   ⟨_, List.mem_cons_self, phCompose 2 1 2 15 0x3FFF, issues_of (by decide)⟩, phCompose 7 1 2 3 5, issues_of (by decide)⟩

/-- MultiplyDivideResults: each division with a divisor of 1. -/
theorem witness_multiplyDivideResults : ∀ p ∈ [(PhOp.divu, phCompose 8 1 2 3 8), (.divs, phCompose 8 1 2 3 9),
    (.remu, phCompose 8 1 2 3 10), (.rems, phCompose 8 1 2 3 11)],
    ((loaded p.2).setX 0 3 1).Issues 0 p.1 p.2 ∧ ((loaded p.2).setX 0 3 1).rs2W 0 p.2 ≠ 0 := by
  have h : ∀ p ∈ [(PhOp.divu, phCompose 8 1 2 3 8), (.divs, phCompose 8 1 2 3 9), (.remu, phCompose 8 1 2 3 10),
      (.rems, phCompose 8 1 2 3 11)], issuesB ((loaded p.2).setX 0 3 1) p.1 p.2 = true ∧ ((loaded p.2).setX 0 3 1).rs2W 0 p.2 ≠ 0 := by
    decide
  exact fun p hp => ⟨issues_of (h p hp).1, (h p hp).2⟩

/-- LoadsAndStores, at the last address of each memory. -/
theorem witness_loadsAndStores :
    (loaded (phCompose 9 1 0 0 1023)).eaW 0 (phCompose 9 1 0 0 1023) < 1024 ∧
    (∀ w ∈ [phCompose 11 1 0 15 0x3FFE, phCompose 12 1 0 15 0x3FFE], ((loaded w).setX 0 2 0x40000).eaW 0 w = 0xFFFFFFFE ∧
      (((loaded (w + 2 * 2 ^ 18)).setX 0 2 0x40000).eaW 0 (w + 2 * 2 ^ 18)).toNat = 0x3FFFE) ∧
    (((loaded (phCompose 13 1 2 15 0x3FFC)).setX 0 2 0x40000).eaW 0 (phCompose 13 1 2 15 0x3FFC)).toNat = 0x3FFFC ∧
    (loaded (phCompose 14 1 2 0 0x3FFF)).baseW 0 (phCompose 14 1 2 0 0x3FFF) = 0x3FFF0 := by decide

/-- CoreFaults: a divisor of 0, the addresses next after the last, and the two settings of FAULT_HALT. -/
theorem witness_coreFaults :
    (loaded (phCompose 8 1 2 0 8)).rs2W 0 (phCompose 8 1 2 0 8) = 0 ∧
    (loaded (phCompose 9 1 0 0 1024)).badAddress 0 (phCompose 9 1 0 0 1024) .lw ∧
    (loaded (phCompose 11 1 0 0 1)).badAddress 0 (phCompose 11 1 0 0 1) .lmu ∧
    (loaded (phCompose 13 1 0 0 2)).badAddress 0 (phCompose 13 1 0 0 2) .lmw ∧
    ((loaded (phCompose 14 1 2 3 0)).setX 0 3 8).badAddress 0 (phCompose 14 1 2 3 0) .map2 ∧
    (loaded 0).fld .SEQ_CTRL_FAULT_HALT 0 = 1 ∧ ((loaded 0).setFld .SEQ_CTRL_FAULT_HALT 0 0).fld .SEQ_CTRL_FAULT_HALT 0 = 0 ∧
    phDecode ((loaded 0).word ((loaded 0).pcAddr 0)) = none ∧
    (loaded (phCompose 15 1 2 0 0)).rateAt 0 (2 * (loaded (phCompose 15 1 2 0 0)).issueCycle 0 .a2t (phCompose 15 1 2 0 0)) = 0 := by
  unfold State.badAddress
  decide

theorem witness_fetch : (loaded 0).CanFetch 0 ∧ Tab.get 0 (loaded 0).progErr ((loaded 0).pcAddr 0) ≠ 2 :=
  ⟨⟨sound_of (by decide), by decide, by decide, by decide⟩, by decide⟩

/-- ConversionsAndSpecials: a domain with a valid angle that moves. -/
def moving (w : Nat) : State := (loaded w).setDom 0 { seg := { valid := true, rate := 65536 } }

theorem witness_conversionsAndSpecials :
    (moving (phCompose 15 1 2 0 0)).Issues 0 .a2t (phCompose 15 1 2 0 0) ∧
    (moving (phCompose 15 1 2 0 0)).rateAt 0 (2 * (moving (phCompose 15 1 2 0 0)).issueCycle 0 .a2t (phCompose 15 1 2 0 0)) ≠ 0 ∧
    phImm (phCompose 16 1 0 0 4) = 4 :=
  ⟨issues_of (by decide), by decide, by decide⟩

/-! ### Worked examples -/

/-- The value of a next state, or 0. -/
def after (o : Host.Outcome State Fault Refusal) (f : State → Nat) : Nat :=
  match o with
  | .next t => f t
  | _ => 0

/-- R92, R93: NOP is ADDI x0, x0, 0; a cleared and an erased word are illegal. -/
theorem test_word_nop : phDecode 0x0800_0000 = some .addi := by decide
theorem test_word_cleared : phDecode 0 = none ∧ phDecode 0xFFFF_FFFF = none := by decide

/-- R102, the worked lookup: 0x060D_FF9C. -/
theorem test_map2_lookup : wrapI 32 (bilinear 1400 1500 1600 1800 32768 26214) = 0x060D_FF9C := by decide

theorem test_add_wraps : after (exec (.add 0) (((loaded (phCompose 1 1 2 3 0)).setX 0 2 0xFFFF_FFFF).setX 0 3 2)) (fun t => t.x 0 1) = 1 := by decide
theorem test_srai : after (exec (.srai 0) ((loaded (phCompose 6 1 2 8 31)).setX 0 2 0x8000_0000)) (fun t => t.x 0 1) = 0xFFFF_FFFF := by decide
theorem test_mulq : after (exec (.mulq 0) (((loaded (phCompose 8 1 2 3 3)).setX 0 2 0x0001_8000).setX 0 3 0xFFFF_0000)) (fun t => t.x 0 1) = 0xFFFE_8000 := by decide
theorem test_divu_zero : after (exec (.divu 0) ((loaded (phCompose 8 1 2 3 8)).setX 0 2 5)) (fun t => t.x 0 1) = 0xFFFF_FFFF := by decide
theorem test_bmlt : after (exec (.bmlt 0) ((loaded (phCompose 17 1 2 6 3)).setX 0 2 1)) (fun t => (t.seq 0).pc) = 3 := by decide

/-! ### Phiad: the map memory -/

/-- A half-word of MAPM stored. -/
def mapPut (s : State) (a v : Nat) : State :=
  (s.setByte (mapmAddr a) (BitVec.ofNat 8 v)).setByte (mapmAddr (a + 1)) (BitVec.ofNat 8 (v / 256))

/-- A 2 by 2 map at base 0, of the cell of the worked lookup. -/
def mapState (r : MapReq) : State :=
  let s := [(0, 2), (2, 2), (16, 1200), (18, 1500), (20, 50), (22, 75), (24, 1400), (26, 1500), (28, 1600), (30, 1800)].foldl
    (fun s p => mapPut s p.1 p.2) State.reset
  s.setSeq 0 { s.seq 0 with mapReq := some r }

def mapTurnB (s : State) (r : MapReq) : Bool :=
  soundB s && s.live && !s.seqStopped && (s.seq 0).mapReq == some r && s.mapTurn == some 0

theorem mapTurn_of {s : State} {r : MapReq} (h : mapTurnB s r = true) : s.MapTurn 0 r := by
  simp only [mapTurnB, Bool.and_eq_true, Bool.not_eq_true', beq_iff_eq] at h
  obtain ⟨⟨⟨⟨a, b⟩, c⟩, d⟩, e⟩ := h
  exact ⟨sound_of a, b, c, d, e⟩

/-- The transaction of the worked lookup. -/
def lookup : MapReq := { kind := .map2, rd := 1, addr := 0, input := 1350 + 65536 * 60, pc := 0, bank := 0, cycle := 0 }

/-- MapTransactions: each kind in its turn. -/
theorem witness_mapTransactions : ∀ k ∈ [MapKind.lmu, .lms, .lmw, .map2],
    (mapState { lookup with kind := k }).MapTurn 0 { lookup with kind := k } := by
  have h : ∀ k ∈ [MapKind.lmu, .lms, .lmw, .map2], mapTurnB (mapState { lookup with kind := k }) { lookup with kind := k } = true := by decide
  exact fun k hk => mapTurn_of (h k hk)

theorem mapSegments : ∀ k, k + 1 < 2 → (mapState lookup).mapHalf (0 + 16 + 2 * k) < (mapState lookup).mapHalf (0 + 16 + 2 * (k + 1)) := by
  intro k hk
  have : k = 0 := by omega
  subst this
  decide

theorem witness_mapInterpolates : (mapState lookup).MapAt 0 2 2 ∧
    inSegment (fun k => (mapState lookup).mapHalf (0 + 16 + 2 * k)) 2 (lookup.input % 65536) 0 32768 ∧
    inSegment (fun k => (mapState lookup).mapHalf (0 + 16 + 2 * 2 + 2 * k)) 2 (lookup.input / 65536) 0 26214 := by
  refine ⟨⟨by decide, by decide, by decide, by decide, mapSegments, fun k hk => ?_⟩, ?_, ?_⟩
  · have : k = 0 := by omega
    subst this
    decide
  · unfold inSegment; decide
  · unfold inSegment; decide

/-- A 3 by 2 map at base 0 whose last x segment does not ascend. -/
def wideMap : State :=
  [(0, 3), (18, 1500), (20, 1500), (22, 50), (24, 75)].foldl (fun s p => mapPut s p.1 p.2) (mapState lookup)

/-- Each way in which a transaction fails. -/
theorem witness_mapFaults :
    (mapState lookup).mapFails lookup (.double 8 15) 5 .SEQ_FAULT_MAP_ECC ∧
    (mapPut (mapState lookup) 6 1).mapFails lookup .clean 4 .SEQ_FAULT_MAP_FMT ∧
    (mapPut (mapPut (mapPut (mapState lookup) 0x3FFF0 64) 0x3FFF2 64) 0x3FFF4 0).mapFails { lookup with addr := 0x3FFF0 } .clean 3 .SEQ_FAULT_ADDR ∧
    wideMap.mapFails { lookup with input := 1600 + 65536 * 60 } .clean 4 .SEQ_FAULT_MAP_FMT ∧
    (mapPut (mapState lookup) 18 1200).mapFails lookup .clean 4 .SEQ_FAULT_MAP_FMT := by
  refine ⟨Or.inl ⟨8, 15, rfl, rfl, rfl⟩, Or.inr ⟨rfl, rfl, Or.inl ⟨by decide, rfl, rfl⟩⟩, Or.inr ⟨rfl, rfl, Or.inr (Or.inl ⟨by decide, by decide, rfl, rfl⟩)⟩,
    Or.inr ⟨rfl, rfl, Or.inr (Or.inr (Or.inl ?_))⟩, Or.inr ⟨rfl, rfl, Or.inr (Or.inr (Or.inr ⟨by decide, by decide, Or.inl ?_, rfl, rfl⟩))⟩⟩
  · refine ⟨by decide, by decide, by decide, by decide, ⟨1, by decide, ?_, by decide, by decide⟩, rfl, rfl⟩
    intro k hk h1
    have : wideMap.mapHalf lookup.addr = 3 := by decide
    have h2 : k + 2 ≤ 3 := this ▸ hk
    omega
  · intro i hi
    have : (mapPut (mapState lookup) 18 1200).mapHalf lookup.addr = 2 := by decide
    rw [this] at hi
    have : i = 0 := by omega
    subst this
    decide

/-! ### Phiad: slots and waits -/

/-- Sequencer 0 owns channel 95. -/
def owning (w : Nat) : State := ((loaded w).setFld .OUT_OWNER_OWNED 95 1).setFld .OUT_OWNER_SEQ 95 0

/-- Every slot of sequencer 0 is armed. -/
def full (s : State) : State := (upto 64).foldl (fun s k => s.setSlot 0 k { armed := true, kind := .aFlag, arg := k }) s

/-- SlotsArmed: ARM of SET on channel 95 with every slot free; PULSE with its limit 1 past its start; refusals; and full slots without
and with a budget clock. -/
theorem witness_slotsArmed :
    (let w := phCompose 24 1 2 0 (95 * 128)
     (owning w).Issues 0 .arm w ∧ (owning w).LowestFree 0 0 ∧ (owning w).owner (phCh w) = some 0 ∧
       ∃ x, armWords false (phAct w) ((owning w).rs1W 0 w).toNat (phCh w) (((owning w).rs2W 0 w).toNat % 512) (phFl w) = some x) ∧
    (let w := phCompose 26 1 2 3 (95 * 128)
     let s := (owning w).setX 0 1 1
     s.Issues 0 .pulse w ∧ s.LowestFree 0 0 ∧ s.owner (phCh w) = some 0 ∧ bitN w 0 = false ∧ (s.slot 0 1).armed = false ∧
       1 ≤ (s.rdW 0 w - s.rs1W 0 w).toNat ∧ (s.rdW 0 w - s.rs1W 0 w).toNat < 2 ^ 31) ∧
    (let w := phCompose 24 1 2 0 (95 * 128)
     (loaded w).owner (phCh w) ≠ some 0 ∧ phAct w ≤ 1) ∧
    (let w := phCompose 26 1 2 3 (95 * 128)
     (owning w).rdW 0 w = (owning w).rs1W 0 w ∧ (loaded w).rdW 0 w = (loaded w).rs1W 0 w ∧ (loaded w).owner (phCh w) ≠ some 0 ∧ (loaded w).Issues 0 .pulse w) ∧
    (let w := phCompose 28 1 2 0 0
     let s := full (loaded w)
     s.Issues 0 .waita w ∧ ((upto 64).filter fun k => !(s.slot 0 k).armed).length < 1 ∧ s.flag .SEQ_TASK_STAT_IN_TASK 0 = false) ∧
    (let w := phCompose 28 1 2 0 0
     let s := ((full (loaded w)).setFld .SEQ_TASK_STAT_IN_TASK 0 1).setFld .SEQ_BUDGET_ALLOW 0 8
     s.Issues 0 .waita w ∧ s.flag .SEQ_TASK_STAT_IN_TASK 0 = true ∧ s.fld .SEQ_BUDGET_ALLOW 0 ≠ 0 ∧ (s.seq 0).expired = false ∧
       s.issueCycle 0 .waita w < (s.seq 0).taskStart + s.fld .SEQ_BUDGET_ALLOW 0) := by
  refine ⟨⟨issues_of (by decide), ⟨by decide, by decide, fun j h => by omega⟩, by decide, _, rfl⟩,
    ⟨issues_of (by decide), ⟨by decide, by decide, fun j h => by omega⟩, by decide, by decide, by decide, by decide, by decide⟩,
    by decide, ⟨by decide, by decide, by decide, issues_of (by decide)⟩, ⟨issues_of (by decide), by decide, by decide⟩,
    ⟨issues_of (by decide), by decide, by decide, by decide, by decide⟩⟩

/-- Cancels: no pulse at all, and a pulse in slots 63 and 0. -/
theorem witness_cancels :
    (let w := phCompose 27 1 2 0 0
     (loaded w).Issues 0 .cancelHandle w ∧ ∀ k, k < 64 → ((loaded w).slot 0 k).partner = none ∧ ((loaded w).slot 0 k).kind ≠ .pulseEnd) ∧
    (let w := phCompose 27 1 2 0 0
     let s := (((loaded w).setSlot 0 63 { armed := true, kind := .pulseStart, arg := 95, partner := some 0 }).setSlot 0 0
       { armed := true, kind := .pulseLimit, arg := 95, partner := some 63 }).setX 0 2 63
     s.Issues 0 .cancelHandle w ∧ (s.slot 0 63).armed = true ∧ (s.slot 0 0).armed = true ∧ (s.slot 0 63).partner = some 0 ∧
       (s.slot 0 0).partner = some 63 ∧ (s.slot 0 63).arg = 95 ∧ (s.rs1W 0 w).toNat = (s.slot 0 63).gen * 256 + 63) :=
  ⟨⟨issues_of (by decide), by decide⟩, issues_of (by decide), by decide, by decide, by decide, by decide, by decide, by decide⟩

/-- Waits: a tooth pending or not; a line that names the sequencer, asserted or not; a fence at and before its token; flags. -/
theorem witness_waits :
    (let w := phCompose 30 1 0 1 383
     let s := ((loaded w).setFld .ICU_TGT_TYPE 383 6).setFld .ICU_TGT_IDX 383 0
     s.Issues 0 .waiteIcu w ∧ s.fld .ICU_TGT_TYPE (phImm14 w) = 6 ∧ s.fld .ICU_TGT_IDX (phImm14 w) = 0 ∧ s.source (phImm14 w) = false ∧
       (s.setFld .ICU_SWI 1 (2 ^ 31)).source (phImm14 w) = true) ∧
    (let w := phCompose 30 1 2 2 55
     ((loaded w).doneW (phImm14 w) - BitVec.ofNat 16 ((loaded w).x 0 (phB w))).msb = false ∧
       (((loaded w).setX 0 2 1).doneW (phImm14 w) - BitVec.ofNat 16 (((loaded w).setX 0 2 1).x 0 (phB w))).msb = true) ∧
    (let w := phCompose 30 1 2 4 0
     let s := (loaded w).setX 0 2 0x8000
     BitVec.ofNat 16 (s.x 0 (phB w)) ≠ 0 ∧ BitVec.ofNat 16 (s.fld .SEQ_FLAGS 0) &&& BitVec.ofNat 16 (s.x 0 (phB w)) = 0 ∧
       BitVec.ofNat 16 ((s.setFld .SEQ_FLAGS 0 0x8000).fld .SEQ_FLAGS 0) &&& BitVec.ofNat 16 (s.x 0 (phB w)) ≠ 0) ∧
    ((loaded 0).setFld .SEQ_TASK_STAT_TOOTH_PENDING 0 1).flag .SEQ_TASK_STAT_TOOTH_PENDING 0 = true :=
  ⟨⟨issues_of (by decide), by decide, by decide, by decide, by decide⟩, by decide, by decide, by decide⟩

/-- Sequencer 0 in a wait. -/
def waiting (wt : Wait) : State := State.reset.setSeq 0 { State.reset.seq 0 with state := .wait, wait := wt, woken := true }

/-- WaitsEnd: each wait, with its condition true. -/
theorem witness_waitsEnd :
    (∀ wt ∈ [Wait.tooth 1, .icu 1 383, .fence 1 55 0, .flag 1 0x8000], (waiting wt).SeqLive) ∧ ((waiting (.tooth 1)).seq 0).woken = true ∧
    (((waiting (.flag 1 0x8000)).setFld .SEQ_FLAGS 0 0x8000).fld .SEQ_FLAGS 0) &&& 0x8000 ≠ 0 := by
  have h : ∀ wt ∈ [Wait.tooth 1, .icu 1 383, .fence 1 55 0, .flag 1 0x8000],
      soundB (waiting wt) = true ∧ (waiting wt).live = true ∧ (waiting wt).flag .DBG_STAT_CLK_STOPPED = false := by decide
  exact ⟨fun wt hw => ⟨sound_of (h wt hw).1, (h wt hw).2.1, (h wt hw).2.2⟩, by decide, by decide⟩

/-- SystemInstructions: a change in progress that the sequencer has not applied, as the last of all. -/
theorem witness_systemInstructions :
    let w := phCompose 31 1 0 0 0
    let s := { ((loaded w).setFld .MODE_APPLIED 0 (2 ^ 24 - 2)).setFld .MODE_STAT_TRANSITION 0 1 with change := some { target := 2, at' := 0 } }
    s.Issues 0 .safept w ∧ s.flag .SEQ_SWAP_STAT_PENDING 0 = false ∧ s.change = some { target := 2, at' := 0 } ∧
      (s.fld .MODE_APPLIED).testBit 0 = false ∧ s.fld .MODE_APPLIED ||| 2 ^ 0 = 2 ^ 24 - 1 :=
  ⟨issues_of (by decide), by decide, by decide, by decide, by decide⟩

/-- Handovers of channel 95 to sequencer 23: with no armed slot on it, and with one. -/
theorem witness_handovers :
    (let w := phCompose 31 6 2 0 95
     let s := (owning w).setX 0 2 23
     s.Issues 0 .handover w ∧ s.mayHand 0 (w % 128) ((s.rs1W 0 w).toNat % 32) ∧ s.unreferred 0 (w % 128) ∧
       ¬ (s.setSlot 0 63 { armed := true, kind := .aSet, arg := 95 }).unreferred 0 (w % 128) ∧ ¬ (loaded w).mayHand 0 (w % 128) 23) ∧
    (let s := (owning 0).setSeq 0 { (owning 0).seq 0 with state := .stall, handover := some (95, 23) }
     s.SeqLive ∧ (s.seq 0).handover = some (95, 23) ∧ s.unreferred 0 95 ∧ s.mayHand 0 95 23) := by
  unfold State.mayHand State.unreferred
  exact ⟨⟨issues_of (by decide), by decide, by decide, by decide, by decide⟩, ⟨sound_of (by decide), by decide, by decide⟩, by decide, by decide, by decide⟩

/-- BudgetAndSlotStall: an allowance that has just been reached, in a task that runs, that stalls for slots and that stalls at a HANDOVER. -/
theorem witness_budgetAndSlotStall :
    let s := fun (q : Seq) => { ((State.reset.setFld .SEQ_TASK_STAT_IN_TASK 0 1).setFld .SEQ_BUDGET_ALLOW 0 8).setSeq 0 q with tnow := 16 }
    (∀ q ∈ [{ state := .run }, { state := .stall, slotStall := true }, ({ state := .stall, handover := some (95, 23) } : Seq)], (s q).BudgetDue 0) := by
  intro s
  have h : ∀ q ∈ [{ state := .run }, { state := .stall, slotStall := true }, ({ state := .stall, handover := some (95, 23) } : Seq)],
      soundB (s q) = true ∧ (s q).live = true ∧ (s q).flag .DBG_STAT_CLK_STOPPED = false ∧ (s q).flag .SEQ_TASK_STAT_IN_TASK 0 = true ∧
      (s q).fld .SEQ_BUDGET_ALLOW 0 ≠ 0 ∧ ((s q).seq 0).expired = false ∧
      ((s q).seq 0).taskStart + (s q).fld .SEQ_BUDGET_ALLOW 0 ≤ max ((s q).tnow / 2) ((s q).seq 0).nextIssue := by decide
  intro q hq
  obtain ⟨a, b, c, d, e, f, g⟩ := h q hq
  exact ⟨⟨sound_of a, b, c⟩, d, e, f, g⟩

/-! ### The fabric -/

/-- A FLAG slot of sequencer 0 on TNOW, reached. -/
def flagSlot : State := State.reset.setSlot 0 63 { armed := true, kind := .tFlag, target := 0, arg := 15, ref := some (0, 0) }

theorem flagSlot_reached : flagSlot.Reached 0 63 :=
  ⟨by decide, by decide, Or.inl (by decide), fun r h => by
    rw [show (flagSlot.slot 0 63).ref = some (0, 0) by decide] at h
    cases h
    decide, 0, 0, by decide, by decide, by decide⟩

/-- A SET slot of sequencer 0 on channel 95, reached. -/
def setSlot95 : State := (owning 0).setSlot 0 63 { armed := true, kind := .tSet, target := 0, arg := 95, ref := some (0, 0) }

theorem notReached_of {s : State} {n k : Nat} (h : (s.slot n k).armed = false) : ¬ s.Reached n k := fun r => by
  have a := r.1
  rw [h] at a
  exact absurd a (by decide)

theorem setSlot95_reached : setSlot95.Reached 0 63 :=
  ⟨by decide, by decide, Or.inl (by decide), fun r h => by
    rw [show (setSlot95.slot 0 63).ref = some (0, 0) by decide] at h
    cases h
    decide, 0, 0, by decide, by decide, by decide⟩

/-- An angle slot of sequencer 0 that a jump of domain 0 carries past its target. -/
def jumped : State :=
  ((State.reset.setDom 0 { stepAt := some 0, seg := { valid := true } }).setSlot 0 0 { armed := true, kind := .aFlag, ref := some (0, 0) })

theorem jumped_reached : jumped.Reached 0 0 ∧ ¬ jumped.Steady 0 0 := by
  refine ⟨⟨by decide, by decide, Or.inr (by decide), fun r h => ?_, 0, 0, by decide, by decide, by decide⟩, by unfold State.Steady; decide⟩
  rw [show (jumped.slot 0 0).ref = some (0, 0) by decide] at h
  cases h
  decide

/-- FabricFirings: a slot that is not reached, a FLAG slot that is, one that a jump carries past its target, and a SET slot alone on its
channel. -/
theorem witness_fabricFirings :
    (State.reset.Sound ∧ State.reset.up = true ∧ ¬ State.reset.Reached 0 63) ∧ (flagSlot.Sound ∧ flagSlot.Reached 0 63 ∧ flagSlot.Steady 0 63) ∧
    (jumped.Sound ∧ jumped.up = true ∧ jumped.Reached 0 0 ∧ ¬ jumped.Steady 0 0) ∧
    (setSlot95.FiresAlone 0 63 95 ∧ setSlot95.levelAllowed 95 = false) := by
  refine ⟨⟨sound_of (by decide), by decide, notReached_of (by decide)⟩, ⟨sound_of (by decide), flagSlot_reached, Or.inl (by decide)⟩,
    ⟨sound_of (by decide), by decide, jumped_reached⟩, ?_, by decide⟩
  refine ⟨sound_of (by decide), by decide, by decide, by decide, by decide, setSlot95_reached, Or.inl (by decide), ?_, ?_, ?_⟩
  · intro j hj hne _ _
    refine notReached_of ?_
    have : ∀ j, j < 64 → j ≠ 63 → (setSlot95.slot 0 j).armed = false := by decide
    exact this j hj hne
  · intro h
    exact absurd h (by decide)
  · intro l h
    rw [show (setSlot95.chan 95).lastAt = none by decide] at h
    exact absurd h (by simp)

/-- The device may drive channel 95 in Run, with token, DEN and PRESENT. -/
theorem witness_levelAllowed :
    let s := ((setSlot95.setFld .MODE_STAT_MODE 0 3).setFld .SEQ_MODE_STAT_APPLIED 0 3).setFld .PAIR_STAT_PRESENT 0 1
    ({ s with pair := { s.pair with token := true }, den := { s.den with seen := true } } : State).levelAllowed 95 = true := by decide

/-- ServiceSlots: the writes are taken from the serial port and from F1, and a slot fires at once at a target of 0. -/
theorem witness_serviceSlots :
    State.reset.Takes .mspi 0x1143F0 ∧ enabled.Takes (.f 1) 0x1143F4 ∧
    (let s := (((State.reset.setFld .SVC_CFG_EN 63 1).setDom 0 { seg := { valid := true } }).setSvc 63 { ref := some (0, 0) })
     s.Sound ∧ s.flag .SVC_CFG_EN 63 = true ∧ (s.svc 63).spent = false ∧ (s.svc 63).fired = none ∧
       s.reads (s.fld .SVC_CFG_DOMAIN 63) false (s.tnow - 24) = some 0 ∧ fwd 0 (s.fld .SVC_TARGET 63) ≤ fwd 0 0 ∧
       (s.svc 63).ref = some (0, 0) ∧ (s.dom 0).lostAt ≠ some s.tnow ∧ (s.dom 0).stepAt ≠ some (s.tnow - 24)) :=
  ⟨takes_of (by decide), takes_of (by decide), sound_of (by decide), by decide, by decide, by decide, by decide, by decide, by decide,
    by decide, by decide⟩

/-- ChannelOwners: Standby admits the write, and its SEQ field takes 23 and refuses 24; a cap of the present time. -/
theorem witness_channelOwners :
    State.reset.Takes .mspi (0x110000 + 0x40 * 95) ∧ State.reset.mode = 1 ∧ State.reset.flag .MODE_STAT_TRANSITION = false ∧
    State.reset.flag .MODE_STAT_EPOCH_PENDING = false ∧ bitsN 0x97 4 0 = 23 ∧ bitsN 0x98 4 0 = 24 ∧
    (let s := State.reset.setChan 95 { cap := some 0 }
     s.Sound ∧ (s.chan 95).cap = some 0 ∧ 0 ≤ s.tnow) :=
  ⟨takes_of (by decide), by decide, by decide, by decide, by decide, by decide, sound_of (by decide), by decide, by decide⟩

/-! ### Commands to sequencers and memories -/

/-- SequencerCommands: at rest, running, with a swap pending, and in a WAITE with no valid angle. -/
theorem witness_sequencerCommands :
    (∀ off ∈ [0x100004, 0x1000A8, 0x1000AC, 0x1000B0], State.reset.Takes .mspi (off + 0x400 * 23)) ∧
    State.reset.atRest 23 ∧ ¬ (loaded 0).atRest 0 ∧ State.reset.rwlOpen = true ∧ (State.reset.setFld .MODE_STAT_MODE 0 3).rwlOpen = false ∧
    (let s := (waiting (.tooth 1)).setSeq 0 { (waiting (.tooth 1)).seq 0 with woken := false }
     s.Takes .mspi 0x1000B0 ∧ s.angleValid (s.fld .SEQ_CTRL_DOMAIN 0) = false ∧ (s.seq 0).wait ≠ .none ∧
       ∀ rd k, (s.seq 0).wait ≠ .slot rd k) := by
  have h : ∀ off ∈ [0x100004, 0x1000A8, 0x1000AC, 0x1000B0], takesB State.reset .mspi (off + 0x400 * 23) = true := by decide
  refine ⟨fun o ho => takes_of (h o ho), Or.inl (by decide), ?_, by decide, by decide, takes_of (by decide), by decide, by decide, ?_⟩
  · unfold State.atRest
    decide
  · intro rd k e
    rw [show ((State.setSeq (waiting (.tooth 1)) 0 { (waiting (.tooth 1)).seq 0 with woken := false }).seq 0).wait = .tooth 1 by decide] at e
    exact absurd e (by simp)

/-- MemoryWrites: the first and last words of each memory. -/
theorem witness_memoryWrites :
    (∀ off ∈ [0x200000, 0x25FFFC, 0x400000, 0x43FFFC, 0x500000, 0x517FFC, 0x188000, 0x188FFC, 0x80000, 0xB6FFC, 0x480000, 0x49FFFC],
      State.reset.Takes .mspi off) ∧
    (State.reset.mapsOpen 0 = true ∧ (State.reset.setFld .AD_SYNC_STAT_STATE 0 1).mapsOpen 0 = false) ∧
    (∃ b, State.reset.weightOpen 0 b = true) ∧ State.reset.flag .AD_TCL_CFG_LEARN_EN 0 = false := by
  have h : ∀ off ∈ [0x200000, 0x25FFFC, 0x400000, 0x43FFFC, 0x500000, 0x517FFC, 0x188000, 0x188FFC, 0x80000, 0xB6FFC, 0x480000, 0x49FFFC],
      takesB State.reset .mspi off = true := by decide
  exact ⟨fun o ho => takes_of (h o ho), by decide, ⟨1, by decide⟩, by decide⟩

/-! ### Modes -/

/-- A mode without a change in progress. -/
def inMode (m : Nat) : State := State.reset.setFld .MODE_STAT_MODE 0 m

/-- ModeRequests: each request from a mode that takes it, and with what it needs. -/
theorem witness_modeRequests :
    (∀ m ∈ [0, 1, 2, 3, 4, 5], (inMode m).Takes .mspi 0x100) ∧ ¬ (inMode 2).followed ∧ ¬ (inMode 2).inChange ∧ (inMode 2).criticalSync ∧
    ((inMode 2).setDom 3 { seg := { valid := true } }).angleValid 3 = true ∧ (inMode 2).angleValid 3 = false ∧
    (inMode 5).flag .DBG_STAT_HALTED = false ∧ ((inMode 1).setFld .PWR_WAKE_CFG_PIN_EN 0 1).flag .PWR_WAKE_CFG_PIN_EN = true ∧
    ((inMode 1).setFld .MODE_STAT_TRANSITION 0 1).inChange := by
  have h : ∀ m ∈ [0, 1, 2, 3, 4, 5], takesB (inMode m) .mspi 0x100 = true := by decide
  refine ⟨fun m hm => takes_of (h m hm), ?_, ?_, ?_, by decide, by decide, by decide, by decide, Or.inl (by decide)⟩
  · unfold State.followed; decide
  · unfold State.inChange; decide
  · unfold State.criticalSync; decide

/-- ModeChanges: Run from Seek, Limp from Clearing after a sync loss, Run from Limp; an epoch reached and one not; a change timed out. -/
theorem witness_modeChanges :
    (let s := ((inMode 2).setFld .MODE_CFG_AUTO_RUN 0 1).setDom 0 { seg := { valid := true } }
     s.Sound ∧ s.mode = 2 ∧ s.flag .MODE_CFG_AUTO_RUN = true ∧ s.criticalSync ∧ ¬ s.followed ∧ ¬ s.inChange ∧
       s.angleValid (s.fld .MODE_CFG_EPOCH_DOM) = true) ∧
    (let s := (((inMode 5).setFld .MODE_STAT_CLEAR_CAUSE 0 1).setFld .MODE_CFG_LIMP_EN 0 1).setDom 0 { seg := { valid := true } }
     s.Sound ∧ s.mode = 5 ∧ s.fld .MODE_STAT_CLEAR_CAUSE = 1 ∧ s.flag .MODE_CFG_LIMP_EN = true ∧
       ∀ d, d < 4 → s.fld .AD_MAPCFG_TLEN d = 0) ∧
    (let s : State := { ((inMode 4).setDom 0 { seg := { valid := true } }) with change := some { target := 3, at' := 0, epoch := some (0, 0, 0) } }
     s.Sound ∧ s.angleValid 0 = true ∧ fwd 0 0 ≤ fwd 0 (s.angle 0) ∧ fwd 0 (s.angle 0) < fwd 0 1) ∧
    (let s : State := { ((inMode 2).setFld .MODE_STAT_TRANSITION 0 1) with change := some { target := 3, at' := 0, bounds := 15 } }
     s.Sound ∧ s.flag .MODE_STAT_TRANSITION = true ∧ max 1 (s.fld .MODE_CFG_TIMEOUT_CYC) ≤ 15) := by
  unfold State.criticalSync State.followed State.inChange
  exact ⟨⟨sound_of (by decide), by decide, by decide, by decide, by decide, by decide, by decide⟩,
    ⟨sound_of (by decide), by decide, by decide, by decide, by decide⟩, ⟨sound_of (by decide), by decide, by decide, by decide⟩,
    ⟨sound_of (by decide), by decide, by decide⟩⟩

/-! ### Wheels -/

/-- An edge at a stamp, accepted at once. -/
def edge (stamp : Nat) : Edge := { stamp, rising := true, at' := stamp / 8 }

/-- FrontEnds: an armed and a disarmed VR input, a digital one; and a crossing at the end of its filter, near and far from the last edge. -/
theorem witness_frontEnds :
    (State.reset.fld .WFE_CFG_MODE 7 = 0 ∧ State.reset.flag .WFE_STAT_ARMED 7 = false ∧
      (State.reset.setFld .WFE_STAT_ARMED 7 1).flag .WFE_STAT_ARMED 7 = true ∧ (State.reset.setFld .WFE_CFG_MODE 7 1).fld .WFE_CFG_MODE 7 ≠ 0) ∧
    (let s := State.reset.withInput 3 false { filt := [edge 0] }
     s.Sound ∧ ((s.dom 3).input false).filt = [edge 0] ∧ (edge 0).stamp / 8 + s.fld .AD_EDGEF_PRI_FILT 3 ≤ s.tnow + s.fld .AD_EDGEF_PRI_FILT 3) :=
  ⟨by decide, sound_of (by decide), by decide, by decide⟩

/-- A domain in Seek, with a primary edge to take. -/
def firstEdge : State := (inMode 2).withInput 3 false { accepted := [edge 8] }

/-- The same with a map of two teeth, which R31 admits. -/
def firstOnMap : State :=
  ((((((firstEdge.setFld .AD_MAPCFG_TLEN 3 2).setFld .AD_CFG_CYCLE_720 3 0).setWord (tmapAddr 3 0) (2 ^ 31)).setWord (tmapAddr 3 0 + 4) 0x201003).setWord
    (tmapAddr 3 1) (2 ^ 31)).setWord (tmapAddr 3 1 + 4) 0x201001)

/-- A domain in SYNC on a map of three teeth, with the next edge at the stamp of the last. -/
def nextEdge : State :=
  let s := ((State.reset.setFld .AD_SYNC_STAT_STATE 3 2).setFld .AD_MAPCFG_TLEN 3 3).setDom 3
    { pri := { accepted := [edge 8], done := some (edge 8) }, est := { p := 1 }, seg := { valid := true } }
  (((s.setWord (tmapAddr 3 0) 0x1000).setWord (tmapAddr 3 0 + 4) 1).setWord (tmapAddr 3 1) 0x1000).setWord (tmapAddr 3 1 + 4) 1

/-- WheelEdges: a first edge in Seek and in Standby; in SYNC, the next present tooth; a phase edge. -/
theorem witness_wheelEdges :
    (firstEdge.Sound ∧ firstEdge.Takes' 3 false (edge 8) [] ∧ (firstEdge.dom 3).pri.done = none ∧ firstEdge.fld .AD_SYNC_STAT_STATE 3 = 0 ∧
      firstEdge.mode = 2 ∧ (firstEdge.dom 3).invalid = false ∧ firstEdge.mapOk 3 = false ∧ firstOnMap.mapOk 3 = true) ∧
    (nextEdge.Sound ∧ nextEdge.Takes' 3 false (edge 8) [] ∧ (nextEdge.dom 3).pri.done = some (edge 8) ∧ nextEdge.fld .AD_SYNC_STAT_STATE 3 = 2 ∧
      nextEdge.present 3 1 = true ∧ nextEdge.fld .AD_SYNC_STAT_POS 3 = 0 ∧ nextEdge.fld .AD_MAPCFG_TLEN 3 = 3 ∧
      (nextEdge.dom 3).est.p * nextEdge.angleNext 3 0 ≠ 0 ∧
      roundDiv (((edge 8).stamp - (edge 8).stamp) * 256 * nextEdge.factor 3 0) (2 ^ 23) = 0) ∧
    (let s := (inMode 5).withInput 3 true { accepted := [edge 8] }
     s.Sound ∧ s.Takes' 3 true (edge 8) [] ∧ (s.dom 3).pha.done = none ∧ s.fld .AD_SYNC_STAT_STATE 3 = 0) := by
  unfold State.Takes'
  exact ⟨⟨sound_of (by decide), by decide, by decide, by decide, by decide, by decide, by decide, by decide⟩,
    ⟨sound_of (by decide), by decide, by decide, by decide, by decide, by decide, by decide, by decide, by decide⟩,
    sound_of (by decide), by decide, by decide, by decide⟩

/-- DomainEvents: the commands in each state, a stall that is due, and a boundary that the angle has just reached. -/
theorem witness_domainEvents :
    (∀ st ∈ [0, 1, 2, 3], (State.reset.setFld .AD_SYNC_STAT_STATE 3 st).Takes .mspi (0x40024 + 0x3000)) ∧
    (let s : State := { ((State.reset.setFld .AD_SYNC_STAT_STATE 3 2).withInput 3 false { last := some (edge 0) }) with tnow := 16000 * 1000000 }
     s.Sound ∧ ((s.dom 3).input false).last = some (edge 0) ∧
       (edge 0).at' + max 1 (min 16000 (s.fld .AD_STALL_STALL_MS 3)) * 1000000 ≤ s.tnow) ∧
    (let s := State.reset.setDom 3 { seg := { valid := true, base := 2 ^ 48 } }
     s.Sound ∧ (s.dom 3).seg.valid = true ∧ ((s.dom 3).turns + 1) * 2 ^ 48 ≤ (s.dom 3).seg.acc (s.tnow * 8)) := by
  have h : ∀ st ∈ [0, 1, 2, 3], takesB (State.reset.setFld .AD_SYNC_STAT_STATE 3 st) .mspi (0x40024 + 0x3000) = true := by decide
  exact ⟨fun st hs => takes_of (h st hs), ⟨sound_of (by decide), by decide, by decide⟩, sound_of (by decide), by decide, by decide⟩

/-! ### Learners, converters, basins -/

theorem takes_all {s : State} {l : List Nat} (h : ∀ off ∈ l, takesB s .mspi off = true) : ∀ off ∈ l, s.Takes .mspi off :=
  fun o ho => takes_of (h o ho)

/-- LearnerAndWeights and WeightBankSwaps: a bank of the host inside BOUND and one outside; a swap that is 2 µs old. -/
theorem witness_learnerAndWeights :
    (∀ off ∈ [0x40188 + 0x3000, 0x159200 + 0x30], State.reset.Takes .mspi off) ∧
    (State.reset.flag .AD_TCL_CFG_LEARN_EN 3 = false ∧ (State.reset.setFld .AD_TCL_CFG_LEARN_EN 3 1).flag .AD_TCL_CFG_LEARN_EN 3 = true) ∧
    State.reset.fld .AD_MAPCFG_TLEN 3 = 0 ∧
    (let s := (firstOnMap.setFld .AD_SYNC_STAT_STATE 3 0).setWord (tclAddr 3 1 1) 0
     s.present 3 1 = true ∧ max (s.word (tclAddr 3 1 1) % 2 ^ 24) (2 ^ 23) - min (s.word (tclAddr 3 1 1) % 2 ^ 24) (2 ^ 23) >
       s.fld .AD_TCL_BOUND 3 * 128) ∧
    (let s : State := { State.reset with weightSwap := [(3, 0)], tnow := 2000 }
     s.Sound ∧ Tab.find s.weightSwap 3 = some 0) :=
  ⟨takes_all (by decide), by decide, by decide, by decide, sound_of (by decide), by decide⟩

/-- Converters: the odd and the even one of the last pair; a list that is legal and one that is not, which a pair that interleaves still
takes by its first entry; a calibration that is due, and a trim at each end of its range and one past it. -/
theorem witness_converters :
    (∀ off ∈ [0x140000 + 0x1700, 0x140004 + 0x1700, 0x140000 + 0x1600, 0x142000 + 4 * 47], State.reset.Takes .mspi off) ∧
    (sourceAssigned (State.reset.fld .ADC_SEQ_SRC (16 * 23)) = true ∧
      sourceAssigned ((State.reset.setFld .ADC_SEQ_SRC (16 * 23) 0x7F).fld .ADC_SEQ_SRC (16 * 23)) = false) ∧
    (let s := ((State.reset.setFld .ADC_CFG_LEN_M1 22 1).setFld .ADC_SEQ_SRC (16 * 22 + 1) 0x7F)
     ¬ s.listLegal 22 ∧ (s.setFld .ADC_CFG_ILV 22 1).listLegal 22) ∧
    ((BitVec.ofInt 16 (-2000)).toInt = -2000 ∧ (BitVec.ofInt 16 2000).toInt = 2000 ∧ 2000 < (2001 : BitVec 16).toInt) ∧
    (let s : State := { State.reset.setFld .ADC_STAT_CAL_BUSY 22 1 with tnow := 200000 }
     s.Sound ∧ s.flag .ADC_STAT_CAL_BUSY 22 = true ∧ (s.adc 22).calAt + 200000 ≤ s.tnow) :=
  ⟨takes_all (by decide), by decide,
   ⟨fun h => absurd (h 1 (by decide)) (by decide), fun e h => by
    have : e = 0 := Nat.le_zero.mp (show e ≤ 0 from h)
    subst this
    decide⟩, by decide, sound_of (by decide), by decide, by decide⟩

/-- A running converter, and a basin that its sample enters. -/
def converting : State :=
  ((State.reset.setFld .ADC_STAT_RUNNING 0 1).setFld .ADC_CFG_EN 0 1).setBasin 511 { wins := [{ eOpen := 0, thPrev := 0, woffset := 0 }] }

/-- Conversions: a running converter, with an input that settles from 100 to 5100 and a sample at each end of that, and a basin that its
sample enters. -/
theorem witness_conversions :
    (converting.Sound ∧ converting.interleaves 0 = false ∧ converting.flag .ADC_STAT_RUNNING 0 = true ∧
      converting.flag .ADC_STAT_CAL_BUSY 0 = false ∧ (converting.basin 511).wins = [{ eOpen := 0, thPrev := 0, woffset := 0 }] ∧
      converting.fld .BAS_CFG_CONV 511 = 0 ∧ converting.fld .BAS_CFG_MODE 511 = 0 ∧ Tab.find converting.settle 0 = none) ∧
    (let s : State := { converting.setAdc 0 { running := some (0, 0) } with settle := [(0, (100, 5100))] }
     s.Sound ∧ s.up = true ∧ (s.converting 0).2 = 0 ∧ Tab.find s.settle 0 = some (100, 5100)) := by
  exact ⟨⟨sound_of (by decide), by decide, by decide, by decide, by decide, by decide, by decide, by decide⟩,
    sound_of (by decide), by decide, by decide, by decide⟩

/-- Basins: a disabled one, an enabled one with and without an open window, and a window that latches. -/
theorem witness_basins :
    (∀ off ∈ [0x150000 + 0x40 * 511, 0x15000C + 0x40 * 511], State.reset.Takes .mspi off) ∧
    (∃ v, bitN v 31 = true ∧ State.reset.basBad 511 v) ∧ (∃ v, bitN v 31 = true ∧ ¬ State.reset.basBad 511 v) ∧
    (let s := (State.reset.setFld .BAS_CFG_EN 511 1).setBasin 511 { wins := [{ eOpen := 0, thPrev := 0, woffset := 0 }] }
     s.Takes .mspi (0x15000C + 0x40 * 511) ∧ s.flag .BAS_CFG_WIN_SRC 511 = false ∧
       (s.basin 511).wins = [] ++ [{ eOpen := 0, thPrev := 0, woffset := 0 }]) ∧
    (let s : State := { State.reset.setBasin 511 { wins := [{ eOpen := 0, thPrev := 0, woffset := 0, close := some (5, 0) }] } with tnow := 605 }
     s.Sound ∧ (s.basin 511).wins = [{ eOpen := 0, thPrev := 0, woffset := 0, close := some (5, 0) }] ∧ 5 + 600 ≤ s.tnow) := by
  unfold State.basBad
  exact ⟨takes_all (by decide), ⟨0x80000180, by decide, Or.inr (Or.inl (by decide))⟩, ⟨0x80000170, by decide +kernel⟩,
    ⟨takes_of (by decide), by decide, by decide⟩, sound_of (by decide), by decide, by decide⟩

/-- PortReads: the state is ready, F2 reaches its ports; a feed with a record, whose high word is latched, and one that a source has
found empty; a read in progress at its limit and one short of it. -/
theorem witness_portReads :
    State.reset.Ready ∧ State.reset.carries .mspi (0x150020 + 0x40 * 511) = true ∧ enabled.carries (.f 2) (0x158004 + 0x20 * 127) = true ∧
    (let s : State := { State.reset.setFeed 3 { records := [[1, 2, 3, 4]] } with latched := [(srcNum .mspi, (0x159064, 2))] }
     s.Ready ∧ (s.feed 3).records = [[1, 2, 3, 4]] ∧ (∀ w ∈ [1, 2, 3, 4], w < 2 ^ 32) ∧ srcNum .mspi ∉ (s.feed 3).empties ∧
       Tab.find s.latched (srcNum .mspi) = some (0x159064, 2)) ∧
    (let s : State := { State.reset.setFeed 3 { records := [[1, 2, 3, 4]], empties := [srcNum .mspi] } with
       latched := [(srcNum .mspi, (0x159064, 2 ^ 32 - 1))] }
     s.Ready ∧ srcNum .mspi ∈ (s.feed 3).empties ∧ Tab.find s.latched (srcNum .mspi) = some (0x159064, 2 ^ 32 - 1)) ∧
    (∀ now ∈ [9999, 10000], let s : State := { State.reset.setBasin 511 { reading := [(srcNum .mspi, 0)] } with tnow := now }
      s.Sound ∧ Tab.find (s.basin 511).reading (srcNum .mspi) = some 0 ∧ (0 + 10000 ≤ s.tnow ↔ now = 10000)) := by
  refine ⟨⟨sound_of (by decide), by decide, by decide⟩, by decide, by decide,
    ⟨⟨sound_of (by decide), by decide, by decide⟩, by decide, by decide, by decide, by decide⟩,
    ⟨⟨sound_of (by decide), by decide, by decide⟩, by decide, by decide⟩, fun now h => ?_⟩
  have a : ∀ now ∈ [9999, 10000], soundB { State.reset.setBasin 511 { reading := [(srcNum .mspi, 0)] } with tnow := now } = true ∧
      Tab.find (State.basin (State.reset.setBasin 511 { reading := [(srcNum .mspi, 0)] }) 511).reading (srcNum .mspi) = some 0 ∧
      (0 + 10000 ≤ now ↔ now = 10000) := by decide
  exact ⟨sound_of (a now h).1, (a now h).2⟩

/-! ### Comparators, generators, trips -/

theorem ticks_reset : State.reset.Ticks := ⟨sound_of (by decide), by decide, Or.inl (by decide)⟩

/-- Comparators: a comparison that an outside input takes, one that the reference takes and one that it cannot; a count that is full,
and one short of it; a hold at its end. -/
theorem witness_comparators :
    (State.reset.Ticks ∧ (State.reset.cmp 31).raw = false ∧ State.reset.cmpCan 31 true = true ∧
      ((State.reset.setFld .CMP_CFG_SEL 31 0x30).cmpCan 31 true = true) ∧
      ((State.reset.setFld .CMP_CFG_SEL 31 0x31).setFld .CMP_DAC_CODE 31 1023).cmpCan 31 true = false) ∧
    (∀ now ∈ [3, 4], let s : State := { State.reset.setCmp 31 { connected := true, raw := true } with tnow := now }
     s.Ticks ∧ (s.cmp 31).connected = true ∧ (s.cmp 31).hold = none ∧
       ((s.cmp 31).rawAt + 4 * max 1 (s.fld .CMP_CFG_FILT 31) ≤ s.tnow ↔ now = 4)) ∧
    (let s := State.reset.setCmp 31 { connected := true, hold := some 0 }
     s.Ticks ∧ (s.cmp 31).hold = some 0 ∧ s.fld .CMP_CFG_FILT 31 = 0 ∧ (s.setFld .CMP_CFG_FILT 31 1).fld .CMP_CFG_FILT 31 ≠ 0) ∧
    State.reset.Takes .mspi (0x160004 + 0x20 * 31) := by
  have a : ∀ now ∈ [3, 4], soundB { State.reset.setCmp 31 { connected := true, raw := true } with tnow := now } = true ∧
      State.live { State.reset.setCmp 31 { connected := true, raw := true } with tnow := now } = true ∧
      (State.cmp (State.reset.setCmp 31 { connected := true, raw := true }) 31).connected = true ∧
      (State.cmp (State.reset.setCmp 31 { connected := true, raw := true }) 31).hold = none ∧
      ((State.cmp (State.reset.setCmp 31 { connected := true, raw := true }) 31).rawAt + 4 * max 1 (State.reset.fld .CMP_CFG_FILT 31) ≤ now ↔
        now = 4) := by decide
  exact ⟨⟨⟨sound_of (by decide), by decide, Or.inl (by decide)⟩, by decide, by decide, by decide, by decide⟩,
    fun now h => ⟨⟨sound_of (a now h).1, (a now h).2.1, Or.inl rfl⟩, (a now h).2.2⟩,
    ⟨⟨sound_of (by decide), by decide, Or.inl (by decide)⟩, by decide, by decide, by decide⟩, takes_of (by decide)⟩

/-- GeneratorEvents: a generator that runs, at its boundary, at its mid-period point and at its markers; one before its boundary. -/
theorem witness_generatorEvents :
    (let s := (State.reset.setFld .PWM_CTRL_EN 15 1).setPwm 15 { run := true }
     s.Ticks ∧ s.drives 15 ∧ (s.pwm 15).halted = none ∧ (s.pwm 15).bound ≤ s.tick) ∧
    (let s := (State.reset.setFld .PWM_CTRL_LOAD_MID 15 1).setPwm 15 { run := true, period := 2, bound := 2, mark1 := 0, mark2 := 0 }
     let u : State := { s with tnow := 4 }
     s.Ticks ∧ s.drives 15 ∧ s.tick < (s.pwm 15).bound ∧ (s.pwmCount 15).1 = (s.pwm 15).mark1 ∧ (s.pwmCount 15).2 = false ∧
       u.Ticks ∧ (u.pwmCount 15).1 = max 2 (u.pwm 15).period / 2 ∧ (u.pwmCount 15).2 = false ∧
       u.flag .PWM_CTRL_LOAD_MID 15 = true ∧ u.flag .PWM_CTRL_LOCK 15 = false ∧ u.flag .PWM_CTRL_UPDOWN 15 = false) := by
  unfold State.drives
  exact ⟨⟨⟨sound_of (by decide), by decide, Or.inl (by decide)⟩, by decide, by decide, by decide⟩,
    ⟨sound_of (by decide), by decide, Or.inl (by decide)⟩, by decide, by decide, by decide, by decide,
    ⟨sound_of (by decide), by decide, Or.inl (by decide)⟩, by decide, by decide, by decide, by decide, by decide⟩

theorem witness_generatorWrites : ∀ off ∈ [0x1703C0, 0x1703E0, 0x1703DC, 0x170800], State.reset.Takes .mspi off := takes_all (by decide)

/-- Trips: a filter that is full, a trip by software, and a TRIP_CLR that is accepted, one with its channel asserted and one in the cycle of
a trip. -/
theorem witness_trips :
    (let s : State := { State.reset.setFld .TRIP_STAT_RAW 0 128 with tnow := 4 * (State.reset.fld .TRIP_CFG_FILT 7 + 1) }
     s.Ticks ∧ s.chanBit .TRIP_STAT_RAW 7 ≠ s.chanBit .TRIP_STAT_FILTERED 7 ∧
       (s.trip 7).rawAt + 4 * (s.fld .TRIP_CFG_FILT 7 + 1) ≤ s.tnow) ∧
    State.reset.Takes .mspi (0x170024 + 0x3C0) ∧
    (let s := (State.reset.setFld .PWM_STAT_TRIPPED 15 1)
     s.flag .PWM_STAT_TRIPPED 15 = true ∧ s.fld .TRIP_STAT_FILTERED &&& s.fld .PWM_CTRL_TRIP_MASK 15 = 0 ∧ (s.pwm 15).tripAt = none ∧
     (let t := (s.setFld .TRIP_STAT_FILTERED 0 128).setFld .PWM_CTRL_TRIP_MASK 15 128
      t.fld .TRIP_STAT_FILTERED &&& t.fld .PWM_CTRL_TRIP_MASK 15 ≠ 0) ∧
     ((s.setPwm 15 { tripAt := some 0 }).pwm 15).tripAt = some (s.setPwm 15 { tripAt := some 0 }).tick) :=
  ⟨⟨⟨sound_of (by decide), by decide, Or.inl (by decide)⟩, by decide, by decide⟩, takes_of (by decide), by decide, by decide, by decide,
    by decide, by decide⟩


/-! ### I/O engines -/

/-- The word of an engine's instruction. -/
def ioCompose (opc t a b c imm : Nat) : Nat := opc * 2 ^ 27 + t * 2 ^ 26 + a * 2 ^ 22 + b * 2 ^ 16 + c * 2 ^ 10 + imm

def fetchesB (s : State) (e w b : Nat) (inj : Bool) : Bool :=
  soundB s && s.live && !s.power.forced && s.ioeNext e == some { e, word := w, injected := inj, tick := b }

theorem fetches_of {s : State} {e w b : Nat} {inj : Bool} (h : fetchesB s e w b inj = true) : s.Fetches e w b inj := by
  simp only [fetchesB, Bool.and_eq_true, Bool.not_eq_true', beq_iff_eq] at h
  obtain ⟨⟨⟨a, b⟩, c⟩, d⟩ := h
  exact ⟨⟨sound_of a, b, Or.inl c⟩, d⟩

/-- Engine 15 runs at PC 0, with one word there. -/
def fetching (w : Nat) : State := (State.reset.setFld .IOE_CTRL_EN 15 1).setWord (imemAddr 15 0) w

/-- One legal word of each instruction, the last of them without an instruction. -/
def ioWords : List (Option IoOp × Nat) :=
  [(some .jmp, ioCompose 1 0 1 0 3 1023), (some .waitp, ioCompose 2 0 0 31 0 0), (some .waitf, ioCompose 3 1 0 0 0 255),
    (some .waiti, ioCompose 4 0 1 0 0 383), (some .waitt, ioCompose 5 0 0 0 0 0), (some .pin, ioCompose 6 1 2 31 0 0),
    (some .shin, ioCompose 7 0 0 0 0 8), (some .shout, ioCompose 8 1 0 31 0 0), (some .mov, ioCompose 9 0 0 0 1 1023),
    (some .add, ioCompose 10 0 1 0 2 0), (some .sub, ioCompose 11 0 2 0 0 0), (some .meas, ioCompose 12 0 0 0 0 0),
    (some .setu, ioCompose 13 0 0 0 0 0), (some .crc, ioCompose 14 0 1 0 2 0), (some .push, ioCompose 15 0 1 0 0 0),
    (some .pull, ioCompose 16 0 1 0 0 0), (some .post, ioCompose 17 0 1 0 2 0), (some .setf, ioCompose 18 0 0 15 0 7),
    (some .irq, ioCompose 19 0 0 0 0 0), (some .halt, ioCompose 20 0 0 0 0 0), (none, 0)]

/-- R271: the words decode to their instructions. -/
theorem test_ioWords : ∀ p ∈ ioWords, ioDecode p.2 = p.1 := by decide

/-- EngineInstructions: each word issues on a running engine, and on a stopped one where it is injected. -/
theorem witness_engineInstructions : (∀ p ∈ ioWords, (fetching p.2).Fetches 15 p.2 0 false) ∧
    ∀ p ∈ ioWords, (State.reset.setIoe 15 { inj := some p.2 }).Fetches 15 p.2 0 true := by
  have a : ∀ p ∈ ioWords, fetchesB (fetching p.2) 15 p.2 0 false = true := by decide
  have b : ∀ p ∈ ioWords, fetchesB (State.reset.setIoe 15 { inj := some p.2 }) 15 p.2 0 true = true := by decide
  exact ⟨fun p h => fetches_of (a p h), fun p h => fetches_of (b p h)⟩

/-- Engine 15 owns pin 31. -/
def pinned (w : Nat) : State := ((fetching w).setFld .GIO_CFG_OWNED 31 1).setFld .GIO_CFG_ENGINE 31 15

/-- EnginePinsAndWaits: pin 31 owned, with TT 4 ahead, here, and behind; a timed change that is due; an edge that a wait takes, and one
that the latch keeps; a wait that is met at an earlier step, one that has not been, and a latched edge. -/
theorem witness_enginePins :
    (∀ o ∈ [6, 8], ∀ tt ∈ [4, 0, 2 ^ 31], ((pinned (ioCompose o 1 0 31 0 0)).setFld .IOE_TT 15 tt).Fetches 15 (ioCompose o 1 0 31 0 0) 0 false) ∧
    (∀ o ∈ [6, 8], let s := (pinned 0).setIoe 15 { cur := some { word := ioCompose o 1 1 31 0 0 } }
      s.Ticks ∧ ttReached s.tick (s.fld .IOE_TT 15) = true) ∧
    (∀ a ∈ [1, 2], let s := State.reset.setIoe 15 { cur := some { word := ioCompose 2 0 a 31 0 0 } }
      s.Ticks ∧ s.pinLevel 31 ≠ true ∧ s.AwaitsPin 15 31 a ∧ edgeMatches 2 (s.fld .IOE_TT 15) true 8 = true) ∧
    (let s := State.reset.setIoe 15 { pin := some 31, rise := some (1, 1) }
     s.Ticks ∧ s.pinLevel 31 ≠ true ∧ (s.ioe 15).pin = some 31 ∧ (s.ioe 15).rise.isSome = true ∧
       s.TakesLatched 15 2 31 true (1, 1) ∧ ¬ s.TakesLatched 15 2 30 true (1, 1)) ∧
    (∀ met ∈ [none, some (8, 1)], let s : State := { (fetching 0).setIoe 15 { cur := some { word := ioCompose 2 0 2 31 0 0, met } } with tnow := 8 }
      s.Ticks ∧ s.ioeBoundary 15 = some 2) ∧
    State.reset.Takes .mspi (0x184000 + 4 * 31) := by
  have a : ∀ o ∈ [6, 8], ∀ tt ∈ [4, 0, 2 ^ 31], fetchesB ((pinned (ioCompose o 1 0 31 0 0)).setFld .IOE_TT 15 tt) 15 (ioCompose o 1 0 31 0 0) 0 false = true := by
    decide
  refine ⟨fun o h tt k => fetches_of (a o h tt k), ?_, ?_, ?_, ?_, takes_of (by decide)⟩
  · intro o h
    have : ∀ o ∈ [6, 8], soundB ((pinned 0).setIoe 15 { cur := some { word := ioCompose o 1 1 31 0 0 } }) = true ∧
      ttReached ((pinned 0).setIoe 15 { cur := some { word := ioCompose o 1 1 31 0 0 } }).tick (((pinned 0).setIoe 15 { cur := some { word := ioCompose o 1 1 31 0 0 } }).fld .IOE_TT 15) = true := by
      decide
    exact ⟨⟨sound_of (this o h).1, rfl, Or.inl rfl⟩, (this o h).2⟩
  · intro a h
    simp only [List.mem_cons, List.not_mem_nil, or_false] at h
    obtain rfl | rfl := h
    · exact ⟨⟨sound_of (by decide), rfl, Or.inl rfl⟩, by decide, ⟨{ word := ioCompose 2 0 1 31 0 0 }, by decide, by decide, by decide, by decide, rfl, by decide⟩, by decide⟩
    · exact ⟨⟨sound_of (by decide), rfl, Or.inl rfl⟩, by decide, ⟨{ word := ioCompose 2 0 2 31 0 0 }, by decide, by decide, by decide, by decide, rfl, by decide⟩, by decide⟩
  · refine ⟨⟨sound_of (by decide), rfl, Or.inl rfl⟩, by decide, by decide, by decide, ⟨by decide, by decide, by decide, ?_⟩, fun h => ?_⟩
    · intro g h
      exact absurd (show (none : Option (Nat × Nat)) = some g from h) (by simp)
    · exact absurd (show (some 31 : Option Nat) = some 30 from h.1) (by decide)
  · intro met h
    have : ∀ met ∈ [none, some (8, 1)], soundB { (fetching 0).setIoe 15 { cur := some { word := ioCompose 2 0 2 31 0 0, met } } with tnow := 8 } = true ∧
      State.ioeBoundary { (fetching 0).setIoe 15 { cur := some { word := ioCompose 2 0 2 31 0 0, met } } with tnow := 8 } 15 = some 2 := by decide
    exact ⟨⟨sound_of (this met h).1, rfl, Or.inl rfl⟩, (this met h).2⟩

/-- EngineQueuesAndCommands: a queue with space and one without, an entry to take and none; and every register that a source writes
or reads, from the monitor. -/
theorem witness_engineQueues :
    (State.reset.ioe 15).qout.length < State.reset.outCap 15 ∧ (State.reset.setFld .IOE_CTRL_OUT_DEPTH 3 8).inCap 3 = 0 ∧
    (let s := (fetching (ioCompose 15 0 1 0 0 0)).setIoe 15 { qout := List.replicate 8 7, qin := [5] }
     s.Fetches 15 (ioCompose 15 0 1 0 0 0) 0 false ∧ s.outCap 15 ≤ (s.ioe 15).qout.length ∧ (s.ioe 15).qin = 5 :: [] ∧
       s.inCap 15 ≤ (s.ioe 15).qin.length) ∧ (State.reset.ioe 15).qin.length < State.reset.inCap 15 ∧
    (∀ r ∈ [0, 4, 0x14, 0x18, 0x1c, 0x44], State.reset.Takes .mspi (0x180000 + 0x100 * 15 + r)) ∧ State.reset.Takes .mspi 0x184100 ∧
    State.reset.carries .mspi (0x180000 + 0x100 * 15 + 0x40) = true := by
  have h : ∀ r ∈ [0, 4, 0x14, 0x18, 0x1c, 0x44], takesB State.reset .mspi (0x180000 + 0x100 * 15 + r) = true := by decide
  exact ⟨by decide, by decide, ⟨fetches_of (by decide), by decide, by decide, by decide⟩, by decide, fun r k => takes_of (h r k), takes_of (by decide), by decide⟩

/-- A blocking PUSH is refused on a stopped engine, and a PIN is not. -/
theorem witness_refusedWord : RefusedWord (ioCompose 15 0 1 0 0 0) ∧ ¬ RefusedWord (ioCompose 6 0 1 31 0 0) := by
  refine ⟨⟨.push, by decide, by decide⟩, ?_⟩
  rintro ⟨o, h, k⟩
  rw [show ioDecode (ioCompose 6 0 1 31 0 0) = some .pin by decide] at h
  cases h
  revert k
  decide

/-! ### Accesses and the error log -/

theorem ready_reset : State.reset.Ready := ⟨sound_of (by decide), by decide, by decide⟩

/-- RegisterAccesses: offsets with a register of one word, of two, with a memory and with nothing; one barred by a reset of F1; a latch
held; a narrow access of a register that acts; and a register that no section gives an effect of its own. -/
theorem witness_registerAccesses :
    State.reset.Ready ∧ (∀ o ∈ [0x110004 + 0x40 * 95, 0xb00 + 0x10 * 63, 0x500000, 0xFFFFFC], State.reset.carries .mspi o = true) ∧
    (regAt 0xFFFFFC = none ∧ memAt 0xFFFFFC = none ∧ regAt 0x500000 = none ∧ (memAt 0x500000).isSome = true) ∧
    (regAt (0x110004 + 0x40 * 95) = some ⟨.OUT_POLICY, 95, 0⟩ ∧ Reg.OUT_POLICY ∉ ownWrites ∧ Reg.OUT_POLICY ∉ ownReads ∧
      State.reset.writeBarred (0x110004 + 0x40 * 95) true = false ∧
      (State.reset.setFld .PCIE_STAT_FLR_PENDING 0 2).writeBarred (0x110004 + 0x40 * 95) true = true) ∧
    (regAt (0xb00 + 0x10 * 63) = some ⟨.ELOG_TIME, 63, 0⟩ ∧ regAt (0xb04 + 0x10 * 63) = some ⟨.ELOG_TIME, 63, 1⟩ ∧ Reg.ELOG_TIME.row.words = 2 ∧
      Reg.ELOG_TIME ∉ ownReads) ∧
    (regAt 0xa04 = some ⟨.ELOG_RD, 0, 0⟩ ∧ State.reset.Takes .mspi 0xa04 ∧ isAction ⟨.OUT_POLICY, 95, 0⟩ = false ∧ isAction ⟨.SEQ_CMD, 0, 0⟩ = true) := by
  refine ⟨ready_reset, by decide, by decide, by decide, by decide, by decide, takes_of (by decide), by decide, by decide⟩

theorem inv_of {s : State} (h : soundB { s with logNew := [] } = true) : s.Inv := by
  have ⟨a, b, c, d, e, f, g, i, j, k, l, m, n, o, p, q, r, t, u, v, w, x, y, z⟩ := (sound_of h).1
  exact ⟨a, b, c, d, e, f, g, i, j, k, l, m, n, o, p, q, r, t, u, v, w, x, y, z⟩

/-- ErrorLogEntries: a command ended, with no entry, with one where 63 and where 64 are unread, and with two; with no LOST
entry owed, and with one for which this cycle, or an earlier one, freed space. -/
theorem witness_errorLogEntries : ∀ wr ∈ [62, 63, 64], ∀ l ∈ [[], [⟨4, 0, 0, 0⟩], [⟨4, 0, 0, 0⟩, (⟨1, 0, 0, 0⟩ : LogNew)]],
    ∀ o ∈ [({} : LogLost), ⟨3, some 5⟩, ⟨3, some 4⟩],
    let s : State := { State.reset.setFld .ELOG_WR 0 wr with logNew := l, lostOwed := o, tnow := 10 }
    s.Inv ∧ (∃ t, s.EndOf 1 t) ∧ s.mode ≠ 0 ∧ (s.lostOwed.count = 0 ↔ o = {}) ∧ (s.lostOwed.freedAt = some (s.tnow / 2) ↔ o = ⟨3, some 5⟩) ∧ (s.fld .ELOG_WR + 65536 - s.fld .ELOG_RD) % 65536 = wr := by
  intro wr h l k o m
  have a : ∀ wr ∈ [62, 63, 64], soundB { (State.reset.setFld .ELOG_WR 0 wr) with logNew := [], tnow := 10 } = true ∧
      (State.reset.setFld .ELOG_WR 0 wr).mode ≠ 0 ∧
      ((State.reset.setFld .ELOG_WR 0 wr).fld .ELOG_WR + 65536 - (State.reset.setFld .ELOG_WR 0 wr).fld .ELOG_RD) % 65536 = wr := by decide
  have b : ∀ o ∈ [({} : LogLost), ⟨3, some 5⟩, ⟨3, some 4⟩],
      (o.count = 0 ↔ o = {}) ∧ (o.freedAt = some (10 / 2) ↔ o = ⟨3, some 5⟩) := by decide
  have i : State.Inv { State.reset.setFld .ELOG_WR 0 wr with logNew := l, lostOwed := o, tnow := 10 } := inv_of (a wr h).1
  exact ⟨i, ⟨_, State.concluded_endOf i 1⟩, (a wr h).2.1, (b o m).1, (b o m).2, (a wr h).2.2⟩

/-- A log with 64 unread entries, or one less, and an owed LOST entry. -/
def owing (rd at' : Nat) (o : LogLost) : State :=
  { (State.reset.setFld .ELOG_WR 0 64).setFld .ELOG_RD 0 rd with lostOwed := o, tnow := at' }

/-- FenceAndLogClaim: an ELOG_RD write that frees space for the owed entry, one that does not, and one out of range; the LOST entry not due
in the cycle of the write, and due after it. -/
theorem witness_lostEntry :
    (∀ rd ∈ [0, 1], ∀ o ∈ [(⟨3, none⟩ : LogLost), {}], (owing rd 10 o).Sound ∧ (owing rd 10 o).up = true) ∧
    (owing 0 10 ⟨3, none⟩).unread = 64 ∧ (owing 1 10 ⟨3, some 5⟩).unread = 63 ∧
    (owing 1 10 ⟨3, some 5⟩).lostOwed.freedAt = some (10 / 2) ∧ (owing 1 12 ⟨3, some 5⟩).lostOwed.freedAt ≠ some (12 / 2) := by
  have h : ∀ rd ∈ [0, 1], ∀ o ∈ [(⟨3, none⟩ : LogLost), {}], soundB (owing rd 10 o) = true ∧ (owing rd 10 o).up = true := by decide
  exact ⟨fun a k o m => ⟨sound_of (h a k o m).1, (h a k o m).2⟩, by decide, by decide, by decide, by decide⟩

/-- R424: the LOST entry stands at the cycle after the ELOG_RD write, not in it. -/
theorem test_lostEntry : after (exec .lostEntry (owing 1 18 ⟨3, some 5⟩)) (fun t => t.fld .ELOG_TIME) = 12 := by decide
theorem test_elogRd_frees : after (exec (.elogRdWrite .mspi 1) (owing 0 10 ⟨3, none⟩)) (fun t => t.lostOwed.freedAt.getD 0) = 5 := by decide
theorem test_lostEntry_early : after (exec .lostEntry (owing 1 10 ⟨3, some 5⟩)) (fun t => t.fld .ELOG_WR) = 64 := by decide

/-! ### Interrupts and DMA -/

/-- The module in a pair state, with its link up, its DEN running and a partner in another state. -/
def paired (st peer : Nat) : State :=
  let s := ((((State.reset.setFld .PAIR_STAT_SLOT 0 0).setFld .PAIR_STAT_STATE 0 st).setFld .PAIR_STAT_PARTNER_STATE 0 peer).setFld .PAIR_STAT_LINK_UP 0 1).setFld .PAIR_STAT_PRESENT 0 1
  { s with
    den := { on := true, seen := true, refreshAt := some 0 }
    pair := { presentSeen := true, token := st == 2, leadPin := st == 2, hbAt := some 0, hbRun := 16 } }

/-- A software source that goes to vector 63 of F3, which may send. -/
def sending : State :=
  ((((enabled.setFn 3 { enabled.fn 3 with bme := true, msixEn := true, open' := 2 ^ 63 }).setFld .ICU_TGT_TYPE 383 4).setFld .ICU_TGT_IDX 383 63).setFld
    .ICU_SWI 1 (2 ^ 31))

/-- Interrupts: a register of each kind; an EOI of a vector that has sent, with its level at 0 and at 1; an asserted source of TYPE 7, on
a Lead with its partner in SHADOW; and a vector that sends. -/
theorem witness_interrupts :
    State.reset.Takes .mspi (0x10000 + 4 * 383) ∧ State.reset.Takes .mspi (0x10878 + 4) ∧
    (let s := enabled.setFn 3 { enabled.fn 3 with sent := 2 ^ 63 }
     s.Ready ∧ s.reaches 3 = true ∧ (s.fn 3).sent.testBit 63 = true ∧ s.vlevel 3 63 = false) ∧
    (let s := sending.setFn 3 { sending.fn 3 with sent := 2 ^ 63 }
     s.Ready ∧ s.reaches 3 = true ∧ (s.fn 3).sent.testBit 63 = true ∧ s.vlevel 3 63 = true) ∧
    (let s := (((paired 2 5).setFld .ICU_TGT_TYPE 320 7).setFld .ICU_SWI 0 1).setFld .ICU_TGT_PRI 320 2
     s.Sound ∧ s.live = true ∧ s.fld .ICU_TGT_TYPE 320 = 7 ∧ s.source 320 = true ∧ s.fld .ICU_TGT_PRI 320 < 3 ∧ s.leads = true ∧ s.partner = 5) ∧
    (sending.Sound ∧ ∃ t, exec (.rmgrSource 0) sending = .next t ∧ t.live = true ∧ t.vlevel 3 63 = true ∧ t.maySend 3 63 = true) := by
  refine ⟨takes_of (by decide), takes_of (by decide), ⟨⟨sound_of (by decide), by decide, by decide⟩, by decide, by decide, by decide⟩,
    ⟨⟨sound_of (by decide), by decide, by decide⟩, by decide, by decide, by decide⟩,
    ⟨sound_of (by decide), by decide, by decide, by decide, by decide, by decide, by decide⟩, sound_of (by decide), ?_⟩
  have h : (match exec (.rmgrSource 0) sending with
    | .next t => t.live && t.vlevel 3 63 && t.maySend 3 63
    | _ => false) = true := by decide
  revert h
  cases exec (.rmgrSource 0) sending with
  | next t =>
    intro h
    simp only [Bool.and_eq_true] at h
    exact ⟨t, rfl, h.1.1, h.1.2, h.2⟩
  | fault => intro h; cases h
  | refused => intro h; cases h

def aloneB (s : State) (c : Nat) : Bool := soundB s && s.up && (upto 16).all fun d => d == c || !s.dmaBusy d

theorem alone_of {s : State} {c : Nat} (h : aloneB s c = true) : s.DmaAlone c := by
  simp only [aloneB, Bool.and_eq_true, List.all_eq_true, Bool.or_eq_true, beq_iff_eq, Bool.not_eq_true'] at h
  obtain ⟨⟨a, b⟩, h⟩ := h
  exact ⟨sound_of a, b, fun d hd hc => (h d (by simpa [upto] using hd)).resolve_left hc⟩

/-- Channel 15 of a ring of four, with a descriptor in it and memory requests enabled. -/
def ringDma : State :=
  (((State.reset.setFn 0 { State.reset.fn 0 with bme := true, mse := true }).setFld .DMA_CH_SIZE 15 2).setFld .DMA_CH_CFG_EN 15 1).setFld .DMA_CH_TAIL 15 1

/-- A request for a descriptor, under tag 31. -/
def fetchReq : DmaReq := { kind := .fetch, addr := 0, len := 32, at' := 0, tag := 31 }

/-- Channel 15 reads its next descriptor. -/
def fetchingDma : State := ringDma.setDma 15 { reqs := [fetchReq] }

/-- Channel 15 writes records to a result ring of four, of which it may fill none or one. -/
def feedingDma (rd : Nat) (bme : Bool) : State :=
  ((((ringDma.setFn 0 { ringDma.fn 0 with bme := bme }).setFld .DMA_CH_CFG_MODE 15 1).setFld .DMA_CH_RSIZE 15 2).setFld .DMA_CH_RD 15 rd).setFeed 0
    { records := [[1, 2, 3, 4]] }

/-- A FILL of 128 bytes at 0x8000, with a FENCE; one that is misaligned; a kind that does not exist. -/
def fillWords : List Nat := [0x0001_0101, 128, 7, 8, 0x8000, 0, 0, 0]
def badWords : List Nat := [1, 128, 7, 8, 0x8001, 0, 0, 0]
def oddWords : List Nat := [3, 128, 7, 8, 0x8000, 0, 0, 0]

/-- The bytes of a list of words. -/
def bytesOf (l : List Nat) : List Byte := l.flatMap fun w => [BitVec.ofNat 8 w, BitVec.ofNat 8 (w / 256), BitVec.ofNat 8 (w / 65536), BitVec.ofNat 8 (w / 2 ^ 24)]

/-- DmaChannelWrites: a channel at rest with a descriptor to fetch, disabled and enabled; one with a read outstanding; and one with a
descriptor and none, which an abort ends. -/
theorem witness_dmaChannelWrites :
    (State.reset.DmaAlone 15 ∧ State.reset.carries .mspi (0x20000 + 0x80 * 15) = true ∧ (State.reset.dma 15).atRest ∧ State.reset.dmaOn 15 = false) ∧
    (ringDma.DmaAlone 15 ∧ ringDma.carries (.f 0) (0x20000 + 0x80 * 15) = true ∧ (ringDma.dma 15).atRest ∧ ringDma.dmaOn 15 = true ∧
      ringDma.dmaFeeds 15 = false ∧ ringDma.fld .DMA_CH_HEAD 15 ≠ ringDma.fld .DMA_CH_TAIL 15 ∧ ringDma.freeTag = some 0) ∧
    (fetchingDma.DmaAlone 15 ∧ (fetchingDma.dma 15).awaits ∧ (fetchingDma.dma 15).open' ≠ []) ∧
    (let s := ringDma.setDma 15 { desc := fillWords }
     s.DmaAlone 15 ∧ (s.dma 15).desc ≠ [] ∧ (s.dma 15).open' = [] ∧ ((s.dma 15).desc.getD 0 0).testBit 7 = false) := by
  unfold Dma.atRest Dma.awaits
  exact ⟨⟨alone_of (by decide), by decide, by decide, by decide⟩, ⟨alone_of (by decide), by decide⟩, ⟨alone_of (by decide), by decide⟩,
    alone_of (by decide), by decide⟩

/-- DmaTransfers: a read of a descriptor that answers, and one that has timed out; a FILL that ends its ring, one that is misaligned and a kind
that does not exist; a feed with a record, one whose ring is full, and one without bus mastering. -/
theorem witness_dmaTransfers :
    (fetchingDma.DmaAlone 15 ∧ (fetchingDma.dma 15).desc = [] ∧ (fetchingDma.dma 15).reqs = [fetchReq] ∧ fetchReq.data = none ∧
      (fetchingDma.dma 15).fin = none ∧ fetchReq.tag = (31 : Fin 32).val ∧ fetchingDma.dmaOn 15 = true ∧ fetchingDma.dmaFeeds 15 = false ∧
      (fetchingDma.fn 0).bme = true ∧ (fetchingDma.fn 0).ctoOff = false ∧
      (fetchingDma.fld .DMA_CH_HEAD 15 + 1) % 2 ^ fetchingDma.fld .DMA_CH_SIZE 15 = fetchingDma.fld .DMA_CH_TAIL 15) ∧
    (∀ now ∈ [9999999, 10000000], let s : State := { fetchingDma with tnow := now }
      s.DmaAlone 15 ∧ (s.fn 0).cto = 0 ∧ (fetchReq.at' + 10000000 ≤ s.tnow ↔ now = 10000000)) ∧
    ((bytesOf fillWords).length = 32 ∧ wordsOf (bytesOf fillWords) = fillWords ∧ PlainFill fillWords 0x8000 128) ∧
    (let d := wordsOf (bytesOf badWords); d.getD 0 0 % 32 = 1 ∧ d.getD 0 0 / 1024 % 64 = 0 ∧ d.getD 1 0 < 2 ^ 24 ∧ d.getD 4 0 % 8 ≠ 0) ∧
    (let d := wordsOf (bytesOf oddWords); 2 < d.getD 0 0 % 16 ∧ (d.getD 0 0).testBit 7 = false) ∧
    (∀ rd ∈ [0, 1], ∀ bme ∈ [false, true], let s := feedingDma rd bme
      s.DmaAlone 15 ∧ s.dmaOn 15 = true ∧ s.dmaFeeds 15 = true ∧ (s.fn 0).bme = bme ∧
        s.feed (s.fld .DMA_CH_CFG_FEED 15) = { records := [[1, 2, 3, 4]] } ∧ (∀ w ∈ [1, 2, 3, 4], w < 2 ^ 32) ∧
        ((s.fld .DMA_CH_WR 15 + 1) % 2 ^ s.fld .DMA_CH_RSIZE 15 = s.fld .DMA_CH_RD 15 ↔ rd = 1)) := by
  have a : ∀ now ∈ [9999999, 10000000], aloneB { fetchingDma with tnow := now } 15 = true ∧ (State.fn { fetchingDma with tnow := now } 0).cto = 0 ∧
      (fetchReq.at' + 10000000 ≤ now ↔ now = 10000000) := by decide
  have b : ∀ rd ∈ [0, 1], ∀ bme ∈ [false, true], let s := feedingDma rd bme
      aloneB s 15 = true ∧ s.dmaOn 15 = true ∧ s.dmaFeeds 15 = true ∧ (s.fn 0).bme = bme ∧
        s.feed (s.fld .DMA_CH_CFG_FEED 15) = { records := [[1, 2, 3, 4]] } ∧ (∀ w ∈ [1, 2, 3, 4], w < 2 ^ 32) ∧
        ((s.fld .DMA_CH_WR 15 + 1) % 2 ^ s.fld .DMA_CH_RSIZE 15 = s.fld .DMA_CH_RD 15 ↔ rd = 1) := by decide
  refine ⟨⟨alone_of (by decide), by decide⟩, fun now h => ⟨alone_of (a now h).1, (a now h).2⟩, ⟨by decide, by decide, ?_⟩, by decide, by decide,
    fun rd h bme k => ⟨alone_of (b rd h bme k).1, (b rd h bme k).2⟩⟩
  unfold PlainFill
  decide

/-! ### The monitor port and the endpoint -/

/-- R335, the worked example of the CRC: READ of 0x000108. -/
theorem test_crc : crcOf 0x01_000108_00000000 = 0x15 := by decide +kernel

/-- MonitorFrames: the port answers in every mode but Dormant; a frame that is good in form and one whose CRC is wrong; an offset of
each kind. -/
theorem witness_monitorFrames :
    State.reset.Sound ∧ (State.reset.live = true ∧ State.reset.mode ≠ 0) ∧ (let s := inMode 0; s.Sound ∧ ¬ (s.live = true ∧ s.mode ≠ 0)) ∧
    (∀ m ∈ [2, 3, 4], let s := inMode m; s.Sound ∧ s.live = true ∧ 2 ≤ s.mode ∧ s.mode ≤ 4) ∧
    (let s := inMode 5; s.Sound ∧ s.mode = 5 ∧ ¬ s.inChange) ∧
    (regAt (0x110004 + 0x40 * 95) = some ⟨.OUT_POLICY, 95, 0⟩ ∧ ∀ f ∈ Reg.OUT_POLICY.row.fields, f.info.acc ≠ .rc) ∧
    crcOf ((0 : BitVec 72).toNat / 256) ≠ (0 : BitVec 72).toNat % 256 ∧
    crcOf ((0x01_000108_00000000_15 : BitVec 72).toNat / 256) = (0x01_000108_00000000_15 : BitVec 72).toNat % 256 := by
  have h : ∀ m ∈ [2, 3, 4], soundB (inMode m) = true ∧ (inMode m).live = true ∧ 2 ≤ (inMode m).mode ∧ (inMode m).mode ≤ 4 := by decide
  refine ⟨sound_of (by decide), by decide, ⟨sound_of (by decide), by decide⟩, fun m k => ⟨sound_of (h m k).1, (h m k).2⟩,
    ⟨sound_of (by decide), by decide, ?_⟩, ⟨by decide, by decide⟩, by decide +kernel, by decide +kernel⟩
  unfold State.inChange
  decide

/-- EndpointAndResets: every event's condition, at its bound; a reset of F1 that spills, one that hands over, one under way, one that falls
back; and a channel whose read a conventional reset ends. -/
theorem witness_endpointAndResets :
    (∀ c, c < 16 → (State.reset.dma c).desc = []) ∧ (State.reset.pcie.perst = true ∨ State.reset.tnow < State.reset.pcie.perstAt + 20000000) ∧
    (let s : State := { State.reset with pcie := { State.reset.pcie with perst := true } }; s.Sound ∧ s.live = true ∧ s.pcie.perst = true) ∧
    (let s : State := { State.reset with tnow := 20000000, pcie := { State.reset.pcie with perst := false } }
     s.Sound ∧ s.live = true ∧ s.pcie.perst = false ∧ s.pcie.perstAt + 20000000 ≤ s.tnow) ∧
    (enabled.Sound ∧ enabled.reaches 1 = true ∧ decodes 1 0x110004 = true ∧ decodes 1 0x20000 = false) ∧
    ((inMode 2).Sound ∧ (inMode 2).fld .PCIE_STAT_FLR_PENDING = 0 ∧ (inMode 2).pair.token = false) ∧
    (let s := (paired 2 5).setFld .PCIE_FLR_CFG_HO_EN 0 1
     s.Sound ∧ s.live = true ∧ s.pair.token = true ∧ s.leads = true ∧ s.partner = 5 ∧ s.flag .PCIE_FLR_CFG_HO_EN = true) ∧
    (let s := State.reset.setFld .PCIE_STAT_FLR_PENDING 0 2; s.Sound ∧ s.live = true ∧ s.pcie.hoAt = none ∧ s.activeCount = 0) ∧
    (∀ lead ∈ [false, true], let s : State := { (paired (if lead then 2 else 6) 5).setFld .PCIE_STAT_FLR_PENDING 0 2 with
        tnow := 90000000, pcie := { State.reset.pcie with hoAt := some 0 } }
      s.Sound ∧ s.live = true ∧ s.pcie.hoAt ≠ none ∧ s.pair.token = lead ∧
        0 + min 90 (max 1 (s.fld .PCIE_FLR_CFG_HO_MS)) * 1000000 ≤ s.tnow) := by
  refine ⟨fun _ _ => rfl, by decide, ⟨sound_of (by decide), by decide, rfl⟩, ⟨sound_of (by decide), by decide, rfl, by decide⟩,
    ⟨sound_of (by decide), by decide, by decide, by decide⟩, ⟨sound_of (by decide), by decide, by decide⟩,
    ⟨sound_of (by decide), by decide, by decide, by decide, by decide, by decide⟩, ⟨sound_of (by decide), by decide, by decide, by decide⟩, ?_⟩
  intro lead _
  cases lead
  · exact ⟨sound_of (by decide), by decide, by decide, by decide, by decide⟩
  · exact ⟨sound_of (by decide), by decide, by decide, by decide, by decide⟩

/-! ### The pair -/

/-- PairDrive: START before and after its time, and with a partner that leads; a Lead in the odd slot; a refresh with each condition
failing, and one that finds all; DEN that stops, is silent, and forces LEAD off; PRESENT seen. -/
theorem witness_pairDrive :
    (let s := (paired 1 7).setFld .PAIR_STAT_LINK_UP 0 0
     s.Sound ∧ s.live = true ∧ s.isSolo = false ∧ s.fld .PAIR_STAT_STATE = 1 ∧ s.linkUp = false ∧ s.wsNs < s.power.released + 20000000) ∧
    (let s : State := { paired 1 7 with wsNs := 40000000 }
     s.Sound ∧ s.fld .PAIR_STAT_STATE = 1 ∧ s.linkUp = true ∧ s.power.released + 40000000 ≤ s.wsNs ∧ 2 ^ 64 > s.tnow) ∧
    (let s := (paired 2 5).setFld .PAIR_STAT_SLOT 0 1; s.Sound ∧ s.pair.token = true ∧ s.isSolo = false ∧ s.fld .PAIR_STAT_SLOT % 2 = 1) ∧
    (∀ at' ∈ [0, 1, 10000], let s : State := { paired 6 2 with wsNs := at', tnow := 9000 }
      s.Sound ∧ (s.wsNs ≤ s.power.released ↔ at' = 0) ∧ (s.wsNs < s.power.released + 10000 ↔ at' < 10000) ∧
        s.flag .PAIR_CFG_DEN_HOLD = false ∧ s.power.oscBad = false ∧ s.pair.joinWait = false) ∧
    (let s : State := { paired 2 5 with wsNs := 15000 }; s.Sound ∧ s.den.on = true ∧ s.den.refreshAt = some 0 ∧ 0 + 15000 ≤ s.wsNs) ∧
    (let s : State := { paired 2 5 with wsNs := 2000, tnow := 1500, den := { seen := true } }
     s.Sound ∧ s.den.seen = true ∧ s.den.on = false ∧ s.den.silent = false ∧ s.power.forced = false ∧ s.den.edgeAt + 1500 ≤ s.tnow ∧
       s.den.edgeWs + 2000 ≤ s.wsNs) ∧
    (paired 2 5).flag .PAIR_STAT_PRESENT = true ∧ (paired 2 5).pair.presentSeen = true := by
  have h : ∀ at' ∈ [0, 1, 10000], soundB { paired 6 2 with wsNs := at', tnow := 9000 } = true ∧ (at' ≤ 0 ↔ at' = 0) ∧ (at' < 0 + 10000 ↔ at' < 10000) := by decide
  refine ⟨⟨sound_of (by decide), by decide, by decide, by decide, by decide, by decide⟩, ⟨sound_of (by decide), by decide, by decide, by decide, by decide⟩,
    ⟨sound_of (by decide), by decide, by decide, by decide⟩, fun a k => ⟨sound_of (h a k).1, (h a k).2.1, (h a k).2.2, show (paired 6 2).flag .PAIR_CFG_DEN_HOLD = false by decide, rfl, rfl⟩,
    ⟨sound_of (by decide), by decide, by decide, by decide⟩,
    ⟨sound_of (by decide), by decide, by decide, by decide, by decide, by decide, by decide⟩, by decide, by decide⟩

/-- The other statements about the pair. -/
theorem witness_pairLink :
    -- LinkCourse: a heartbeat due, a miss, the link lost, and a retry.
    (let s : State := { paired 2 5 with tnow := 20000 }
     let s : State := { s with pair := { s.pair with unacked := [.token 0 1], txSeq := 1 } }
     s.Sound ∧ s.live = true ∧ s.pair.hbSentAt + 900 ≤ s.tnow ∧ s.pair.ho = none ∧ s.isSolo = false ∧
       max (s.pair.hbAt.getD 0) s.pair.hbMissAt + 2500 ≤ s.tnow ∧ s.pair.hbAt.getD 0 + 10000 ≤ s.tnow ∧ s.linkUp = true ∧
       s.pair.unacked ≠ [] ∧ s.pair.ackAt + 20000 ≤ s.tnow) ∧
    -- ReliableFrames: the next SEQ, in each state of the pair; a join under way.
    (∀ st ∈ [2, 3, 4, 5, 6], let s := paired st 2; s.Sound ∧ s.live = true ∧ s.linkUp = true ∧ s.pair.rxSeq = 0 ∧ s.pstate = st ∧ s.dmaIdle = true) ∧
    (let s : State := { paired 3 2 with pair := { (paired 3 2).pair with joinOpen := true, joinStarted := true, peerState := 3 } }
     s.Sound ∧ s.mode = 1 ∧ s.pstate = 3 ∧ s.pair.joinStarted = true ∧ 2 ≤ s.pair.peerState % 8 ∧
       (0 : BitVec 32).toNat = s.pair.joinCrc ^^^ 0xFFFFFFFF) ∧
    (let s := (paired 5 2).setDom 3 { seg := { valid := true } }; s.Sound ∧ s.pstate = 5 ∧ s.angleValid 3 = true) ∧
    -- TakeoverAndHandover: a Follow that may take the token on each ground; a handover accepted, and one that is due.
    (∀ c ∈ [TakeCond.noDen, .noHeartbeat, .released, .accepted],
      let s : State := { paired 5 2 with tnow := 2500, pair := { (paired 5 2).pair with peerFlags := 2, sentAccept := true } }
      s.Sound ∧ s.pstate ∈ [3, 4, 5, 6] ∧ s.pair.token = false ∧ s.den.on = true ∧ s.mode ≠ 0 ∧
        match c with
        | .noDen => True
        | .noHeartbeat => ∀ t, s.pair.hbAt = some t → t + 2500 ≤ s.tnow
        | .released => s.pair.peerFlags.testBit 1 = true
        | .accepted => s.pair.sentAccept = true) ∧
    (let s := paired 2 5
     s.Takes .mspi 0x30020 ∧ s.pair.ho = none ∧ s.pstate = 2 ∧ s.linkUp = true ∧ s.partner = 5 ∧ ¬ s.inChange ∧ s.pair.peerState.testBit 3 = false) ∧
    (∀ f ∈ [0, 1], let s : State := { (paired 2 5).setFld .PAIR_CFG_FORCE_EN 0 f with tnow := 300000000, pair := { (paired 2 5).pair with ho := some { acceptedAt := some 0 } } }
      s.Sound ∧ s.activeCount = 0 ∧ (∀ n k, n < 24 → k < 64 → (s.slot n k).armed = false) ∧ s.pair.ho = some { acceptedAt := some 0 } ∧
        0 + max 1 (s.fld .PAIR_CFG_IDLE_WAIT_MS) * 1000000 ≤ s.tnow ∧ s.isSolo = false) ∧
    -- DigestComparison: a counterpart that is equal, one of another mode, one that differs, and none.
    (∀ own ∈ [[0, 0, 0, 0, 0, 1], [0, 0, 0, 0, 0, 2], [0, 0, 0, 0, 0, 1, 0, 0, 0, 0, 0, 0, 0, 0, 9]],
      let s : State := { paired 5 2 with pair := { (paired 5 2).pair with ownDig := [(0, [(0, own)])] } }
      s.Sound ∧ s.pstate ∈ [4, 5] ∧ Tab.get [] s.pair.ownDig 0 = (0, own) :: [] ∧ (own.drop 1).take 4 = [0, 0, 0, 0]) := by
  have a : ∀ st ∈ [2, 3, 4, 5, 6], soundB (paired st 2) = true ∧ (paired st 2).live = true ∧ (paired st 2).linkUp = true ∧ (paired st 2).pair.rxSeq = 0 ∧
    (paired st 2).pstate = st ∧ (paired st 2).dmaIdle = true := by decide
  refine ⟨⟨sound_of (by decide), by decide, by decide, rfl, by decide, by decide, by decide, by decide, by decide, by decide⟩,
    fun st k => ⟨sound_of (a st k).1, (a st k).2⟩, ⟨sound_of (by decide), by decide, by decide, rfl, by decide, by decide⟩,
    ⟨sound_of (by decide), by decide, by decide⟩, fun c _ => ⟨sound_of (by decide), by decide, rfl, rfl, by decide, ?_⟩,
    ⟨takes_of (by decide), rfl, by decide, by decide, by decide, ?_, by decide⟩, ?_, ?_⟩
  · cases c
    · trivial
    · intro t h; cases h; decide
    · decide
    · decide
  · unfold State.inChange; decide
  · intro f h
    simp only [List.mem_cons, List.not_mem_nil, or_false] at h
    obtain rfl | rfl := h
    · exact ⟨sound_of (by decide), by decide, fun _ _ _ _ => rfl, rfl, by decide, by decide⟩
    · exact ⟨sound_of (by decide), by decide, fun _ _ _ _ => rfl, rfl, by decide, by decide⟩
  · intro own h
    simp only [List.mem_cons, List.not_mem_nil, or_false] at h
    obtain rfl | rfl | rfl := h
    · exact ⟨sound_of (by decide), by decide, rfl, rfl⟩
    · exact ⟨sound_of (by decide), by decide, rfl, rfl⟩
    · exact ⟨sound_of (by decide), by decide, rfl, rfl⟩

/-! ### Power, and the block as a whole -/

/-- SupplyOverloads, ClocksAndDormant, ResetsAndHalt: each event due; Dormant with a wake; a halt. -/
theorem witness_power :
    (∀ f ∈ [Fld.PWR_STAT_SUP_ON, .PWR_STAT_SUP_LIMIT, .PWR_STAT_SUP_OFF], let s : State := { State.reset.setFld f 0 8 with tnow := 10000000 }
      s.Sound ∧ s.live = true ∧ (s.fld f).testBit 3 = true ∧ Tab.get 0 s.power.overAt 3 + 1000000 ≤ s.tnow ∧ Tab.get 0 s.power.offAt 3 + 10000000 ≤ s.tnow) ∧
    (let s : State := { State.reset with wsNs := 1000000, power := { forced := true } }
     s.Sound ∧ s.live = true ∧ s.power.failAt + 1000000 ≤ s.wsNs ∧ s.den.silent = false) ∧
    (let s : State := { inMode 0 with power := { clocks := false, copyMask := 128, copyPinEn := 1, copyTimerEn := 1 }, wsNs := 1000000000 }
     s.Sound ∧ s.power.held = false ∧ s.mode = 0 ∧ s.power.copyMask.testBit 7 = true ∧ s.power.wake = none ∧
       s.power.keepAt + max 1 s.power.copyTimer * 1000000000 ≤ s.wsNs) ∧
    (let s : State := { State.reset with power := { entering := some 0 } }; s.Sound ∧ s.live = true ∧ s.den.on = false ∧ s.den.seen = false) ∧
    (let s : State := { inMode 0 with power := { clocks := false, wake := some { cause := 2 }, catching := 128 } }
     s.Sound ∧ s.live = false ∧ s.power.wake = some { cause := 2 } ∧ s.mode = 0 ∧ s.power.clocks = false ∧ s.power.catching.testBit 7 = true) ∧
    (let s := State.reset.setFld .DBG_STAT_HALTED 0 1; s.Sound ∧ s.live = true ∧ s.flag .DBG_STAT_HALTED = true) ∧
    (let s := (inMode 3).setFld .PWM_CTRL_EN 15 1
     s.Sound ∧ s.flag .DBG_STAT_HALTED = false ∧ 2 ≤ s.mode ∧ s.mode ≤ 4 ∧ s.flag .PWM_CTRL_EN 15 = true ∧ (s.pwm 15).halted = none) := by
  refine ⟨?_, ⟨sound_of (by decide), by decide, by decide, rfl⟩, ⟨sound_of (by decide), rfl, by decide, by decide, rfl, by decide⟩,
    ⟨sound_of (by decide), by decide, rfl, rfl⟩, ⟨sound_of (by decide), by decide, rfl, by decide, rfl, by decide⟩,
    ⟨sound_of (by decide), by decide, by decide⟩, ⟨sound_of (by decide), by decide, by decide, by decide, by decide, by decide⟩⟩
  intro f h
  simp only [List.mem_cons, List.not_mem_nil, or_false] at h
  obtain rfl | rfl | rfl := h
  · exact ⟨sound_of (by decide), by decide, by decide, by decide, by decide⟩
  · exact ⟨sound_of (by decide), by decide, by decide, by decide, by decide⟩
  · exact ⟨sound_of (by decide), by decide, by decide, by decide, by decide⟩

/-- IdleStep, StepKeepsSound, CommandFrames and NoClocksNoEffect: reset waits for commands, and so does a module without clocks; a step and
a command have a next state; some command needs the fast clocks, and some part is outside what it writes. -/
theorem witness_machine :
    (State.reset.Sound ∧ State.reset.pending = [] ∧ (∃ t, step State.reset = .next t)) ∧ (∃ t, exec (.safept 0) State.reset = .next t) ∧
    (∃ p, p ∉ writesOf (.safept 0)) ∧
    (let s : State := { inMode 0 with power := { clocks := false } }; s.Sound ∧ s.live = false) ∧ selfClocked (.safept 0) = false := by
  refine ⟨⟨sound_of (by decide), rfl, ⟨_, rfl⟩⟩, ⟨_, rfl⟩, ⟨.doms, by decide⟩, ⟨sound_of (by decide), by decide⟩, by decide⟩

/-- RegisterMap and PhiadWords: the last word of a register's last copy, and the largest fields. -/
theorem witness_maps : (95 < Reg.OUT_POLICY.count ∧ 0 < Reg.OUT_POLICY.row.words) ∧ 63 < Reg.ELOG_TIME.count ∧
    phDecode (phCompose 0x1F 6 15 0 127) = some .handover ∧ phDecode (phCompose 0x1F 6 15 0 128) = none := by decide

end Sys2Proof.Tests
end

section
/-! SUPPORT. The instructions of a Phiad that write one result or set PC: their operands and results as words (R92, R96, R97, R99,
R100), and what each leaves once it has issued. -/

namespace Sys2Proof.Machine

/-! ### The fields and the registers of an instruction, as words -/

theorem phImm_eq_toNat (w : Nat) : phImm w = (BitVec.ofNat 18 w).toNat := by simp [phImm, bitsN]

theorem phImm14_eq_toNat (w : Nat) : phImm14 w = (BitVec.ofNat 14 w).toNat := by simp [phImm14, bitsN]

theorem phImm22_eq_toNat (w : Nat) : phImm22 w = (BitVec.ofNat 22 w).toNat := by simp [phImm22, bitsN]

/-- A register that holds 32 bits, as a word and back. -/
theorem State.Inv.toNat_ofNat_x {s : State} (h : s.Inv) (n k : Nat) : (BitVec.ofNat 32 (s.x n k)).toNat = s.x n k := by
  rw [BitVec.toNat_ofNat, Nat.mod_eq_of_lt (h.x_lt n k)]

theorem State.Inv.rs1W_toNat {s : State} (h : s.Inv) (n w : Nat) : (s.rs1W n w).toNat = s.x n (phB w) := h.toNat_ofNat_x n _

theorem State.Inv.rs2W_toNat {s : State} (h : s.Inv) (n w : Nat) : (s.rs2W n w).toNat = s.x n (phC w) := h.toNat_ofNat_x n _

theorem State.Inv.rdW_toNat {s : State} (h : s.Inv) (n w : Nat) : (s.rdW n w).toNat = s.x n (phA w) := h.toNat_ofNat_x n _

/-! ### Arithmetic on words -/

theorem sextN_toNat {w : Nat} (hw : 0 < w) (m : BitVec w) : sextN w m.toNat = m.toInt := by
  rw [sextN_toInt hw, BitVec.ofNat_toNat, BitVec.setWidth_eq]

theorem sgn_toNat (a : Word) : sgn a.toNat = a.toInt := sextN_toNat (by decide) a

theorem wrapI_toInt {w : Nat} (a : BitVec w) : wrapI w a.toInt = a.toNat := by rw [wrapI_ofInt, BitVec.ofInt_toInt]

/-- A number plus a sign-extended field, modulo `2 ^ v`: the sum of ADDI, of an effective address and of a branch's target. -/
theorem wrapI_add_sextN (v : Nat) {w : Nat} (hw : 0 < w) (a : Nat) (m : BitVec w) :
    wrapI v ((a : Int) + sextN w m.toNat) = (BitVec.ofNat v a + m.signExtend v).toNat := by
  rw [sextN_toNat hw, wrapI_ofInt, BitVec.ofInt_add, BitVec.ofInt_natCast]
  rfl

theorem wrapI_sgn_div (a : Word) (k : Nat) : wrapI 32 (sgn a.toNat / 2 ^ k) = (a.sshiftRight k).toNat := by
  rw [sgn_toNat, ← wrapI_toInt, BitVec.toInt_sshiftRight, Int.shiftRight_eq_div_pow]
  norm_cast

theorem mul_two_pow_mod (a : Word) (k : Nat) : a.toNat * 2 ^ k % 2 ^ 32 = (a <<< k).toNat := by
  rw [BitVec.toNat_shiftLeft, Nat.shiftLeft_eq]

theorem div_two_pow (a : Word) (k : Nat) : a.toNat / 2 ^ k = (a >>> k).toNat := by
  rw [BitVec.toNat_ushiftRight, Nat.shiftRight_eq_div_pow]

/-- A difference modulo 2^32, without a number below 0. -/
theorem add_sub_mod (a b : Word) : (a.toNat + 2 ^ 32 - b.toNat) % 2 ^ 32 = (a - b).toNat := by
  have := b.isLt
  rw [BitVec.toNat_sub]
  congr 1
  omega

/-- Two fields side by side: the upper one shifted, plus the lower. -/
theorem toNat_append_eq_add {m n : Nat} (x : BitVec m) (y : BitVec n) : (x ++ y).toNat = x.toNat * 2 ^ n + y.toNat := by
  rw [BitVec.toNat_append, ← Nat.shiftLeft_add_eq_or_of_lt y.isLt, Nat.shiftLeft_eq]

theorem rotr_eq_rotateRight (a : Word) {k : Nat} (hk : k < 32) : rotr a.toNat k = (a.rotateRight k).toNat := by
  have hsplit : (2 : Nat) ^ 32 = 2 ^ k * 2 ^ (32 - k) := by rw [← Nat.pow_add]; congr 1; omega
  have hhigh : a.toNat <<< (32 - k) % 2 ^ 32 = (a.toNat % 2 ^ k) <<< (32 - k) := by
    rw [Nat.shiftLeft_eq, Nat.shiftLeft_eq, hsplit, Nat.mul_mod_mul_right]
  have hlow : a.toNat / 2 ^ k < 2 ^ (32 - k) := Nat.div_lt_of_lt_mul (hsplit ▸ a.isLt)
  rw [BitVec.toNat_rotateRight, Nat.mod_eq_of_lt hk, hhigh, Nat.shiftRight_eq_div_pow, Nat.or_comm,
    ← Nat.shiftLeft_add_eq_or_of_lt hlow, Nat.shiftLeft_eq, rotr, Nat.add_comm]

/-! ### The functions of R96 and R97, as numbers and as words -/

/-- The number that an ALU instruction computes, modulo 2^32, is the word of R96. -/
def AluMatches (f : Nat → Nat → Nat → Nat) (g : Word → Word → Word → Word) : Prop :=
  ∀ a b d : Word, f a.toNat b.toNat d.toNat % 2 ^ 32 = (g a b d).toNat

/-- The number that an immediate instruction computes, modulo 2^32, is the word of R97. -/
def ImmMatches (f : Nat → Nat → Nat) (g : Word → BitVec 18 → Word) : Prop :=
  ∀ (a : Word) (m : BitVec 18), f a.toNat m.toNat % 2 ^ 32 = (g a m).toNat

/-- A function that computes the word itself needs no wrap. -/
theorem AluMatches.of_eq {f : Nat → Nat → Nat → Nat} {g : Word → Word → Word → Word}
    (h : ∀ a b d : Word, f a.toNat b.toNat d.toNat = (g a b d).toNat) : AluMatches f g := fun a b d => by
  rw [h, BitVec.toNat_mod_cancel]

theorem ImmMatches.of_eq {f : Nat → Nat → Nat} {g : Word → BitVec 18 → Word}
    (h : ∀ (a : Word) (m : BitVec 18), f a.toNat m.toNat = (g a m).toNat) : ImmMatches f g := fun a m => by
  rw [h, BitVec.toNat_mod_cancel]

theorem add_matches : AluMatches (fun a b _ => a + b) fun a b _ => a + b := fun a b _ => (BitVec.toNat_add a b).symm

theorem and_matches : AluMatches (fun a b _ => a &&& b) fun a b _ => a &&& b := .of_eq fun a b _ => (BitVec.toNat_and a b).symm

theorem or_matches : AluMatches (fun a b _ => a ||| b) fun a b _ => a ||| b := .of_eq fun a b _ => (BitVec.toNat_or a b).symm

theorem xor_matches : AluMatches (fun a b _ => a ^^^ b) fun a b _ => a ^^^ b := .of_eq fun a b _ => (BitVec.toNat_xor a b).symm

theorem sll_matches : AluMatches (fun a b _ => a * 2 ^ (b % 32)) fun a b _ => a <<< (b.toNat % 32) :=
  fun a _ _ => mul_two_pow_mod a _

theorem srl_matches : AluMatches (fun a b _ => a / 2 ^ (b % 32)) fun a b _ => a >>> (b.toNat % 32) :=
  .of_eq fun a _ _ => div_two_pow a _

theorem sra_matches : AluMatches (fun a b _ => wrapI 32 (sgn a / 2 ^ (b % 32))) fun a b _ => a.sshiftRight (b.toNat % 32) :=
  .of_eq fun a _ _ => wrapI_sgn_div a _

theorem sub_matches : AluMatches (fun a b _ => a + 2 ^ 32 - b) fun a b _ => a - b := fun a b _ => add_sub_mod a b

theorem truth_toNat (p : Bool) : truth p = (if p then 1#32 else 0#32).toNat := by cases p <;> rfl

theorem sgn_lt_iff (a b : Word) : sgn a.toNat < sgn b.toNat ↔ a.slt b = true := by
  rw [sgn_toNat, sgn_toNat, BitVec.slt_iff_toInt_lt]

theorem slt_matches : AluMatches (fun a b _ => truth (decide (sgn a < sgn b))) fun a b _ => if a.slt b then 1#32 else 0#32 :=
  .of_eq fun a b _ => by simp only [truth_toNat, sgn_lt_iff, decide_eq_true_eq]

theorem sltu_matches : AluMatches (fun a b _ => truth (decide (a < b))) fun a b _ => if a < b then 1#32 else 0#32 :=
  .of_eq fun a b _ => by simp only [truth_toNat, BitVec.lt_def, decide_eq_true_eq]

theorem min_matches : AluMatches (fun a b _ => if sgn a < sgn b then a else b) fun a b _ => if a.slt b then a else b :=
  .of_eq fun a b _ => by simp only [sgn_lt_iff, apply_ite BitVec.toNat]

theorem max_matches : AluMatches (fun a b _ => if sgn a < sgn b then b else a) fun a b _ => if a.slt b then b else a :=
  .of_eq fun a b _ => by simp only [sgn_lt_iff, apply_ite BitVec.toNat]

theorem toNat_minu (a b : Word) : (if a < b then a else b).toNat = min a.toNat b.toNat := by
  simp only [apply_ite BitVec.toNat, BitVec.lt_def]
  split <;> omega

theorem toNat_maxu (a b : Word) : (if a < b then b else a).toNat = max a.toNat b.toNat := by
  simp only [apply_ite BitVec.toNat, BitVec.lt_def]
  split <;> omega

theorem minu_matches : AluMatches (fun a b _ => min a b) fun a b _ => if a < b then a else b :=
  .of_eq fun a b _ => (toNat_minu a b).symm

theorem maxu_matches : AluMatches (fun a b _ => max a b) fun a b _ => if a < b then b else a :=
  .of_eq fun a b _ => (toNat_maxu a b).symm

theorem toInt_min (a b : Word) : (if a.slt b then a else b).toInt = min a.toInt b.toInt := by
  simp only [apply_ite BitVec.toInt, BitVec.slt_iff_toInt_lt]
  split <;> omega

theorem toInt_max (a b : Word) : (if a.slt b then b else a).toInt = max a.toInt b.toInt := by
  simp only [apply_ite BitVec.toInt, BitVec.slt_iff_toInt_lt]
  split <;> omega

/-- CLAMP takes its bounds in the order of R96: the lower one first, so that the upper one prevails where they cross. -/
theorem clamp_matches : AluMatches (fun a b x => wrapI 32 (min (max (sgn x) (sgn a)) (sgn b)))
    fun a b d => let m := if d.slt a then a else d; if b.slt m then b else m :=
  .of_eq fun a b d => by
    dsimp only
    rw [sgn_toNat, sgn_toNat, sgn_toNat, ← toInt_max, Int.min_comm, ← toInt_min, wrapI_toInt]

theorem clampu_matches : AluMatches (fun a b x => min (max x a) b)
    fun a b d => let m := if d < a then a else d; if b < m then b else m :=
  .of_eq fun a b d => by
    dsimp only
    rw [toNat_minu, toNat_maxu, Nat.min_comm]

theorem pack_matches : AluMatches (fun a b _ => b % 65536 * 65536 + a % 65536)
    fun a b _ => b.extractLsb' 0 16 ++ a.extractLsb' 0 16 :=
  .of_eq fun a b _ => by
    simp only [toNat_append_eq_add, BitVec.extractLsb'_toNat, Nat.shiftRight_zero, Nat.reducePow]

/-- The zero-extended IMM18 is the field's number. -/
theorem toNat_zeroExtend_imm (m : BitVec 18) : (m.zeroExtend 32).toNat = m.toNat := BitVec.toNat_setWidth_of_le (by decide)

theorem addi_matches : ImmMatches (fun a m => wrapI 32 ((a : Int) + sextN 18 m)) fun a m => a + m.signExtend 32 :=
  .of_eq fun a m => by rw [wrapI_add_sextN 32 (by decide), BitVec.ofNat_toNat, BitVec.setWidth_eq]

theorem andi_matches : ImmMatches (fun a m => a &&& m) fun a m => a &&& m.zeroExtend 32 :=
  .of_eq fun a m => by rw [BitVec.toNat_and, toNat_zeroExtend_imm]

theorem ori_matches : ImmMatches (fun a m => a ||| m) fun a m => a ||| m.zeroExtend 32 :=
  .of_eq fun a m => by rw [BitVec.toNat_or, toNat_zeroExtend_imm]

theorem xori_matches : ImmMatches (fun a m => a ^^^ m) fun a m => a ^^^ m.zeroExtend 32 :=
  .of_eq fun a m => by rw [BitVec.toNat_xor, toNat_zeroExtend_imm]

theorem slli_matches : ImmMatches (fun a m => a * 2 ^ (m % 32)) fun a m => a <<< (m.toNat % 32) :=
  fun a _ => mul_two_pow_mod a _

theorem srli_matches : ImmMatches (fun a m => a / 2 ^ (m % 32)) fun a m => a >>> (m.toNat % 32) :=
  .of_eq fun a _ => div_two_pow a _

theorem srai_matches : ImmMatches (fun a m => wrapI 32 (sgn a / 2 ^ (m % 32))) fun a m => a.sshiftRight (m.toNat % 32) :=
  .of_eq fun a _ => wrapI_sgn_div a _

theorem rori_matches : ImmMatches (fun a m => rotr a (m % 32)) fun a m => a.rotateRight (m.toNat % 32) :=
  .of_eq fun a _ => rotr_eq_rotateRight a (Nat.mod_lt _ (by decide))

theorem lui_mod (w : Nat) : phImm22 w * 1024 % 2 ^ 32 = (BitVec.ofNat 22 w ++ 0#10).toNat := by
  rw [← BitVec.toNat_mod_cancel (BitVec.ofNat 22 w ++ 0#10)]
  simp only [toNat_append_eq_add, phImm22_eq_toNat, BitVec.toNat_zero, Nat.add_zero, Nat.reducePow]

/-! ### The conditions of R100 -/

/-- The condition of a branch on the numbers in two registers is the condition of R100 on their words. -/
def BranchMatches (p : Nat → Nat → Bool) (q : Word → Word → Bool) : Prop := ∀ a b : Word, p a.toNat b.toNat = q a b

theorem beq_matches : BranchMatches (fun a b => a == b) fun a b => a == b := fun a b => by
  rw [Bool.eq_iff_iff, beq_iff_eq, beq_iff_eq, BitVec.toNat_inj]

theorem bne_matches : BranchMatches (fun a b => a != b) fun a b => a != b := fun a b => congrArg (!·) (beq_matches a b)

theorem blt_matches : BranchMatches (fun a b => decide (sgn a < sgn b)) fun a b => a.slt b := fun a b => by
  simp only [sgn_toNat, BitVec.slt_eq_decide]

theorem bge_matches : BranchMatches (fun a b => decide (sgn b ≤ sgn a)) fun a b => b.sle a := fun a b => by
  simp only [sgn_toNat, BitVec.sle_eq_decide]

theorem bltu_matches : BranchMatches (fun a b => decide (a < b)) fun a b => a.ult b := fun _ _ => BitVec.ult_eq_decide.symm

theorem bgeu_matches : BranchMatches (fun a b => decide (b ≤ a)) fun a b => b.ule a := fun _ _ => BitVec.ule_eq_decide.symm

/-- The modular comparison: the sign of the difference. -/
theorem bmlt_matches : BranchMatches modLess fun a b => (a - b).msb := fun a b => by
  simp only [modLess, add_sub_mod, BitVec.msb_eq_decide, Nat.reduceSub]

theorem bmge_matches : BranchMatches (fun a b => !modLess a b) fun a b => !(a - b).msb := fun a b =>
  congrArg (!·) (bmlt_matches a b)

/-! ### An instruction that has issued -/

/-- The issue of the instruction at PC of sequencer `n`. -/
def State.issueOf (s : State) (n : Nat) (o : PhOp) (w : Nat) : Issue :=
  { n, pc := (s.seq n).pc, bank := (s.seq n).bank, word := w, c := s.issueCycle n o w }

/-- The state in which the body of an instruction begins: time has passed to its issue, which is counted. -/
def State.atBody (s : State) (n : Nat) (o : PhOp) (w : Nat) : State :=
  (s.atIssue n o w).begin (s.issueOf n o w) (s.readyCycle n o w)

section
variable {s : State} {n w : Nat} {o : PhOp} (h : s.Issues n o w)
include h

theorem State.Issues.atBody_inv : (s.atBody n o w).Inv :=
  (State.begin_reach ..).inv (State.atIssue_inv h.sound.inv n o w)

theorem State.Issues.atBody_kept (hn : n < 1024) : Kept (s.atIssue n o w) (s.atBody n o w) n [] :=
  (State.begin_kept (State.atIssue_inv h.sound.inv n o w) (s.issueOf n o w) _ hn []).1

theorem State.Issues.atBody_seq (hn : n < 1024) : (s.atBody n o w).seq n =
    { s.seq n with pc := s.pcNext n, nextIssue := s.issueCycle n o w + 1, waite := none, safeAt := none } := by
  have e := (State.begin_kept (State.atIssue_inv h.sound.inv n o w) (s.issueOf n o w) (s.readyCycle n o w) hn []).2
  exact e.trans (by rw [State.issueOf, State.atIssue_seq]; rfl)

theorem State.Issues.atBody_x (hn : n < 1024) (k : Nat) : (s.atBody n o w).x n k = s.x n k := by
  unfold State.x
  rw [h.atBody_seq hn]

/-- An instruction without an effect of its own runs on to the next one, in one cycle (R83, R95). -/
theorem State.Issues.atBody_runsOn (hn : n < 1024) : s.RunsOn (s.atBody n o w) n o w [] (s.x n) (s.pcNext n) 1 where
  within := (h.atBody_kept hn).toWithin
  xs := h.atBody_x hn
  pc := by rw [h.atBody_seq hn]
  next := by rw [h.atBody_seq hn]
  seq := by rw [h.atBody_seq hn]; rfl

/-- An instruction that can issue completes with what its body leaves. -/
theorem State.Issues.ends {c : Instr} {body : State → Issue → State} {p : State → Prop}
    (he : exec c s = runLive s fun s => s.phiad n o body) (hi : (body (s.atBody n o w) (s.issueOf n o w)).Inv)
    (hp : p (body (s.atBody n o w) (s.issueOf n o w))) : EndsIn c s p :=
  ⟨_, hp, runLive_ends he h.live (h.phiad body) hi⟩

end

/-- A result is written modulo 2^32 (R79). -/
theorem State.result_mod (s : State) (i : Issue) (rd v lat : Nat) : s.result i rd (v % 2 ^ 32) lat = s.result i rd v lat := by
  unfold State.result State.setX
  rw [Nat.mod_mod]

/-! ### ALU and immediate instructions (R96, R97) -/

/-- An instruction whose body writes the number `v` completes with the word that `v` is modulo 2^32. -/
theorem wordResult_ends {s : State} {n w : Nat} {o : PhOp} {c : Instr} (h : s.Issues n o w) (hn : n < 1024) {v : Nat} {x : Word}
    (hx : v % 2 ^ 32 = x.toNat) {rd lat : Nat} {body : State → Issue → State}
    (he : exec c s = runLive s fun s => s.phiad n o body)
    (hb : ∀ u i, i.n = n → i.word = w → (∀ k, u.x n k = s.x n k) → body u i = u.result i rd v lat) :
    EndsIn c s fun u => s.Writes u n o w rd x.toNat lat :=
  writes_ends h hn rd x.toNat lat x.isLt body he fun u i hi hw hk => by
    rw [hb u i hi hw hk, ← State.result_mod, hx]

theorem alu_ends {s : State} {n : Fin 24} {w : Nat} {o : PhOp} {c : Instr} (h : s.Issues n o w) {f : Nat → Nat → Nat → Nat}
    {g : Word → Word → Word → Word} (hf : AluMatches f g)
    (he : exec c s = runLive s fun s => s.phiad n o fun s i => s.alu i f) :
    EndsIn c s fun u => s.Writes u n o w (phA w) (g (s.rs1W n w) (s.rs2W n w) (s.rdW n w)).toNat 1 :=
  wordResult_ends h (by omega) (hf ..) he fun u i hi hw hk => by
    subst hw
    have hs := h.sound.inv
    rw [hs.rs1W_toNat, hs.rs2W_toNat, hs.rdW_toNat, State.alu, State.rs1, State.rs2, State.rd, hi, hk, hk, hk]

theorem aluImm_ends {s : State} {n : Fin 24} {w : Nat} {o : PhOp} {c : Instr} (h : s.Issues n o w) {f : Nat → Nat → Nat}
    {g : Word → BitVec 18 → Word} (hf : ImmMatches f g)
    (he : exec c s = runLive s fun s => s.phiad n o fun s i => s.aluImm i f) :
    EndsIn c s fun u => s.Writes u n o w (phA w) (g (s.rs1W n w) (BitVec.ofNat 18 w)).toNat 1 :=
  wordResult_ends h (by omega) (hf ..) he fun u i hi hw hk => by
    subst hw
    rw [h.sound.inv.rs1W_toNat, ← phImm_eq_toNat, State.aluImm, State.rs1, hi, hk]

/-- R96, for each row of the table of ALU instructions. -/
theorem aluResults : AluResultsClaim := by
  intro n s w
  simp only [aluTable, List.forall_mem_cons, List.not_mem_nil, false_imp_iff, implies_true, and_true]
  exact ⟨fun h => alu_ends h add_matches rfl,
    fun h => alu_ends h sub_matches rfl,
    fun h => alu_ends h and_matches rfl,
    fun h => alu_ends h or_matches rfl,
    fun h => alu_ends h xor_matches rfl,
    fun h => alu_ends h sll_matches rfl,
    fun h => alu_ends h srl_matches rfl,
    fun h => alu_ends h sra_matches rfl,
    fun h => alu_ends h slt_matches rfl,
    fun h => alu_ends h sltu_matches rfl,
    fun h => alu_ends h min_matches rfl,
    fun h => alu_ends h max_matches rfl,
    fun h => alu_ends h minu_matches rfl,
    fun h => alu_ends h maxu_matches rfl,
    fun h => alu_ends h clamp_matches rfl,
    fun h => alu_ends h clampu_matches rfl,
    fun h => alu_ends h pack_matches rfl⟩

/-- R97, for each row of the table of immediate instructions. -/
theorem immTable_ends (n : Fin 24) (s : State) (w : Nat) : ∀ p ∈ immTable n, s.Issues n p.2.1 w →
    EndsIn p.1 s fun u => s.Writes u n p.2.1 w (phA w) (p.2.2 (s.rs1W n w) (BitVec.ofNat 18 w)).toNat 1 := by
  simp only [immTable, List.forall_mem_cons, List.not_mem_nil, false_imp_iff, implies_true, and_true]
  exact ⟨fun h => aluImm_ends h addi_matches rfl,
    fun h => aluImm_ends h andi_matches rfl,
    fun h => aluImm_ends h ori_matches rfl,
    fun h => aluImm_ends h xori_matches rfl,
    fun h => aluImm_ends h slli_matches rfl,
    fun h => aluImm_ends h srli_matches rfl,
    fun h => aluImm_ends h srai_matches rfl,
    fun h => aluImm_ends h rori_matches rfl⟩

theorem lui_ends {s : State} {n : Fin 24} {w : Nat} (h : s.Issues n .lui w) :
    EndsIn (.lui n) s fun u => s.Writes u n .lui w (phA w) (BitVec.ofNat 22 w ++ 0#10).toNat 1 :=
  wordResult_ends h (by omega) (lui_mod w) rfl fun u i _ hw _ => by rw [hw]

/-- Settles O2: every instruction of R96 and R97 writes one result, the word that its function computes. -/
theorem aluAndImmediateResults : Obligations.AluAndImmediateResults :=
  ⟨aluResults, fun n s w => ⟨immTable_ends n s w, lui_ends⟩⟩

/-! ### Branches and jumps (R99, R100) -/

/-- A jump changes where its sequencer goes on and when, and nothing else. -/
theorem State.RunsOn.jumpTo {s u : State} {n w pc cost : Nat} {o : PhOp} {fs : List Fld} {xs : Nat → Nat}
    (h : s.RunsOn u n o w fs xs pc cost) (hu : Tab.rising u.seqs = true) (target : Int) :
    s.RunsOn (u.jumpTo (s.issueOf n o w) target) n o w fs xs (wrapI 11 target) 3 := by
  obtain ⟨⟨hparts, hothers, hfields⟩, hxs, -, -, hseq⟩ := h
  unfold State.jumpTo
  rw [State.modSeq_eq, State.issueOf]
  have hself : ∀ q, (u.setSeq n q).seq n = q := fun q => (State.seq_setSeq hu n n q).trans (if_pos rfl)
  refine ⟨⟨by rw [hparts]; rfl, fun m hm => ?others, hfields⟩, fun k => ?xs, ?pc, ?next, ?seq⟩
  case others => exact (State.seq_setSeq hu n m _).trans ((if_neg hm).trans (hothers m hm))
  case xs =>
    rw [← hxs k]
    unfold State.x
    rw [hself]
  case pc => rw [hself]
  case next => rw [hself]
  case seq => rw [hself, hseq]; rfl

/-- The target of a branch or of JAL: PC plus a signed offset, modulo 2,048. -/
theorem wrapI_target (pc : Nat) {k : Nat} (hk : 11 ≤ k) (m : BitVec k) :
    wrapI 11 ((pc : Int) + sextN k m.toNat) = (BitVec.ofNat 11 pc + m.setWidth 11).toNat := by
  rw [wrapI_add_sextN 11 (by omega), BitVec.signExtend_eq_setWidth_of_le m hk]

theorem branch_ends {s : State} {n : Fin 24} {w : Nat} {o : PhOp} {c : Instr} (h : s.Issues n o w) {p : Nat → Nat → Bool}
    {q : Word → Word → Bool} (hp : BranchMatches p q)
    (he : exec c s = runLive s fun s => s.phiad n o fun s i => s.branch i p) :
    EndsIn c s fun u => if q (s.rdW n w) (s.rs1W n w)
      then s.RunsOn u n o w [] (s.x n) (BitVec.ofNat 11 (s.seq n).pc + (BitVec.ofNat 14 w).setWidth 11).toNat 3
      else s.RunsOn u n o w [] (s.x n) (s.pcNext n) 1 := by
  have hn : n.val < 1024 := by omega
  refine h.ends he ((State.branch_reach ..).inv h.atBody_inv) ?_
  have hcond : p ((s.atBody n o w).rd (s.issueOf n o w)) ((s.atBody n o w).rs1 (s.issueOf n o w)) =
      q (s.rdW n w) (s.rs1W n w) := by
    rw [← hp, h.sound.inv.rdW_toNat, h.sound.inv.rs1W_toNat, ← h.atBody_x hn, ← h.atBody_x hn]
    rfl
  rw [State.branch, hcond]
  split
  · rw [← wrapI_target _ (by decide), ← phImm14_eq_toNat]
    exact (h.atBody_runsOn hn).jumpTo h.atBody_inv.seqsRising _
  · exact h.atBody_runsOn hn

/-- An instruction that writes PC + 1 to RD and jumps. -/
theorem link_ends {s : State} {n : Fin 24} {w : Nat} {o : PhOp} {c : Instr} (h : s.Issues n o w)
    (target : State → Issue → Int)
    (he : exec c s = runLive s fun s => s.phiad n o fun s i =>
      (s.result i (phA i.word) ((i.pc + 1) % 2048) 1).jumpTo i (target s i)) :
    EndsIn c s fun u => s.RunsOn u n o w [] (s.withX n (phA w) (BitVec.ofNat 11 (s.seq n).pc + 1).toNat)
      (wrapI 11 (target (s.atBody n o w) (s.issueOf n o w))) 3 := by
  have hlink : (BitVec.ofNat 11 (s.seq n).pc + 1).toNat = s.pcNext n := by simp [State.pcNext, BitVec.toNat_add]
  have hinv := (State.result_reach (s.atBody n o w) (s.issueOf n o w) (phA w) (s.pcNext n) 1).inv h.atBody_inv
  refine h.ends he ((State.jumpTo_reach ..).inv hinv) ?_
  rw [hlink]
  exact (result_writes h (by omega) (phA w) (s.pcNext n) 1 (by unfold State.pcNext; omega) _ rfl).run.jumpTo hinv.seqsRising _

theorem State.Issues.effAddr_eq {s : State} {n w : Nat} {o : PhOp} (h : s.Issues n o w) (hn : n < 1024) :
    (s.atBody n o w).effAddr (s.issueOf n o w) = (s.eaW n w).toNat := by
  have hrs1 : (s.atBody n o w).rs1 (s.issueOf n o w) = (s.rs1W n w).toNat := by
    rw [h.sound.inv.rs1W_toNat]
    exact h.atBody_x hn _
  rw [State.effAddr, hrs1, State.issueOf, phImm_eq_toNat, wrapI_add_sextN 32 (by decide), BitVec.ofNat_toNat, BitVec.setWidth_eq]
  rfl

theorem branchTable_ends (n : Fin 24) (s : State) (w : Nat) :
    ∀ p ∈ branchTable n, s.Issues n p.2.1 w → EndsIn p.1 s fun u => if p.2.2 (s.rdW n w) (s.rs1W n w)
    then s.RunsOn u n p.2.1 w [] (s.x n) (BitVec.ofNat 11 (s.seq n).pc + (BitVec.ofNat 14 w).setWidth 11).toNat 3
    else s.RunsOn u n p.2.1 w [] (s.x n) (s.pcNext n) 1 := by
  simp only [branchTable, List.forall_mem_cons, List.not_mem_nil, false_imp_iff, implies_true, and_true]
  exact ⟨fun h => branch_ends h beq_matches rfl,
    fun h => branch_ends h bne_matches rfl,
    fun h => branch_ends h blt_matches rfl,
    fun h => branch_ends h bge_matches rfl,
    fun h => branch_ends h bltu_matches rfl,
    fun h => branch_ends h bgeu_matches rfl,
    fun h => branch_ends h bmlt_matches rfl,
    fun h => branch_ends h bmge_matches rfl⟩

theorem jal_ends {s : State} {n : Fin 24} {w : Nat} (h : s.Issues n .jal w) : EndsIn (.jal n) s fun u =>
    s.RunsOn u n .jal w [] (s.withX n (phA w) (BitVec.ofNat 11 (s.seq n).pc + 1).toNat)
      (BitVec.ofNat 11 (s.seq n).pc + (BitVec.ofNat 22 w).setWidth 11).toNat 3 := by
  rw [← wrapI_target _ (by decide), ← phImm22_eq_toNat]
  exact link_ends h (fun _ i => (i.pc : Int) + sextN 22 (phImm22 i.word)) rfl

theorem jalr_ends {s : State} {n : Fin 24} {w : Nat} (h : s.Issues n .jalr w) : EndsIn (.jalr n) s fun u =>
    s.RunsOn u n .jalr w [] (s.withX n (phA w) (BitVec.ofNat 11 (s.seq n).pc + 1).toNat) ((s.eaW n w).setWidth 11).toNat 3 := by
  have htarget : wrapI 11 ((s.eaW n w).toNat : Int) = ((s.eaW n w).setWidth 11).toNat := by
    rw [wrapI_ofInt, BitVec.ofInt_natCast, BitVec.ofNat_toNat]
  rw [← htarget, ← h.effAddr_eq (by omega)]
  exact link_ends h (fun s i => s.effAddr i) rfl

/-- Settles O3: a branch jumps where its condition holds, JAL and JALR link and jump. -/
theorem branchesAndJumps : Obligations.BranchesAndJumps :=
  fun n s w => ⟨branchTable_ends n s w, jal_ends, jalr_ends⟩

end Sys2Proof.Machine
end

section
/-! SUPPORT. The instructions that arm slots: what each leaves where it arms, is refused, stalls or is skipped (R104, R109 to R118, R128,
R129, R133). -/

namespace Sys2Proof.Machine

/-! ### An instruction under way: its sequencer apart from what it has written -/

/-- Instruction `o` of sequencer `n` has issued, and has stored its registers `xs` and any slots of its own: PC and timing are those of
the next instruction, and nothing else differs but its counters and its fields in `fs`. -/
structure State.Proceeds (s u : State) (n : Nat) (o : PhOp) (w : Nat) (fs : List Fld) (xs : Nat → Nat) : Prop where
  inv : u.Inv
  within : (s.atIssue n o w).Within u n fs
  xs : ∀ k, u.x n k = xs k
  seq : u.seq n = { s.seq n with
    pc := s.pcNext n, nextIssue := s.issueCycle n o w + 1, waite := none, safeAt := none
    xs := (u.seq n).xs, ready := (u.seq n).ready, slots := (u.seq n).slots }

theorem State.Inv.slotsRising {s : State} (h : s.Inv) (n : Nat) : Tab.rising (s.seq n).slots = true :=
  ((Seq.ok_iff _).1 (h.seqOk n)).2.2.1

/-- A read of a slot after a write of one. -/
theorem State.slot_setSlot {s : State} (h : s.Inv) (n k j : Nat) (x : Slot) :
    (s.setSlot n k x).slot n j = if j = k then x else s.slot n j := by
  unfold State.slot State.setSlot
  rw [State.modSeq_eq, State.seq_setSeq h.seqsRising, if_pos rfl, Tab.get_set _ _ _ _ (h.slotsRising n)]

/-- A result changes no field. -/
theorem State.result_fld (s : State) (i : Issue) (rd v lat : Nat) (f : Fld) (j : Nat) : (s.result i rd v lat).fld f j = s.fld f j := by
  unfold State.result State.setX
  split <;> rfl

/-- A result changes no slot. -/
theorem State.result_slots {s : State} (h : s.Inv) {n : Nat} {i : Issue} (hi : i.n = n) (rd v lat : Nat) :
    ((s.result i rd v lat).seq n).slots = (s.seq n).slots := by
  obtain ⟨xs, rdy, hseq, -⟩ := (State.result_kept (Kept.refl h n []) (h.xs n).1 (h.xs n).2 i hi rd v lat).2.2
  rw [hseq]

theorem State.slot_congr {s u : State} {n : Nat} (h : (u.seq n).slots = (s.seq n).slots) (k : Nat) : u.slot n k = s.slot n k :=
  congrArg (Tab.get ({} : Slot) · k) h

theorem State.taskFault_seq (s : State) (n m : Nat) (f : Fld) (cnt : Option Fld) : (s.taskFault n f cnt).seq m = s.seq m := by
  cases cnt <;> rfl

/-- A task fault changes no field but its own (R142). -/
theorem State.fld_taskFault_none {s : State} (h : s.Inv) (n : Nat) (f g : Fld) :
    (s.taskFault n f none).fld g n = if g = f then maskN f.width 1 else s.fld g n := by
  rw [State.taskFault, State.raise_eq, State.fld_setFld h.regsOk]
  simp

namespace State.Proceeds
variable {s u : State} {n w : Nat} {o : PhOp} {fs : List Fld} {xs : Nat → Nat}

theorem kept (h : s.Proceeds u n o w fs xs) : Kept (s.atIssue n o w) u n fs := ⟨h.within, h.inv.regsOk, h.inv.seqsRising⟩

theorem setFld (h : s.Proceeds u n o w fs xs) (hn : n < 1024) {f : Fld} (hf : f ∈ fs) (v : Nat) :
    s.Proceeds (u.setFld f n v) n o w fs xs where
  inv := (State.setFld_reach ..).inv h.inv
  within := (h.kept.setFld hn f v (.inr hf)).toWithin
  xs := h.xs
  seq := h.seq

theorem result (h : s.Proceeds u n o w fs (s.x n)) {v : Nat} (hv : v < 2 ^ 32) (rd lat : Nat) :
    s.Proceeds (u.result (s.issueOf n o w) rd v lat) n o w fs (s.withX n rd v) := by
  obtain ⟨hkept, hxs, xs', rdy, hseq, -⟩ :=
    State.result_kept h.kept (h.inv.xs n).1 (h.inv.xs n).2 (s.issueOf n o w) rfl rd v lat
  refine ⟨(State.result_reach ..).inv h.inv, hkept.toWithin, fun k => ?_, ?_⟩
  · rw [hxs, Nat.mod_eq_of_lt hv, h.xs, State.withX]
  · rw [hseq, h.seq]

theorem setSlot (h : s.Proceeds u n o w fs xs) (k : Nat) (x : Slot) : s.Proceeds (u.setSlot n k x) n o w fs xs := by
  have hseq : (u.setSlot n k x).seq n = { u.seq n with slots := Tab.set {} (u.seq n).slots k x } := h.kept.seq_self _
  refine ⟨(State.setSlot_reach ..).inv h.inv, (h.kept.setSeq _).toWithin, fun j => ?_, ?_⟩
  · rw [← h.xs j]
    unfold State.x
    rw [hseq]
  · rw [hseq, h.seq]

theorem armSlot (h : s.Proceeds u n o w fs xs) (hn : n < 1024) (hf : .SEQ_SLOTS_PEAK ∈ fs) (k : Nat) (x : Slot) :
    s.Proceeds (u.armSlot n k x) n o w fs xs :=
  (h.setSlot k _).setFld hn hf _

theorem taskFault (h : s.Proceeds u n o w fs xs) (hn : n < 1024) {f : Fld} {cnt : Option Fld} (hf : f ∈ fs)
    (hc : ∀ g ∈ cnt, g ∈ fs) : s.Proceeds (u.taskFault n f cnt) n o w fs xs := by
  unfold State.taskFault
  cases cnt with
  | none => exact h.setFld hn hf _
  | some g => exact (h.setFld hn hf _).setFld hn (hc g rfl) _

theorem state (h : s.Proceeds u n o w fs xs) : (u.seq n).state = (s.seq n).state := by rw [h.seq]

/-- Apart from its slots the sequencer has run on to the next instruction. -/
theorem runsOn_apartSlots (h : s.Proceeds u n o w fs xs) :
    s.RunsOn (u.setSeq n ((u.seq n).apartSlots (s.seq n))) n o w fs xs (s.pcNext n) 1 := by
  have hself := h.kept.seq_self ((u.seq n).apartSlots (s.seq n))
  refine ⟨(h.kept.setSeq _).toWithin, fun k => ?_, ?_, ?_, ?_⟩
  · rw [← h.xs k]
    unfold State.x
    rw [hself]
    rfl
  · rw [hself, h.seq]; rfl
  · rw [hself, h.seq]; rfl
  · rw [hself, h.seq]; rfl

/-- With its slots as they were the sequencer has run on to the next instruction. -/
theorem runsOn (h : s.Proceeds u n o w fs xs) (hs : (u.seq n).slots = (s.seq n).slots) :
    s.RunsOn u n o w fs xs (s.pcNext n) 1 := by
  refine ⟨h.within, h.xs, ?_, ?_, ?_⟩
  · rw [h.seq]
  · rw [h.seq]
  · rw [h.seq, hs]; rfl

end State.Proceeds

/-! ### The state in which an arming instruction begins -/

section
variable {s : State} {n w : Nat} {o : PhOp} (h : s.Issues n o w) (hn : n < 1024)
include h hn

theorem State.Issues.atBody_proceeds (fs : List Fld) : s.Proceeds (s.atBody n o w) n o w fs (s.x n) where
  inv := h.atBody_inv
  within := (State.begin_kept (State.atIssue_inv h.sound.inv n o w) (s.issueOf n o w) _ hn fs).1.toWithin
  xs := h.atBody_x hn
  seq := by rw [h.atBody_seq hn]

/-- An issue changes its sequencer's two counters, and no other field. -/
theorem State.Issues.atBody_fld {f : Fld} (hf : f ∉ issueCounters) (j : Nat) : (s.atBody n o w).fld f j = s.fld f j := by
  rw [(h.atBody_kept hn).fields f j (by simp [hf]), State.atIssue_fld]

theorem State.Issues.atBody_slots : ((s.atBody n o w).seq n).slots = (s.seq n).slots := by rw [h.atBody_seq hn]

theorem State.Issues.atBody_slot (k : Nat) : (s.atBody n o w).slot n k = s.slot n k := State.slot_congr (h.atBody_slots hn) k

theorem State.Issues.atBody_freeSlots : (s.atBody n o w).freeSlots n = s.freeSlots n := by
  simp only [State.freeSlots, h.atBody_slot hn]

theorem State.Issues.atBody_owner (c : Nat) : (s.atBody n o w).owner c = s.owner c := by
  unfold State.owner State.flag
  rw [h.atBody_fld hn (by decide), h.atBody_fld hn (by decide)]

theorem State.Issues.atBody_rs1 : (s.atBody n o w).rs1 (s.issueOf n o w) = (s.rs1W n w).toNat := by
  rw [h.sound.inv.rs1W_toNat]
  exact h.atBody_x hn _

theorem State.Issues.atBody_rs2 : (s.atBody n o w).rs2 (s.issueOf n o w) = (s.rs2W n w).toNat := by
  rw [h.sound.inv.rs2W_toNat]
  exact h.atBody_x hn _

theorem State.Issues.atBody_rd : (s.atBody n o w).rd (s.issueOf n o w) = (s.rdW n w).toNat := by
  rw [h.sound.inv.rdW_toNat]
  exact h.atBody_x hn _

end

/-- An arming instruction completes with what its body leaves. -/
theorem State.Issues.ends_slotBody {s u : State} {n w : Nat} {o : PhOp} {c : Instr} {p : State → Prop} (h : s.Issues n o w)
    (he : exec c s = runLive s fun s => s.phiad n o fun s i => s.slotBody o i)
    (hu : (s.atBody n o w).slotBody o (s.issueOf n o w) = u) (hi : u.Inv) (hp : p u) : EndsIn c s p := by
  subst hu
  exact h.ends he hi hp

/-! ### The lowest free slot (R109) -/

section
variable {s : State} {n k : Nat}

theorem State.LowestFree.head? (h : s.LowestFree n k) : (s.freeSlots n).head? = some k := by
  obtain ⟨hk, hfree, hbelow⟩ := h
  rw [State.freeSlots, List.head?_filter, List.find?_range_eq_some]
  exact ⟨by simp [hfree], by simpa using hk, fun j hj => by simp [hbelow j hj]⟩

theorem State.LowestFree.firstFree (h : s.LowestFree n k) : s.firstFree n = k := by
  rw [State.firstFree, List.headD_eq_head?_getD, h.head?, Option.getD_some]

theorem State.LowestFree.one_le_free (h : s.LowestFree n k) : 1 ≤ (s.freeSlots n).length := by
  have := h.head?
  cases hl : s.freeSlots n with
  | nil => simp [hl] at this
  | cons j l => simp

theorem State.mem_freeSlots {j : Nat} : j ∈ s.freeSlots n ↔ j < 64 ∧ (s.slot n j).armed = false := by simp [State.freeSlots]

theorem State.two_le_free {j : Nat} (hkj : k < j) (hj : j < 64) (hk : (s.slot n k).armed = false) (hf : (s.slot n j).armed = false) :
    2 ≤ (s.freeSlots n).length := by
  have hmemk : k ∈ s.freeSlots n := State.mem_freeSlots.2 ⟨by omega, hk⟩
  have hmemj : j ∈ s.freeSlots n := State.mem_freeSlots.2 ⟨hj, hf⟩
  match hl : s.freeSlots n with
  | [] => rw [hl] at hmemk; exact absurd hmemk List.not_mem_nil
  | [i] =>
    rw [hl, List.mem_singleton] at hmemk hmemj
    omega
  | _ :: _ :: l => exact Nat.le_add_left 2 l.length

/-- The lowest free slot depends on the slots alone. -/
theorem State.LowestFree.congr {u : State} (h : s.LowestFree n k) (hs : ∀ j, u.slot n j = s.slot n j) : u.LowestFree n k := by
  simpa only [State.LowestFree, hs] using h

end

/-! ### A slot armed (R110, R111, R145) -/

/-- What an arming takes from the state is the domain of the sequencer, its angle, the time, and the generation of the slot. -/
theorem State.armedAs_within {s u : State} {n k : Nat} {fs : List Fld} (h : s.Within u n fs) (hf : .SEQ_CTRL_DOMAIN ∉ fs)
    (hs : u.slot n k = s.slot n k) (x : Slot) : u.armedAs n k x = s.armedAs n k x := by
  have hdom : u.fld .SEQ_CTRL_DOMAIN n = s.fld .SEQ_CTRL_DOMAIN n := h.fields _ _ (by simp [hf, issueCounters])
  have hread : ∀ d timed t, u.firstRead d timed t = s.firstRead d timed t := by
    intro d timed t
    rw [h.parts]
    rfl
  have htnow : u.tnow = s.tnow := by rw [h.parts]
  unfold State.armedAs
  rw [hs, hdom, hread, htnow]

/-- A slot armed, and every other slot as it was. -/
theorem State.slot_armSlot {u : State} (h : u.Inv) (n k j : Nat) (x : Slot) :
    (u.armSlot n k x).slot n j = if j = k then u.armedAs n k x else u.slot n j :=
  State.slot_setSlot h n k j _

/-- SLOTS.PEAK follows the slots in use (R109). -/
theorem State.peak_armSlot {u : State} (h : u.Inv) (n k : Nat) (x : Slot) : (u.armSlot n k x).fld .SEQ_SLOTS_PEAK n =
    max (u.fld .SEQ_SLOTS_PEAK n) ((u.armSlot n k x).inUse n) % 2 ^ Fld.width .SEQ_SLOTS_PEAK :=
  State.fld_setFld_self ((State.setSlot_reach ..).inv h).regsOk _ _ _

section
variable {s : State} {n w k : Nat} {o : PhOp} (h : s.Issues n o w) (hn : n < 1024)
include h hn

/-- The slot that an instruction arms as it issues. -/
theorem State.Issues.armedAs_atBody (x : Slot) : (s.atBody n o w).armedAs n k x = (s.atIssue n o w).armedAs n k x :=
  State.armedAs_within (h.atBody_kept hn).toWithin (by simp) ((h.atBody_slot hn k).trans (State.slot_congr (by rw [State.atIssue_seq]) k)) x

/-- An instruction that has armed one slot as it issued, and has written the handle to register `rd`. -/
theorem State.Issues.arms {u : State} {x : Slot} {rd : Nat}
    (hp : s.Proceeds u n o w [.SEQ_SLOTS_PEAK] (s.withX n rd ((s.armedAs n k x).gen * 256 + k)))
    (hslots : (u.seq n).slots = (((s.atBody n o w).armSlot n k x).seq n).slots)
    (hpeak : u.fld .SEQ_SLOTS_PEAK n = ((s.atBody n o w).armSlot n k x).fld .SEQ_SLOTS_PEAK n) : s.Arms u n o w k x rd := by
  have hslot : ∀ j, u.slot n j = if j = k then (s.atBody n o w).armedAs n k x else (s.atBody n o w).slot n j := fun j => by
    rw [← State.slot_armSlot h.atBody_inv, State.slot_congr hslots]
  have huse : u.inUse n = ((s.atBody n o w).armSlot n k x).inUse n := by
    unfold State.inUse
    rw [hslots]
  refine ⟨hp.runsOn_apartSlots, hp.within.parts, ?_, fun j hj => ?_, ?_⟩
  · rw [hslot, if_pos rfl, h.armedAs_atBody hn]
  · rw [hslot, if_neg hj, h.atBody_slot hn]
  · rw [hpeak, State.peak_armSlot h.atBody_inv, h.atBody_fld hn (by decide), huse]

/-- Arming a slot leaves the registers as they were. -/
theorem State.Issues.armSlot_proceeds (x : Slot) :
    s.Proceeds ((s.atBody n o w).armSlot n k x) n o w [.SEQ_SLOTS_PEAK] (s.x n) :=
  (h.atBody_proceeds hn _).armSlot hn (List.mem_singleton_self _) k x

end

theorem State.withX_zero (s : State) (n v : Nat) : s.withX n 0 v = s.x n := funext fun _ => if_neg fun hk => hk.2 hk.1

/-! ### ARM and ARMT (R104, R110, R113, R145) -/

/-- Enough free slots: the instruction proceeds. -/
theorem State.withSlots_of_le {s : State} {i : Issue} {k : Nat} (hk : k ≤ (s.freeSlots i.n).length) (o : PhOp) (go : State → State) :
    s.withSlots i o k go = go s := if_pos hk

/-- The operation of ARM and of ARMT. -/
def armOp (timed : Bool) : PhOp := if timed then .armt else .arm

theorem State.slotBody_armOp (u : State) (i : Issue) (timed : Bool) : u.slotBody (armOp timed) i = u.armBody i timed := by
  cases timed <;> rfl

/-- The slot that the model arms is the one that the word describes (R104, R113). -/
theorem armWords_eq {timed : Bool} {u : State} {i : Issue} {target : Nat} {x : Slot}
    (hx : armWords timed (phAct i.word) target (phCh i.word) (u.rs2 i % 512) (phFl i.word) = some x) :
    { kind := armKind timed (phAct i.word), target, arg := u.armArg i } = x := by
  unfold armWords at hx
  unfold State.armArg
  split at hx <;> simp_all [armKind]

/-- ARM and ARMT, on no channel that is not their sequencer's, need one slot. -/
theorem State.armBody_of_owner {u : State} {i : Issue} (ho : phAct i.word ≤ 1 → u.owner (phCh i.word) = some i.n) (timed : Bool) :
    u.armBody i timed = u.withSlots i (armOp timed) 1 fun u =>
      let t := u.armSlot i.n (u.firstFree i.n) { kind := armKind timed (phAct i.word), target := u.rs1 i, arg := u.armArg i }
      t.result i (phA i.word) (t.handle i.n (u.firstFree i.n)) 1 :=
  if_neg fun hc => hc.2 (ho hc.1)

/-- With slot `k` the lowest free they arm it as the word describes, and write its handle. -/
theorem State.armBody_of_lowestFree {u : State} {i : Issue} {k : Nat} {x : Slot} {timed : Bool}
    (ho : phAct i.word ≤ 1 → u.owner (phCh i.word) = some i.n) (hk : u.LowestFree i.n k)
    (hx : armWords timed (phAct i.word) (u.rs1 i) (phCh i.word) (u.rs2 i % 512) (phFl i.word) = some x) :
    u.armBody i timed = (u.armSlot i.n k x).result i (phA i.word) ((u.armSlot i.n k x).handle i.n k) 1 := by
  rw [State.armBody_of_owner ho, State.withSlots_of_le hk.one_le_free]
  dsimp only
  rw [hk.firstFree, armWords_eq hx]

/-- The handle of a slot just armed (R104). -/
theorem State.Issues.handle_armSlot {s : State} {n w k : Nat} {o : PhOp} (h : s.Issues n o w) (hn : n < 1024) (x : Slot) :
    ((s.atBody n o w).armSlot n k x).handle n k = (s.armedAs n k x).gen * 256 + k := by
  rw [State.handle, State.slot_armSlot h.atBody_inv, if_pos rfl, State.armedAs, h.atBody_slot hn, State.armedAs]

theorem State.handle_lt (s : State) (n : Nat) {k : Nat} (hk : k < 64) (x : Slot) : (s.armedAs n k x).gen * 256 + k < 2 ^ 32 := by
  rw [State.armedAs]
  dsimp only
  omega

theorem armsOneSlot_ends {s : State} {n : Fin 24} {w k : Nat} {x : Slot} {timed : Bool} {c : Instr} (h : s.Issues n (armOp timed) w)
    (hk : s.LowestFree n k) (ho : phAct w ≤ 1 → s.owner (phCh w) = some n.val)
    (hx : armWords timed (phAct w) (s.rs1W n w).toNat (phCh w) ((s.rs2W n w).toNat % 512) (phFl w) = some x)
    (he : exec c s = runLive s fun s => s.phiad n (armOp timed) fun s i => s.slotBody (armOp timed) i) :
    EndsIn c s fun u => s.Arms u n (armOp timed) w k x (phA w) ∧ (u.seq n).state = .run := by
  have hn : n.val < 1024 := by omega
  have hp := h.armSlot_proceeds (k := k) hn x
  have hr := hp.result (s.handle_lt n hk.1 x) (phA w) 1
  have hbody := State.armBody_of_lowestFree (u := s.atBody n (armOp timed) w) (i := s.issueOf n (armOp timed) w) (timed := timed)
    (fun ha => (h.atBody_owner hn _).trans (ho ha)) (hk.congr (h.atBody_slot hn)) (by rw [h.atBody_rs1 hn, h.atBody_rs2 hn]; exact hx)
  rw [← State.slotBody_armOp, show (s.issueOf n (armOp timed) w).n = n from rfl, h.handle_armSlot hn] at hbody
  exact h.ends_slotBody he hbody hr.inv
    ⟨h.arms hn hr (State.result_slots hp.inv rfl ..) (State.result_fld ..), hr.state.trans h.run⟩

theorem armInstructions : ArmInstructionsClaim := fun _ _ _ _ _ hk ho =>
  ⟨fun h hx => armsOneSlot_ends (timed := false) h hk ho hx rfl, fun h hx => armsOneSlot_ends (timed := true) h hk ho hx rfl⟩

/-! ### PULSE (R112, R115 to R118) -/

/-- The distance from the start to the limit, as words. -/
theorem fwd_toNat (a b : Word) : fwd a.toNat b.toNat = (b - a).toNat := by
  rw [fwd, Nat.mod_eq_of_lt a.isLt, add_sub_mod]

theorem limitOk_toNat (a b : Word) : limitOk a.toNat b.toNat = true ↔ 1 ≤ (b - a).toNat ∧ (b - a).toNat < 2 ^ 31 := by
  simp [limitOk, fwd_toNat]

/-- A distance out of range: none at all, or half the circle or more. -/
theorem limitOk_eq_false (a b : Word) : limitOk a.toNat b.toNat = false ↔ b = a ∨ 2 ^ 31 ≤ (b - a).toNat := by
  have ha := a.isLt
  have hb := b.isLt
  rw [← Bool.not_eq_true, limitOk_toNat, ← BitVec.toNat_inj, BitVec.toNat_sub]
  omega

/-- The start slot of a PULSE (R115, R117). -/
def State.pulseStart (s : State) (n w : Nat) : Slot :=
  { kind := .pulseStart, target := (s.rs1W n w).toNat, arg := phCh w, dur := max 8 (s.rs2W n w).toNat }

/-- Its limit slot, for the start in slot `k` (R115, R116). -/
def State.pulseLimit (s : State) (n w k : Nat) : Slot :=
  { kind := .pulseLimit, target := (s.rdW n w).toNat, arg := phCh w, partner := some k, waiting := true }

/-- What a PULSE that nothing refuses does with enough free slots: its start slot, and its limit slot after it. -/
def State.pulseArm (u : State) (i : Issue) (start : Slot) (limit : Nat → Slot) : State :=
  let k := u.firstFree i.n
  let t := u.armSlot i.n k start
  if bitN i.word 0 then t
  else
    let v := t.armSlot i.n (t.firstFree i.n) (limit k)
    v.setSlot i.n k { v.slot i.n k with partner := some (t.firstFree i.n) }

section
variable {s : State} {n w : Nat} (h : s.Issues n .pulse w) (hn : n < 1024)
include h hn

theorem State.Issues.pulse_badChannel :
    ((s.atBody n .pulse w).owner (phCh w) != some n) = true ↔ s.owner (phCh w) ≠ some n := by
  rw [h.atBody_owner hn, bne_iff_ne]

theorem State.Issues.pulse_badLimit :
    (!bitN w 0 && !limitOk ((s.atBody n .pulse w).rs1 (s.issueOf n .pulse w)) ((s.atBody n .pulse w).rd (s.issueOf n .pulse w))) = true ↔
    bitN w 0 = false ∧ (s.rdW n w = s.rs1W n w ∨ 2 ^ 31 ≤ (s.rdW n w - s.rs1W n w).toNat) := by
  rw [h.atBody_rs1 hn, h.atBody_rd hn, ← limitOk_eq_false, Bool.and_eq_true, Bool.not_eq_true', Bool.not_eq_true']

/-- A PULSE that nothing refuses needs its slots, and arms them. -/
theorem State.Issues.pulseBody_of_mayArm (hm : s.mayArm n w .pulse) : ∃ go,
    (s.atBody n .pulse w).pulseBody (s.issueOf n .pulse w) =
      (s.atBody n .pulse w).withSlots (s.issueOf n .pulse w) .pulse (if bitN w 0 then 1 else 2) go ∧
    go (s.atBody n .pulse w) = (s.atBody n .pulse w).pulseArm (s.issueOf n .pulse w) (s.pulseStart n w) (s.pulseLimit n w) := by
  have hc := mt (h.pulse_badChannel hn).1 fun hforeign => hforeign hm.1
  have hl := mt (h.pulse_badLimit hn).1 fun hb =>
    Bool.eq_false_iff.1 ((limitOk_eq_false ..).2 hb.2) ((limitOk_toNat ..).2 (hm.2 hb.1))
  refine ⟨_, if_neg (by rw [Bool.or_eq_true, not_or]; exact ⟨hc, hl⟩), ?_⟩
  dsimp only
  rw [h.atBody_rs1 hn, h.atBody_rs2 hn, h.atBody_rd hn]
  rfl

theorem State.Issues.pulseBody_of_free (hm : s.mayArm n w .pulse) (hf : (if bitN w 0 then 1 else 2) ≤ (s.freeSlots n).length) :
    (s.atBody n .pulse w).slotBody .pulse (s.issueOf n .pulse w) =
      (s.atBody n .pulse w).pulseArm (s.issueOf n .pulse w) (s.pulseStart n w) (s.pulseLimit n w) := by
  obtain ⟨go, hbody, hgo⟩ := h.pulseBody_of_mayArm hn hm
  rw [← h.atBody_freeSlots hn] at hf
  exact hbody.trans ((State.withSlots_of_le (i := s.issueOf n .pulse w) hf ..).trans hgo)

end

/-- The two slots of a pulse: its start in `k`, its limit in `j`, and each names the other (R115). -/
def State.armPair (u : State) (n k j : Nat) (start limit : Slot) : State :=
  let v := (u.armSlot n k start).armSlot n j limit
  v.setSlot n k { v.slot n k with partner := some j }

section
variable {u : State} {n k j : Nat} (hu : u.Inv)
include hu

/-- The arming of a slot does not bear on that of another. -/
theorem State.armedAs_armSlot (hn : n < 1024) (hjk : j ≠ k) (x y : Slot) :
    (u.armSlot n k x).armedAs n j y = u.armedAs n j y := by
  have hkept : Kept u (u.armSlot n k x) n [.SEQ_SLOTS_PEAK] :=
    ((Kept.refl hu n _).setSeq _).setFld hn _ _ (.inr (List.mem_singleton_self _))
  exact State.armedAs_within hkept.toWithin (by decide) (by rw [State.slot_armSlot hu, if_neg hjk]) y

theorem State.slot_armPair (hn : n < 1024) (hjk : j ≠ k) (start limit : Slot) (i : Nat) : (u.armPair n k j start limit).slot n i =
    if i = k then { u.armedAs n k start with partner := some j } else if i = j then u.armedAs n j limit else u.slot n i := by
  have ht := (State.armSlot_reach u n k start).inv hu
  have hk : ((u.armSlot n k start).armSlot n j limit).slot n k = u.armedAs n k start := by
    rw [State.slot_armSlot ht, if_neg hjk.symm, State.slot_armSlot hu, if_pos rfl]
  rw [State.armPair, State.slot_setSlot ((State.armSlot_reach ..).inv ht), hk]
  split
  · rfl
  · next hik => rw [State.slot_armSlot ht, State.armedAs_armSlot hu hn hjk, State.slot_armSlot hu, if_neg hik]

/-- Once the lowest free slot is armed the next free one is the lowest. -/
theorem State.LowestFree.next (hk : u.LowestFree n k) (hkj : k < j) (hj : j < 64) (hfree : (u.slot n j).armed = false)
    (hbetween : ∀ i, k < i → i < j → (u.slot n i).armed = true) (x : Slot) : (u.armSlot n k x).LowestFree n j := by
  refine ⟨hj, ?_, fun i hi => ?_⟩
  · rw [State.slot_armSlot hu, if_neg (by omega), hfree]
  · rw [State.slot_armSlot hu]
    split
    · rfl
    · rcases Nat.lt_or_ge i k with hik | hik
      · exact hk.2.2 i hik
      · exact hbetween i (by omega) hi

end

theorem pulse_ends {s : State} {n : Fin 24} {w k : Nat} (h : s.Issues n .pulse w) (hk : s.LowestFree n k)
    (ho : s.owner (phCh w) = some n.val) (hb : bitN w 0 = true) :
    EndsIn (.pulse n) s fun u => s.Arms u n .pulse w k (s.pulseStart n w) 0 ∧ (u.seq n).state = .run := by
  have hn : n.val < 1024 := by omega
  have hp := h.armSlot_proceeds (k := k) hn (s.pulseStart n w)
  have hbody := h.pulseBody_of_free hn ⟨ho, fun hf => by simp [hf] at hb⟩ (by rw [if_pos hb]; exact hk.one_le_free)
  rw [State.pulseArm, show (s.issueOf n .pulse w).n = n from rfl, show (s.issueOf n .pulse w).word = w from rfl, if_pos hb,
    (hk.congr (h.atBody_slot hn)).firstFree] at hbody
  exact h.ends_slotBody rfl hbody hp.inv ⟨h.arms hn (by rw [State.withX_zero]; exact hp) rfl rfl, hp.state.trans h.run⟩

theorem pulseWithLimit_ends {s : State} {n : Fin 24} {w k j : Nat} (h : s.Issues n .pulse w) (hk : s.LowestFree n k)
    (hm : s.mayArm n w .pulse) (hb : bitN w 0 = false) (hkj : k < j) (hj : j < 64) (hfree : (s.slot n j).armed = false)
    (hbetween : ∀ i, k < i → i < j → (s.slot n i).armed = true) :
    EndsIn (.pulse n) s fun u =>
      u.slot n k = { (s.atIssue n .pulse w).armedAs n k (s.pulseStart n w) with partner := some j } ∧
      u.slot n j = (s.atIssue n .pulse w).armedAs n j (s.pulseLimit n w k) ∧
      (∀ i, i ≠ k → i ≠ j → u.slot n i = s.slot n i) ∧
      s.RunsOn (u.setSeq n ((u.seq n).apartSlots (s.seq n))) n .pulse w [.SEQ_SLOTS_PEAK] (s.x n) (s.pcNext n) 1 := by
  have hn : n.val < 1024 := by omega
  have hjk : j ≠ k := by omega
  have hslotb := h.atBody_slot hn
  have hkb := hk.congr hslotb
  have hjb := hkb.next h.atBody_inv hkj hj (by rw [hslotb, hfree]) (fun i hki hij => by rw [hslotb, hbetween i hki hij])
    (s.pulseStart n w)
  have hbody := h.pulseBody_of_free hn hm (by rw [hb]; exact State.two_le_free hkj hj hk.2.1 hfree)
  rw [State.pulseArm, show (s.issueOf n .pulse w).n = n from rfl, show (s.issueOf n .pulse w).word = w from rfl, hb,
    hkb.firstFree, hjb.firstFree] at hbody
  have hp : s.Proceeds ((s.atBody n .pulse w).armPair n k j (s.pulseStart n w) (s.pulseLimit n w k)) n .pulse w [.SEQ_SLOTS_PEAK] (s.x n) :=
    ((h.armSlot_proceeds hn _).armSlot hn (List.mem_singleton_self _) _ _).setSlot _ _
  have hslot := State.slot_armPair h.atBody_inv hn hjk (s.pulseStart n w) (s.pulseLimit n w k)
  refine h.ends_slotBody rfl hbody hp.inv ⟨?_, ?_, fun i hik hij => ?_, hp.runsOn_apartSlots⟩
  · exact (hslot k).trans (by rw [if_pos rfl, h.armedAs_atBody hn])
  · exact (hslot j).trans (by rw [if_neg hjk, if_pos rfl, h.armedAs_atBody hn])
  · exact (hslot i).trans (by rw [if_neg hik, if_neg hij, hslotb])

theorem pulseInstruction : PulseInstructionClaim := fun _ _ _ _ h hk ho =>
  ⟨fun hb => pulse_ends h hk ho hb, fun _ hb hkj hj hfree hbetween hlo hhi =>
    pulseWithLimit_ends h hk ⟨ho, fun _ => ⟨hlo, hhi⟩⟩ hb hkj hj hfree hbetween⟩

/-! ### Arming instructions that are refused (R112, R117) -/

/-- A task fault that is set where `p` holds. -/
def State.faultIf (u : State) (p : Bool) (n : Nat) (f : Fld) : State := if p then u.taskFault n f none else u

theorem State.faultIf_seq (u : State) (p : Bool) (n m : Nat) (f : Fld) : (u.faultIf p n f).seq m = u.seq m := by
  unfold State.faultIf
  split
  · exact State.taskFault_seq ..
  · rfl

theorem State.fld_faultIf {u : State} (h : u.Inv) (p : Bool) (n : Nat) (f g : Fld) :
    (u.faultIf p n f).fld g n = if p = true ∧ g = f then maskN f.width 1 else u.fld g n := by
  cases p with
  | false => simp [State.faultIf]
  | true => simpa [State.faultIf] using State.fld_taskFault_none h n f g

theorem State.Proceeds.faultIf {s u : State} {n w : Nat} {o : PhOp} {fs : List Fld} {xs : Nat → Nat} (h : s.Proceeds u n o w fs xs)
    (hn : n < 1024) (p : Bool) {f : Fld} (hf : f ∈ fs) : s.Proceeds (u.faultIf p n f) n o w fs xs := by
  unfold State.faultIf
  split
  · exact h.taskFault hn hf (by simp)
  · exact h

/-- ARM or ARMT on a channel of another sequencer, or of none. -/
theorem armForeign_ends {s : State} {n : Fin 24} {w : Nat} {timed : Bool} {c : Instr} (h : s.Issues n (armOp timed) w)
    (ha : phAct w ≤ 1) (ho : s.owner (phCh w) ≠ some n.val)
    (he : exec c s = runLive s fun s => s.phiad n (armOp timed) fun s i => s.slotBody (armOp timed) i) :
    EndsIn c s fun u =>
      s.RunsOn u n (armOp timed) w [.SEQ_TASK_FLT_BAD_CHANNEL] (s.withX n (phA w) (2 ^ 32 - 1)) (s.pcNext n) 1 ∧
        u.fld .SEQ_TASK_FLT_BAD_CHANNEL n = 1 ∧ ∀ k, u.slot n k = s.slot n k := by
  have hn : n.val < 1024 := by omega
  have hp := (h.atBody_proceeds hn [.SEQ_TASK_FLT_BAD_CHANNEL]).taskFault hn (f := .SEQ_TASK_FLT_BAD_CHANNEL) (cnt := none)
    (List.mem_singleton_self _) (by simp)
  have hr := hp.result (v := 2 ^ 32 - 1) (by decide) (phA w) 1
  have hbody : (s.atBody n (armOp timed) w).armBody (s.issueOf n (armOp timed) w) timed =
      ((s.atBody n (armOp timed) w).taskFault n .SEQ_TASK_FLT_BAD_CHANNEL none).result (s.issueOf n (armOp timed) w) (phA w)
        (2 ^ 32 - 1) 1 :=
    if_pos ⟨ha, by rw [h.atBody_owner hn]; exact ho⟩
  have hslots := (State.result_slots (n := n) hp.inv (i := s.issueOf n (armOp timed) w) rfl (phA w) (2 ^ 32 - 1) 1).trans
    ((congrArg Seq.slots (State.taskFault_seq ..)).trans (h.atBody_slots hn))
  refine h.ends_slotBody he ((State.slotBody_armOp ..).trans hbody) hr.inv ⟨hr.runsOn hslots, ?_, State.slot_congr hslots⟩
  rw [State.result_fld, State.fld_taskFault_none h.atBody_inv]
  rfl

/-- A PULSE that is refused only sets its faults. -/
theorem State.pulseBody_of_refused {u : State} {i : Issue} {badCh badLim : Bool} (hc : (u.owner (phCh i.word) != some i.n) = badCh)
    (hl : (!bitN i.word 0 && !limitOk (u.rs1 i) (u.rd i)) = badLim) (hbad : (badCh || badLim) = true) :
    u.pulseBody i = (u.faultIf badCh i.n .SEQ_TASK_FLT_BAD_CHANNEL).faultIf badLim i.n .SEQ_TASK_FLT_BAD_LIMIT := by
  subst hc hl
  exact if_pos hbad

theorem pulseRefused_ends {s : State} {n : Fin 24} {w : Nat} (h : s.Issues n .pulse w) {badCh badLim : Bool}
    (hc : badCh = true ↔ s.owner (phCh w) ≠ some n.val)
    (hl : badLim = true ↔ bitN w 0 = false ∧ (s.rdW n w = s.rs1W n w ∨ 2 ^ 31 ≤ (s.rdW n w - s.rs1W n w).toNat))
    (hbad : (badCh || badLim) = true) :
    EndsIn (.pulse n) s fun u =>
      s.RunsOn u n .pulse w [.SEQ_TASK_FLT_BAD_CHANNEL, .SEQ_TASK_FLT_BAD_LIMIT] (s.x n) (s.pcNext n) 1 ∧
      (∀ k, u.slot n k = s.slot n k) ∧
      (badCh = true → u.fld .SEQ_TASK_FLT_BAD_CHANNEL n = 1) ∧
      (badCh = false → u.fld .SEQ_TASK_FLT_BAD_CHANNEL n = s.fld .SEQ_TASK_FLT_BAD_CHANNEL n) ∧
      (badLim = true → u.fld .SEQ_TASK_FLT_BAD_LIMIT n = 1) ∧
      (badLim = false → u.fld .SEQ_TASK_FLT_BAD_LIMIT n = s.fld .SEQ_TASK_FLT_BAD_LIMIT n) := by
  have hn : n.val < 1024 := by omega
  have hbody := State.pulseBody_of_refused (u := s.atBody n .pulse w) (i := s.issueOf n .pulse w)
    (Bool.eq_iff_iff.2 ((h.pulse_badChannel hn).trans hc.symm)) (Bool.eq_iff_iff.2 ((h.pulse_badLimit hn).trans hl.symm)) hbad
  have hp1 := (h.atBody_proceeds hn [.SEQ_TASK_FLT_BAD_CHANNEL, .SEQ_TASK_FLT_BAD_LIMIT]).faultIf hn badCh
    (f := .SEQ_TASK_FLT_BAD_CHANNEL) (by simp)
  have hp2 := hp1.faultIf hn badLim (f := .SEQ_TASK_FLT_BAD_LIMIT) (by simp)
  have hslots := (congrArg Seq.slots ((State.faultIf_seq _ badLim n n .SEQ_TASK_FLT_BAD_LIMIT).trans
    (State.faultIf_seq (s.atBody n .pulse w) badCh n n .SEQ_TASK_FLT_BAD_CHANNEL))).trans (h.atBody_slots hn)
  have hfld := fun g => (State.fld_faultIf hp1.inv badLim n .SEQ_TASK_FLT_BAD_LIMIT g).trans
    (congrArg _ (State.fld_faultIf h.atBody_inv badCh n .SEQ_TASK_FLT_BAD_CHANNEL g))
  refine h.ends_slotBody rfl hbody hp2.inv
    ⟨hp2.runsOn hslots, State.slot_congr hslots, fun hb => ?_, fun hb => ?_, fun hb => ?_, fun hb => ?_⟩
  · exact (hfld _).trans (by simp [hb]; rfl)
  · exact (hfld _).trans (by simp [hb, h.atBody_fld hn, issueCounters])
  · exact (hfld _).trans (by simp [hb]; rfl)
  · exact (hfld _).trans (by simp [hb, h.atBody_fld hn, issueCounters])

theorem armingRefused : ArmingRefusedClaim := by
  intro n s w
  refine ⟨?_, fun h => ?_⟩
  · simp only [List.forall_mem_cons, List.not_mem_nil, false_imp_iff, implies_true, and_true]
    exact ⟨fun h ha ho => armForeign_ends (timed := false) h ha ho rfl, fun h ha ho => armForeign_ends (timed := true) h ha ho rfl⟩
  · intro foreign badLimit hbad
    simpa only [decide_eq_true_eq, decide_eq_false_iff_not] using
      pulseRefused_ends h (badCh := decide foreign) (badLim := decide badLimit) decide_eq_true_iff decide_eq_true_iff (by simpa using hbad)

/-! ### Too few free slots (R128, R129, R133) -/

/-- The budget clock runs and has not expired: the clock runs in a task, and expires only under an allowance. -/
theorem State.budgetLeft_iff (s : State) (n c : Nat) : s.budgetLeft n c = true ↔ s.flag .SEQ_TASK_STAT_IN_TASK n = true ∧
    (s.fld .SEQ_BUDGET_ALLOW n = 0 ∨ ((s.seq n).expired = false ∧ c < (s.seq n).taskStart + s.fld .SEQ_BUDGET_ALLOW n)) := by
  simp [State.budgetLeft, State.flag]

theorem State.Issues.atBody_budgetLeft {s : State} {n w : Nat} {o : PhOp} (h : s.Issues n o w) (hn : n < 1024) (c : Nat) :
    (s.atBody n o w).budgetLeft n c = s.budgetLeft n c := by
  unfold State.budgetLeft State.flag
  rw [h.atBody_fld hn (by decide), h.atBody_fld hn (by decide), h.atBody_seq hn]

/-- A task fault with a counter sets its bit and counts it (R142, R417). -/
theorem State.fld_taskFault_some {u : State} (h : u.Inv) (n : Nat) {f c : Fld} (hfc : f ≠ c) :
    (u.taskFault n f (some c)).fld f n = maskN f.width 1 ∧
    (u.taskFault n f (some c)).fld c n = maskN c.width (min (u.fld c n + 1) (2 ^ c.width - 1)) := by
  have hr := State.setFld_regsOk f n 1 h.regsOk
  rw [State.taskFault, State.raise_eq, State.bump_eq, State.fld_setFld_ne hr _ _ _ hfc, State.fld_setFld_self h.regsOk,
    State.fld_setFld_self hr, State.fld_setFld_ne h.regsOk _ _ _ hfc.symm]
  exact ⟨rfl, rfl⟩

/-- Instruction `o` has been skipped for want of slots: SLOT_EXHAUST is set and counted, and register `rd` holds 0xFFFF_FFFF (R133). -/
def State.SlotSkips (s u : State) (n : Nat) (o : PhOp) (w rd : Nat) : Prop :=
  s.RunsOn u n o w [.SEQ_TASK_FLT_SLOT_EXHAUST, .SEQ_CNT_EXHAUST] (s.withX n rd (2 ^ 32 - 1)) (s.pcNext n) 1 ∧
    u.fld .SEQ_TASK_FLT_SLOT_EXHAUST n = 1 ∧
    u.fld .SEQ_CNT_EXHAUST n = min (s.fld .SEQ_CNT_EXHAUST n + 1) (2 ^ Fld.width .SEQ_CNT_EXHAUST - 1)

/-- Instruction `o` stalls for slots: its sequencer is in STALL at its PC, with its slots and registers as before (R133). -/
def State.SlotStalls (s u : State) (n : Nat) (o : PhOp) (w : Nat) : Prop :=
  (u.seq n).state = .stall ∧ (u.seq n).slotStall = true ∧ (u.seq n).pc = (s.seq n).pc ∧
    (∀ k, u.slot n k = s.slot n k) ∧ (∀ k, u.x n k = s.x n k) ∧ (s.atIssue n o w).Within u n []

/-- WAITA and WAITT depend on their slot alone. -/
theorem State.waitSlot_withSlots (u : State) (i : Issue) (timed : Bool) : ∃ go,
    u.waitSlot i timed = u.withSlots i (if timed then .waitt else .waita) 1 go := by
  unfold State.waitSlot
  exact ⟨_, rfl⟩

section
variable {s : State} {n w : Nat} {o : PhOp} (h : s.Issues n o w) (hn : n < 1024)
include h hn

/-- ARM and ARMT that may arm depend on their slot alone. -/
theorem State.Issues.armBody_withSlots (ho : phAct w ≤ 1 → s.owner (phCh w) = some n) (timed : Bool) : ∃ go,
    (s.atBody n o w).armBody (s.issueOf n o w) timed = (s.atBody n o w).withSlots (s.issueOf n o w) (armOp timed) 1 go :=
  ⟨_, State.armBody_of_owner (i := s.issueOf n o w) (fun ha => (h.atBody_owner hn _).trans (ho ha)) timed⟩

/-- A skip writes RD where the instruction has one. -/
theorem State.Issues.skipSlot_skips :
    let u := (s.atBody n o w).skipSlot (s.issueOf n o w) o
    u.Inv ∧ s.SlotSkips u n o w ((o.dest w).getD 0) := by
  intro u
  obtain ⟨t, ht⟩ : ∃ t, (s.atBody n o w).taskFault n .SEQ_TASK_FLT_SLOT_EXHAUST (some .SEQ_CNT_EXHAUST) = t := ⟨_, rfl⟩
  have hp : s.Proceeds t n o w [.SEQ_TASK_FLT_SLOT_EXHAUST, .SEQ_CNT_EXHAUST] (s.x n) :=
    ht ▸ (h.atBody_proceeds hn _).taskFault hn (by simp) (by simp)
  have hslots : (t.seq n).slots = (s.seq n).slots := ht ▸ (congrArg Seq.slots (State.taskFault_seq ..)).trans (h.atBody_slots hn)
  obtain ⟨hbit, hcount⟩ := ht ▸ State.fld_taskFault_some h.atBody_inv n (f := .SEQ_TASK_FLT_SLOT_EXHAUST)
    (c := .SEQ_CNT_EXHAUST) (by decide)
  rw [h.atBody_fld hn (by decide), maskN, Nat.mod_eq_of_lt (by omega)] at hcount
  have hu : u = match o.dest w with
      | some rd => t.result (s.issueOf n o w) rd 0xFFFFFFFF 1
      | none => t := ht ▸ rfl
  rw [hu]
  cases o.dest w with
  | none => exact ⟨hp.inv, by rw [Option.getD_none, State.withX_zero]; exact hp.runsOn hslots, hbit, hcount⟩
  | some rd =>
    have hr := hp.result (v := 2 ^ 32 - 1) (by decide) rd 1
    exact ⟨hr.inv, hr.runsOn ((State.result_slots hp.inv rfl ..).trans hslots), (State.result_fld ..).trans hbit,
      (State.result_fld ..).trans hcount⟩

theorem State.Issues.stallAt_stalls :
    let u := (s.atBody n o w).stallAt (s.issueOf n o w) fun q => { q with slotStall := true }
    u.Inv ∧ s.SlotStalls u n o w := by
  intro u
  have hkept := h.atBody_kept hn
  have hseq : u.seq n = { (s.atBody n o w).seq n with
      state := .stall, pc := (s.seq n).pc, nextIssue := s.issueCycle n o w, slotStall := true } := hkept.seq_self _
  refine ⟨(State.stallAt_reach _ _ (fun q => { q with slotStall := true }) fun _ hq => hq).inv h.atBody_inv, ?_, ?_, ?_, ?_, fun k => ?_,
    (hkept.setSeq _).toWithin⟩
  · rw [hseq]
  · rw [hseq]
  · rw [hseq]
  · exact State.slot_congr (by rw [hseq]; exact h.atBody_slots hn)
  · rw [← h.atBody_x hn k]
    unfold State.x
    rw [hseq]

end

/-- An instruction that needs more slots than are free is skipped or stalls, by the budget clock of its task. -/
theorem exhausted_ends {s : State} {n : Fin 24} {w need rd : Nat} {o : PhOp} {c : Instr} (h : s.Issues n o w)
    (he : exec c s = runLive s fun s => s.phiad n o fun s i => s.slotBody o i)
    (hgo : ∃ go, (s.atBody n o w).slotBody o (s.issueOf n o w) = (s.atBody n o w).withSlots (s.issueOf n o w) o need go)
    (hrd : (o.dest w).getD 0 = rd) (hfew : (s.freeSlots n).length < need) :
    let ends := (s.seq n).taskStart + s.fld .SEQ_BUDGET_ALLOW n
    (s.flag .SEQ_TASK_STAT_IN_TASK n = false ∨
        (s.fld .SEQ_BUDGET_ALLOW n ≠ 0 ∧ ((s.seq n).expired = true ∨ ends ≤ s.issueCycle n o w)) →
      EndsIn c s fun u => s.SlotSkips u n o w rd) ∧
    (s.flag .SEQ_TASK_STAT_IN_TASK n = true →
      s.fld .SEQ_BUDGET_ALLOW n = 0 ∨ ((s.seq n).expired = false ∧ s.issueCycle n o w < ends) →
      EndsIn c s fun u => s.SlotStalls u n o w) := by
  have hn : n.val < 1024 := by omega
  obtain ⟨go, hbody⟩ := hgo
  rw [← h.atBody_freeSlots hn] at hfew
  have hbudget := s.budgetLeft_iff n (s.issueCycle n o w)
  rw [← h.atBody_budgetLeft hn] at hbudget
  have hno : ¬ need ≤ ((s.atBody n o w).freeSlots (s.issueOf n o w).n).length := Nat.not_le.2 hfew
  refine ⟨fun hout => ?_, fun htask hleft => ?_⟩
  · have hover : ¬ (s.atBody n o w).budgetLeft n (s.issueCycle n o w) = true := by
      rw [hbudget]
      rintro ⟨htask, hleft⟩
      rcases hout with hout | ⟨hallow, hexp | hend⟩
      · simp [hout] at htask
      · simp [hallow, hexp] at hleft
      · exact hleft.elim hallow fun hl => by omega
    obtain ⟨hinv, hspec⟩ := h.skipSlot_skips hn
    exact h.ends_slotBody he (hbody.trans ((if_neg hno).trans (if_neg hover))) hinv (hrd ▸ hspec)
  · obtain ⟨hinv, hspec⟩ := h.stallAt_stalls hn
    exact h.ends_slotBody he (hbody.trans ((if_neg hno).trans (if_pos (hbudget.2 ⟨htask, hleft⟩)))) hinv hspec

/-- For each instruction that needs slots. -/
theorem slotsExhausted : SlotsExhaustedClaim := by
  intro n s w
  simp only [slotTable, List.forall_mem_cons, List.not_mem_nil, false_imp_iff, implies_true, and_true]
  refine ⟨fun h hm hfew => ?arm, fun h hm hfew => ?armt, fun h hm hfew => ?pulse, fun h _ hfew => ?waita, fun h _ hfew => ?waitt⟩
  case arm => exact exhausted_ends h rfl (h.armBody_withSlots (by omega) hm false) rfl hfew
  case armt => exact exhausted_ends h rfl (h.armBody_withSlots (by omega) hm true) rfl hfew
  case pulse =>
    obtain ⟨go, hbody, -⟩ := h.pulseBody_of_mayArm (by omega) hm
    exact exhausted_ends h rfl ⟨go, hbody⟩ rfl hfew
  case waita => exact exhausted_ends h rfl (State.waitSlot_withSlots _ _ false) rfl hfew
  case waitt => exact exhausted_ends h rfl (State.waitSlot_withSlots _ _ true) rfl hfew

/-- Settles O8: ARM, ARMT and PULSE arm the lowest free slots, set their faults where they are refused, and without a free slot are
skipped or stall. -/
theorem slotsArmed : Obligations.SlotsArmed :=
  ⟨armInstructions, pulseInstruction, armingRefused, slotsExhausted⟩

end Sys2Proof.Machine
end
